-- ==== Sys2Proof/Word.lean ====
section
/-! DEFINITION. The word types of the module and the shape of a sparse table.  Registers are 32 or 64 bits
(R11); bytes are the unit of every memory and of every packet. -/

namespace Sys2Proof

abbrev Byte := BitVec 8
abbrev W16 := BitVec 16
abbrev W32 := BitVec 32
abbrev W64 := BitVec 64

/-- A sparse array: pairs of an index and a value, indices strictly rising, with no entry that equals what an
unlisted index reads as. -/
abbrev Tbl (α : Type) := List (Nat × α)

end Sys2Proof
end

