-- ==== Sys2Proof/Machine/Registers.lean ====
section
/-! DEFINITION. The registers of the module: every register name of the manual's register tables, its
dimensions, its width and its address in Kelpie's CSR space (R11, R522, R524, R525), and every field
with its bits, access code and reset value.  Names and layouts are those of the tables in spec/02 to
spec/17; the order of the names inside a block is the order in which each first appears (R525). -/

namespace Sys2Proof

/-- The register names, block by block in the order R525 gives them space. -/
inductive Reg where
  | LNE_LSTS
  | LNE_EVT
  | LNE_PCTL
  | LNE_PSTS
  | LNE_PRBS
  | LNE_PRBS_ERR
  | LNE_FEC_CCW
  | LNE_FEC_UCW
  | LNE_FEC_HIST
  | LNK_CTL
  | LNK_EVT
  | LNK_CRED
  | LNK_STS
  | LNK_SWEEP
  | LNK_SNAP
  | LNK_FARID
  | LNK_RETRY_CNT
  | LNK_BADFRM_CNT
  | LNK_RESET_CNT
  | LNK_CHKFAIL_CNT
  | LNK_QUARDROP_CNT
  | XBR_CTL
  | XBR_INCOL
  | XBR_STS
  | OUB_CLS
  | OUB_WEIGHT
  | OUB_MIRMATCH
  | OUB_WRED
  | OUB_WREDP
  | OUB_MIRCTL
  | OUB_DROP_CNT
  | OUB_RXPKT_CNT
  | OUB_TXPKT_CNT
  | OUB_STALL_CNT
  | OUB_RXBYTE_CNT
  | OUB_TXBYTE_CNT
  | OUB_QDEPTH
  | OUB_QMAX
  | RTE_SELF
  | RTE_DIRP
  | RTE_RSET_PORTS
  | RTE_RSET_CTL
  | RTE_RSET_OWN
  | RTE_STS
  | RTE_LIFE
  | RTE_MCG
  | RTE_XTAB
  | RTE_YTAB
  | RTE_WINOVF_CNT
  | RTE_CCTL
  | RTE_LOCAL
  | RTE_WINSTS
  | RTE_LOCDROP_CNT
  | KNL_STS
  | KNL_CFG
  | CMD_QSTS
  | CMD_GSTS
  | POL_STS
  | POL_MONRGN
  | POL_TINV
  | POL_CE_CNT
  | POL_ECCLOG
  | POL_UE_CNT
  | POL_MIRFAIL_CNT
  | POL_SLOT
  | POL_MODE
  | POL_SCRUB
  | RTV_GRP
  | RTV_STALE_CNT
  | RTV_RECHK_CNT
  | RTV_RESFAIL_CNT
  | RTV_CHKFAIL_CNT
  | RTV_LANES
  | RTV_CTL
  | RTV_QUOTA
  | RTV_TMO_CNT
  | RTV_STS
  | RTV_SEQTAB
  | RTV_COLL_CNT
  | CMP_CFG
  | CMP_CYC
  | CMP_FLT
  | CMP_FLTCYC
  | CMP_OWN
  | CMP_CSTS
  | CMP_SCRUB
  | DET_CTL
  | DET_TIME
  | DET_TSRC
  | DET_TSTS
  | DET_LINKDLY
  | DET_MISS_CNT
  | DET_SCSTS
  | DET_SCLOST_CNT
  | SPG_SRC
  | SPG_CMD
  | SPG_STS
  | SPG_POLICY
  | SPG_FLOOR
  | SPG_HIVER
  | SPG_TF
  | SPG_EPREJ_CNT
  | SPG_OLDEPB_CNT
  | SPG_VER
  | FEA_OFFER
  | FEA_ACCEPT
  | FEA_LOCK
  | KLP_LCS
  | KLP_BOOTSTS
  | KLP_CTL
  | KLP_CERT
  | KLP_DBGSTS
  | KLP_SEQ
  | MON_LOCK
  | MON_LINKSEC
  | MON_LINKAUTH_CNT
  | TWN_DUP_CNT
  | TWN_OLD_CNT
  | TWN_FULL_CNT
  | TWN_LCTL
  | TWN_LSTS
  | TWN_RSYNC
  | TWN_RSYNC_VA
  | TWN_TAKE_CNT
  | HND_STS
  | HND_EVT_CNT
  | HND_PATH
  | HND_STICKY
  | HND_SEV
  | HND_FORCE
  | PWR_CTL
  | PWR_STS
  | PWR_EST
  | PWR_OVER_CNT
  | PWR_GPIO
  | PWR_GPIOOE
  | PWR_TRAYRAIL
  | PWR_RAILSTS
  | PWR_GOV
  | PWR_LEVEL
  | PWR_EST_TOT
  | PWR_TEMP
  | CLK_STS
  | CLK_PGREF
  | TCL_STS
  | TCL_CMD
  | TCL_TXBUF
  | TCL_RXBUF
  | TCL_ERR_CNT
  | TCL_REJ_CNT
  | CTR_KNL
  | CTR_CORE
  | CTR_SREC
  | CTR_SLOST_CNT
  | CTR_SCTL
  deriving DecidableEq, Repr

/-- The access codes of R5. -/
inductive Access where
  | RO | RW | W1C | W1S | WO | RWL | MON | ROC
  deriving DecidableEq, Repr

/-- A register of an array is named by up to three indices; an index a register lacks is 0. -/
structure CsrRef where
  reg : Reg
  i : Nat := 0
  j : Nat := 0
  k : Nat := 0
  deriving DecidableEq, Repr

/-- One field of a register: its lowest bit, its width, its access code and its reset value. -/
structure Fld where
  reg : Reg
  lo : Nat
  w : Nat
  acc : Access
  reset : Nat
  deriving DecidableEq, Repr

/-- First address of the register in CSR space (R524, R525). -/
def Reg.base : Reg → Nat
  | .LNE_LSTS => 0x10000000
  | .LNE_EVT => 0x10001000
  | .LNE_PCTL => 0x10002000
  | .LNE_PSTS => 0x10003000
  | .LNE_PRBS => 0x10004000
  | .LNE_PRBS_ERR => 0x10005000
  | .LNE_FEC_CCW => 0x10007000
  | .LNE_FEC_UCW => 0x10009000
  | .LNE_FEC_HIST => 0x1000B000
  | .LNK_CTL => 0x10400000
  | .LNK_EVT => 0x10401000
  | .LNK_CRED => 0x10402000
  | .LNK_STS => 0x10403000
  | .LNK_SWEEP => 0x10404000
  | .LNK_SNAP => 0x10405000
  | .LNK_FARID => 0x10406000
  | .LNK_RETRY_CNT => 0x10407000
  | .LNK_BADFRM_CNT => 0x10408000
  | .LNK_RESET_CNT => 0x10409000
  | .LNK_CHKFAIL_CNT => 0x1040A000
  | .LNK_QUARDROP_CNT => 0x1040B000
  | .XBR_CTL => 0x10800000
  | .XBR_INCOL => 0x10801000
  | .XBR_STS => 0x10802000
  | .OUB_CLS => 0x10C00000
  | .OUB_WEIGHT => 0x10C01000
  | .OUB_MIRMATCH => 0x10C02000
  | .OUB_WRED => 0x10C03000
  | .OUB_WREDP => 0x10C04000
  | .OUB_MIRCTL => 0x10C05000
  | .OUB_DROP_CNT => 0x10C06000
  | .OUB_RXPKT_CNT => 0x10C0B000
  | .OUB_TXPKT_CNT => 0x10C0C000
  | .OUB_STALL_CNT => 0x10C0D000
  | .OUB_RXBYTE_CNT => 0x10C0E000
  | .OUB_TXBYTE_CNT => 0x10C0F000
  | .OUB_QDEPTH => 0x10C10000
  | .OUB_QMAX => 0x10C11000
  | .RTE_SELF => 0x11000000
  | .RTE_DIRP => 0x11001000
  | .RTE_RSET_PORTS => 0x11002000
  | .RTE_RSET_CTL => 0x11003000
  | .RTE_RSET_OWN => 0x11004000
  | .RTE_STS => 0x11005000
  | .RTE_LIFE => 0x11006000
  | .RTE_MCG => 0x11007000
  | .RTE_XTAB => 0x1100F000
  | .RTE_YTAB => 0x11010000
  | .RTE_WINOVF_CNT => 0x11011000
  | .RTE_CCTL => 0x11019000
  | .RTE_LOCAL => 0x1101A000
  | .RTE_WINSTS => 0x1101B000
  | .RTE_LOCDROP_CNT => 0x1101C000
  | .KNL_STS => 0x11400000
  | .KNL_CFG => 0x11404000
  | .CMD_QSTS => 0x11800000
  | .CMD_GSTS => 0x11810000
  | .POL_STS => 0x11C00000
  | .POL_MONRGN => 0x11C01000
  | .POL_TINV => 0x11C02000
  | .POL_CE_CNT => 0x11C03000
  | .POL_ECCLOG => 0x11C04000
  | .POL_UE_CNT => 0x11C05000
  | .POL_MIRFAIL_CNT => 0x11C06000
  | .POL_SLOT => 0x11C07000
  | .POL_MODE => 0x11C09000
  | .POL_SCRUB => 0x11C0A000
  | .RTV_GRP => 0x12000000
  | .RTV_STALE_CNT => 0x12020000
  | .RTV_RECHK_CNT => 0x12021000
  | .RTV_RESFAIL_CNT => 0x12022000
  | .RTV_CHKFAIL_CNT => 0x12023000
  | .RTV_LANES => 0x12024000
  | .RTV_CTL => 0x12025000
  | .RTV_QUOTA => 0x12026000
  | .RTV_TMO_CNT => 0x1202A000
  | .RTV_STS => 0x1202B000
  | .RTV_SEQTAB => 0x1202C000
  | .RTV_COLL_CNT => 0x1202D000
  | .CMP_CFG => 0x12400000
  | .CMP_CYC => 0x12401000
  | .CMP_FLT => 0x12402000
  | .CMP_FLTCYC => 0x12403000
  | .CMP_OWN => 0x12404000
  | .CMP_CSTS => 0x12405000
  | .CMP_SCRUB => 0x12406000
  | .DET_CTL => 0x12800000
  | .DET_TIME => 0x12801000
  | .DET_TSRC => 0x12802000
  | .DET_TSTS => 0x12803000
  | .DET_LINKDLY => 0x12804000
  | .DET_MISS_CNT => 0x12805000
  | .DET_SCSTS => 0x12806000
  | .DET_SCLOST_CNT => 0x1280A000
  | .SPG_SRC => 0x12C00000
  | .SPG_CMD => 0x12C01000
  | .SPG_STS => 0x12C02000
  | .SPG_POLICY => 0x12C03000
  | .SPG_FLOOR => 0x12C04000
  | .SPG_HIVER => 0x12C05000
  | .SPG_TF => 0x12C06000
  | .SPG_EPREJ_CNT => 0x12C07000
  | .SPG_OLDEPB_CNT => 0x12C08000
  | .SPG_VER => 0x12C09000
  | .FEA_OFFER => 0x13000000
  | .FEA_ACCEPT => 0x13001000
  | .FEA_LOCK => 0x13002000
  | .KLP_LCS => 0x13400000
  | .KLP_BOOTSTS => 0x13401000
  | .KLP_CTL => 0x13402000
  | .KLP_CERT => 0x13403000
  | .KLP_DBGSTS => 0x13404000
  | .KLP_SEQ => 0x13405000
  | .MON_LOCK => 0x13800000
  | .MON_LINKSEC => 0x13801000
  | .MON_LINKAUTH_CNT => 0x13802000
  | .TWN_DUP_CNT => 0x13C00000
  | .TWN_OLD_CNT => 0x13C01000
  | .TWN_FULL_CNT => 0x13C02000
  | .TWN_LCTL => 0x13C03000
  | .TWN_LSTS => 0x13C04000
  | .TWN_RSYNC => 0x13C05000
  | .TWN_RSYNC_VA => 0x13C06000
  | .TWN_TAKE_CNT => 0x13C07000
  | .HND_STS => 0x14000000
  | .HND_EVT_CNT => 0x14001000
  | .HND_PATH => 0x14002000
  | .HND_STICKY => 0x14003000
  | .HND_SEV => 0x14004000
  | .HND_FORCE => 0x14005000
  | .PWR_CTL => 0x14400000
  | .PWR_STS => 0x14401000
  | .PWR_EST => 0x14402000
  | .PWR_OVER_CNT => 0x14403000
  | .PWR_GPIO => 0x14404000
  | .PWR_GPIOOE => 0x14405000
  | .PWR_TRAYRAIL => 0x14406000
  | .PWR_RAILSTS => 0x14407000
  | .PWR_GOV => 0x14408000
  | .PWR_LEVEL => 0x14409000
  | .PWR_EST_TOT => 0x1440A000
  | .PWR_TEMP => 0x1440B000
  | .CLK_STS => 0x14800000
  | .CLK_PGREF => 0x14801000
  | .TCL_STS => 0x14C00000
  | .TCL_CMD => 0x14C01000
  | .TCL_TXBUF => 0x14C02000
  | .TCL_RXBUF => 0x14C03000
  | .TCL_ERR_CNT => 0x14C04000
  | .TCL_REJ_CNT => 0x14C05000
  | .CTR_KNL => 0x15000000
  | .CTR_CORE => 0x15080000
  | .CTR_SREC => 0x15081000
  | .CTR_SLOST_CNT => 0x15082000
  | .CTR_SCTL => 0x15083000

/-- The dimensions of the register array; the empty list for a single register. -/
def Reg.dims : Reg → List Nat
  | .LNE_LSTS => [576]
  | .LNE_EVT => [144]
  | .LNE_PCTL => [144]
  | .LNE_PSTS => [144]
  | .LNE_PRBS => [576]
  | .LNE_PRBS_ERR => [576]
  | .LNE_FEC_CCW => [576]
  | .LNE_FEC_UCW => [576]
  | .LNE_FEC_HIST => [144, 16]
  | .LNK_CTL => [144]
  | .LNK_EVT => [144]
  | .LNK_CRED => [144]
  | .LNK_STS => [144]
  | .LNK_SNAP => [144, 4]
  | .LNK_FARID => [144, 4]
  | .LNK_RETRY_CNT => [144]
  | .LNK_BADFRM_CNT => [144]
  | .LNK_RESET_CNT => [144]
  | .LNK_CHKFAIL_CNT => [144]
  | .LNK_QUARDROP_CNT => [144]
  | .XBR_INCOL => [144]
  | .OUB_CLS => [144]
  | .OUB_WEIGHT => [144]
  | .OUB_MIRMATCH => [8]
  | .OUB_WRED => [4, 8, 3]
  | .OUB_WREDP => [4, 8]
  | .OUB_MIRCTL => [8]
  | .OUB_DROP_CNT => [144, 16]
  | .OUB_RXPKT_CNT => [144]
  | .OUB_TXPKT_CNT => [144]
  | .OUB_STALL_CNT => [144]
  | .OUB_RXBYTE_CNT => [144]
  | .OUB_TXBYTE_CNT => [144]
  | .OUB_QDEPTH => [144, 4]
  | .OUB_QMAX => [144, 4]
  | .RTE_DIRP => [4]
  | .RTE_RSET_PORTS => [64, 5]
  | .RTE_RSET_CTL => [64]
  | .RTE_RSET_OWN => [64]
  | .RTE_MCG => [4096, 2]
  | .RTE_XTAB => [32]
  | .RTE_YTAB => [16]
  | .RTE_WINOVF_CNT => [4096]
  | .RTE_LOCAL => [128]
  | .KNL_STS => [4096]
  | .KNL_CFG => [4096]
  | .CMD_QSTS => [16384]
  | .POL_ECCLOG => [2]
  | .POL_SLOT => [1280]
  | .RTV_GRP => [8192, 4]
  | .RTV_QUOTA => [4096]
  | .CMP_FLT => [32]
  | .CMP_FLTCYC => [32]
  | .CMP_OWN => [32]
  | .CMP_CSTS => [32]
  | .DET_LINKDLY => [144]
  | .DET_SCSTS => [4096]
  | .DET_SCLOST_CNT => [4096]
  | .SPG_POLICY => [24]
  | .SPG_VER => [3]
  | .FEA_OFFER => [8]
  | .FEA_ACCEPT => [8]
  | .MON_LINKSEC => [144]
  | .MON_LINKAUTH_CNT => [144]
  | .HND_EVT_CNT => [7]
  | .HND_PATH => [32]
  | .HND_STICKY => [32]
  | .HND_SEV => [128]
  | .HND_FORCE => [32]
  | .PWR_EST => [13]
  | .PWR_TEMP => [40]
  | .CLK_PGREF => [2]
  | .TCL_TXBUF => [19]
  | .TCL_RXBUF => [19]
  | .CTR_KNL => [4096, 16]
  | .CTR_CORE => [32, 8]
  | .CTR_SCTL => [16]
  | _ => []

/-- A register is 64 bits wide when its layout reaches bit 63 (R525), else 32 (R11). -/
def Reg.wide : Reg → Bool
  | .LNE_PRBS_ERR => true
  | .LNE_FEC_CCW => true
  | .LNE_FEC_UCW => true
  | .LNE_FEC_HIST => true
  | .LNK_RETRY_CNT => true
  | .LNK_BADFRM_CNT => true
  | .LNK_RESET_CNT => true
  | .LNK_CHKFAIL_CNT => true
  | .LNK_QUARDROP_CNT => true
  | .OUB_DROP_CNT => true
  | .OUB_RXPKT_CNT => true
  | .OUB_TXPKT_CNT => true
  | .OUB_STALL_CNT => true
  | .OUB_RXBYTE_CNT => true
  | .OUB_TXBYTE_CNT => true
  | .RTE_WINOVF_CNT => true
  | .RTE_LOCDROP_CNT => true
  | .POL_CE_CNT => true
  | .POL_ECCLOG => true
  | .POL_UE_CNT => true
  | .POL_MIRFAIL_CNT => true
  | .RTV_STALE_CNT => true
  | .RTV_RECHK_CNT => true
  | .RTV_RESFAIL_CNT => true
  | .RTV_CHKFAIL_CNT => true
  | .RTV_TMO_CNT => true
  | .RTV_COLL_CNT => true
  | .CMP_CYC => true
  | .CMP_FLTCYC => true
  | .DET_TIME => true
  | .DET_MISS_CNT => true
  | .DET_SCLOST_CNT => true
  | .SPG_SRC => true
  | .SPG_TF => true
  | .SPG_EPREJ_CNT => true
  | .SPG_OLDEPB_CNT => true
  | .MON_LINKAUTH_CNT => true
  | .TWN_DUP_CNT => true
  | .TWN_OLD_CNT => true
  | .TWN_FULL_CNT => true
  | .TWN_TAKE_CNT => true
  | .HND_EVT_CNT => true
  | .PWR_OVER_CNT => true
  | .TCL_ERR_CNT => true
  | .TCL_REJ_CNT => true
  | .CTR_KNL => true
  | .CTR_CORE => true
  | .CTR_SREC => true
  | .CTR_SLOST_CNT => true
  | _ => false

namespace F

def LNE_LSTS_BITLOCK : Fld := ⟨.LNE_LSTS, 0, 1, .RO, 0⟩
def LNE_LSTS_MARKLOCK : Fld := ⟨.LNE_LSTS, 1, 1, .RO, 0⟩
def LNE_LSTS_SLEEP : Fld := ⟨.LNE_LSTS, 2, 1, .RO, 0⟩
def LNE_LSTS_EXCLUDED : Fld := ⟨.LNE_LSTS, 3, 1, .RO, 0⟩
def LNE_LSTS_POLINV : Fld := ⟨.LNE_LSTS, 4, 1, .RO, 0⟩
def LNE_LSTS_FARLANE : Fld := ⟨.LNE_LSTS, 5, 2, .RO, 0⟩
def LNE_LSTS_SKEW : Fld := ⟨.LNE_LSTS, 8, 7, .RO, 0⟩
def LNE_LSTS_LOSSES : Fld := ⟨.LNE_LSTS, 16, 3, .RO, 0⟩
def LNE_EVT_UP : Fld := ⟨.LNE_EVT, 0, 1, .W1C, 0⟩
def LNE_EVT_DOWN : Fld := ⟨.LNE_EVT, 1, 1, .W1C, 0⟩
def LNE_EVT_WDOWN : Fld := ⟨.LNE_EVT, 2, 1, .W1C, 0⟩
def LNE_EVT_WUP : Fld := ⟨.LNE_EVT, 3, 1, .W1C, 0⟩
def LNE_EVT_STEPFAIL : Fld := ⟨.LNE_EVT, 4, 1, .W1C, 0⟩
def LNE_EVT_FALLBACK : Fld := ⟨.LNE_EVT, 5, 1, .W1C, 0⟩
def LNE_EVT_DESKEW : Fld := ⟨.LNE_EVT, 6, 1, .W1C, 0⟩
def LNE_EVT_FLAP : Fld := ⟨.LNE_EVT, 7, 1, .W1C, 0⟩
def LNE_EVT_NOLINK : Fld := ⟨.LNE_EVT, 8, 1, .W1C, 0⟩
def LNE_PCTL_MODE : Fld := ⟨.LNE_PCTL, 0, 2, .RW, 0⟩
def LNE_PCTL_MAXRUNG : Fld := ⟨.LNE_PCTL, 2, 2, .RW, 3⟩
def LNE_PCTL_RETRAIN : Fld := ⟨.LNE_PCTL, 4, 1, .WO, 0⟩
def LNE_PCTL_CEILCLR : Fld := ⟨.LNE_PCTL, 5, 1, .WO, 0⟩
def LNE_PCTL_FLAPCLR : Fld := ⟨.LNE_PCTL, 6, 1, .WO, 0⟩
def LNE_PCTL_SLEEPREQ : Fld := ⟨.LNE_PCTL, 8, 4, .RW, 0⟩
def LNE_PSTS_STATE : Fld := ⟨.LNE_PSTS, 0, 4, .RO, 0⟩
def LNE_PSTS_RUNG : Fld := ⟨.LNE_PSTS, 4, 2, .RO, 0⟩
def LNE_PSTS_CEIL : Fld := ⟨.LNE_PSTS, 6, 2, .RO, 3⟩
def LNE_PSTS_WIDTH : Fld := ⟨.LNE_PSTS, 8, 3, .RO, 0⟩
def LNE_PSTS_PRECODE : Fld := ⟨.LNE_PSTS, 11, 1, .RO, 0⟩
def LNE_PSTS_LANEMAP : Fld := ⟨.LNE_PSTS, 12, 4, .RO, 0⟩
def LNE_PSTS_FARRUNGS : Fld := ⟨.LNE_PSTS, 16, 4, .RO, 0⟩
def LNE_PSTS_STEPFAILS : Fld := ⟨.LNE_PSTS, 20, 4, .RO, 0⟩
def LNE_PSTS_SLEEPING : Fld := ⟨.LNE_PSTS, 24, 4, .RO, 0⟩
def LNE_PRBS_TXEN : Fld := ⟨.LNE_PRBS, 0, 1, .RW, 0⟩
def LNE_PRBS_RXEN : Fld := ⟨.LNE_PRBS, 1, 1, .RW, 0⟩
def LNE_PRBS_SYNC : Fld := ⟨.LNE_PRBS, 2, 1, .RO, 0⟩
def LNE_PRBS_ERR_COUNT : Fld := ⟨.LNE_PRBS_ERR, 0, 48, .ROC, 0⟩
def LNE_FEC_CCW_COUNT : Fld := ⟨.LNE_FEC_CCW, 0, 48, .ROC, 0⟩
def LNE_FEC_UCW_COUNT : Fld := ⟨.LNE_FEC_UCW, 0, 48, .ROC, 0⟩
def LNE_FEC_HIST_COUNT : Fld := ⟨.LNE_FEC_HIST, 0, 48, .ROC, 0⟩
def LNK_CTL_RTO : Fld := ⟨.LNK_CTL, 0, 8, .RWL, 16⟩
def LNK_EVT_RETRY : Fld := ⟨.LNK_EVT, 0, 1, .W1C, 0⟩
def LNK_EVT_RESET : Fld := ⟨.LNK_EVT, 1, 1, .W1C, 0⟩
def LNK_EVT_PROTO : Fld := ⟨.LNK_EVT, 2, 1, .W1C, 0⟩
def LNK_EVT_QUAR : Fld := ⟨.LNK_EVT, 3, 1, .W1C, 0⟩
def LNK_EVT_IDCHG : Fld := ⟨.LNK_EVT, 4, 1, .W1C, 0⟩
def LNK_EVT_CHKFAIL : Fld := ⟨.LNK_EVT, 5, 1, .W1C, 0⟩
def LNK_CRED_VC0 : Fld := ⟨.LNK_CRED, 0, 4, .RWL, 2⟩
def LNK_CRED_VC1 : Fld := ⟨.LNK_CRED, 4, 4, .RWL, 1⟩
def LNK_CRED_VC2 : Fld := ⟨.LNK_CRED, 8, 4, .RWL, 2⟩
def LNK_CRED_VC3 : Fld := ⟨.LNK_CRED, 12, 4, .RWL, 1⟩
def LNK_CRED_VC4 : Fld := ⟨.LNK_CRED, 16, 4, .RWL, 6⟩
def LNK_CRED_VC5 : Fld := ⟨.LNK_CRED, 20, 4, .RWL, 2⟩
def LNK_CRED_VC6 : Fld := ⟨.LNK_CRED, 24, 4, .RWL, 1⟩
def LNK_CRED_VC7 : Fld := ⟨.LNK_CRED, 28, 4, .RWL, 1⟩
def LNK_STS_FRAMED : Fld := ⟨.LNK_STS, 0, 1, .RO, 0⟩
def LNK_STS_NAKWAIT : Fld := ⟨.LNK_STS, 1, 1, .RO, 0⟩
def LNK_STS_QUAR : Fld := ⟨.LNK_STS, 2, 1, .RO, 0⟩
def LNK_STS_DUP : Fld := ⟨.LNK_STS, 3, 1, .RO, 0⟩
def LNK_STS_RETRIES : Fld := ⟨.LNK_STS, 4, 4, .RO, 0⟩
def LNK_STS_TXSEQ : Fld := ⟨.LNK_STS, 8, 12, .RO, 0⟩
def LNK_STS_RXEXP : Fld := ⟨.LNK_STS, 20, 12, .RO, 0⟩
def LNK_SWEEP_START : Fld := ⟨.LNK_SWEEP, 0, 1, .WO, 0⟩
def LNK_SWEEP_ABORT : Fld := ⟨.LNK_SWEEP, 1, 1, .WO, 0⟩
def LNK_SWEEP_BUSY : Fld := ⟨.LNK_SWEEP, 2, 1, .RO, 0⟩
def LNK_SWEEP_DONE : Fld := ⟨.LNK_SWEEP, 3, 1, .W1C, 0⟩
def LNK_SWEEP_EVENTS : Fld := ⟨.LNK_SWEEP, 8, 8, .RO, 0⟩
def LNK_RETRY_CNT_COUNT : Fld := ⟨.LNK_RETRY_CNT, 0, 48, .ROC, 0⟩
def LNK_BADFRM_CNT_COUNT : Fld := ⟨.LNK_BADFRM_CNT, 0, 48, .ROC, 0⟩
def LNK_RESET_CNT_COUNT : Fld := ⟨.LNK_RESET_CNT, 0, 48, .ROC, 0⟩
def LNK_CHKFAIL_CNT_COUNT : Fld := ⟨.LNK_CHKFAIL_CNT, 0, 48, .ROC, 0⟩
def LNK_QUARDROP_CNT_COUNT : Fld := ⟨.LNK_QUARDROP_CNT, 0, 48, .ROC, 0⟩
def XBR_CTL_PLANEEN : Fld := ⟨.XBR_CTL, 0, 4, .RW, 15⟩
def XBR_CTL_ROUNDS : Fld := ⟨.XBR_CTL, 4, 2, .RW, 3⟩
def XBR_INCOL_FLOOR0 : Fld := ⟨.XBR_INCOL, 0, 2, .RO, 0⟩
def XBR_INCOL_FLOOR1 : Fld := ⟨.XBR_INCOL, 2, 2, .RO, 0⟩
def XBR_INCOL_FLOOR2 : Fld := ⟨.XBR_INCOL, 4, 2, .RO, 0⟩
def XBR_INCOL_FLOOR3 : Fld := ⟨.XBR_INCOL, 6, 2, .RO, 0⟩
def XBR_STS_PLANEUP : Fld := ⟨.XBR_STS, 0, 4, .RO, 15⟩
def XBR_STS_PLANEFLT : Fld := ⟨.XBR_STS, 4, 4, .RO, 0⟩
def XBR_STS_DRAIN : Fld := ⟨.XBR_STS, 8, 1, .RO, 0⟩
def OUB_CLS_CT : Fld := ⟨.OUB_CLS, 0, 4, .RO, 15⟩
def OUB_CLS_PRF0 : Fld := ⟨.OUB_CLS, 4, 3, .RO, 0⟩
def OUB_CLS_PRF1 : Fld := ⟨.OUB_CLS, 7, 3, .RO, 0⟩
def OUB_CLS_PRF2 : Fld := ⟨.OUB_CLS, 10, 3, .RO, 0⟩
def OUB_CLS_PRF3 : Fld := ⟨.OUB_CLS, 13, 3, .RO, 0⟩
def OUB_WEIGHT_W0 : Fld := ⟨.OUB_WEIGHT, 0, 8, .RO, 4⟩
def OUB_WEIGHT_W1 : Fld := ⟨.OUB_WEIGHT, 8, 8, .RO, 4⟩
def OUB_WEIGHT_W2 : Fld := ⟨.OUB_WEIGHT, 16, 8, .RO, 6⟩
def OUB_WEIGHT_W3 : Fld := ⟨.OUB_WEIGHT, 24, 8, .RO, 2⟩
def OUB_MIRMATCH_KTAG : Fld := ⟨.OUB_MIRMATCH, 0, 16, .MON, 0⟩
def OUB_MIRMATCH_OPC : Fld := ⟨.OUB_MIRMATCH, 16, 6, .MON, 0⟩
def OUB_MIRMATCH_KTAGEN : Fld := ⟨.OUB_MIRMATCH, 22, 1, .MON, 0⟩
def OUB_MIRMATCH_OPCEN : Fld := ⟨.OUB_MIRMATCH, 23, 1, .MON, 0⟩
def OUB_WRED_MIN : Fld := ⟨.OUB_WRED, 0, 12, .RO, 0⟩
def OUB_WRED_MAX : Fld := ⟨.OUB_WRED, 12, 12, .RO, 0⟩
def OUB_WRED_PMAX : Fld := ⟨.OUB_WRED, 24, 8, .RO, 0⟩
def OUB_WREDP_WEXP : Fld := ⟨.OUB_WREDP, 0, 4, .RO, 3⟩
def OUB_WREDP_MARK : Fld := ⟨.OUB_WREDP, 4, 12, .RO, 128⟩
def OUB_WREDP_ACT : Fld := ⟨.OUB_WREDP, 16, 3, .RO, 1⟩
def OUB_WREDP_QMAX : Fld := ⟨.OUB_WREDP, 19, 12, .RO, 4095⟩
def OUB_MIRCTL_EN : Fld := ⟨.OUB_MIRCTL, 0, 1, .MON, 0⟩
def OUB_MIRCTL_DIR : Fld := ⟨.OUB_MIRCTL, 1, 2, .MON, 0⟩
def OUB_MIRCTL_SPORT : Fld := ⟨.OUB_MIRCTL, 3, 8, .MON, 0⟩
def OUB_MIRCTL_APORT : Fld := ⟨.OUB_MIRCTL, 11, 8, .MON, 0⟩
def OUB_MIRCTL_TRUNC : Fld := ⟨.OUB_MIRCTL, 19, 1, .MON, 0⟩
def OUB_MIRCTL_FLOW : Fld := ⟨.OUB_MIRCTL, 20, 1, .MON, 0⟩
def OUB_MIRCTL_MIRMAX : Fld := ⟨.OUB_MIRCTL, 21, 11, .MON, 64⟩
def OUB_DROP_CNT_COUNT : Fld := ⟨.OUB_DROP_CNT, 0, 48, .ROC, 0⟩
def OUB_RXPKT_CNT_COUNT : Fld := ⟨.OUB_RXPKT_CNT, 0, 48, .ROC, 0⟩
def OUB_TXPKT_CNT_COUNT : Fld := ⟨.OUB_TXPKT_CNT, 0, 48, .ROC, 0⟩
def OUB_STALL_CNT_COUNT : Fld := ⟨.OUB_STALL_CNT, 0, 48, .ROC, 0⟩
def OUB_RXBYTE_CNT_COUNT : Fld := ⟨.OUB_RXBYTE_CNT, 0, 64, .ROC, 0⟩
def OUB_TXBYTE_CNT_COUNT : Fld := ⟨.OUB_TXBYTE_CNT, 0, 64, .ROC, 0⟩
def OUB_QDEPTH_CELLS : Fld := ⟨.OUB_QDEPTH, 0, 13, .RO, 0⟩
def OUB_QMAX_CELLS : Fld := ⟨.OUB_QMAX, 0, 13, .ROC, 0⟩
def RTE_SELF_SELF : Fld := ⟨.RTE_SELF, 0, 16, .RO, 65535⟩
def RTE_DIRP_FIRST : Fld := ⟨.RTE_DIRP, 0, 8, .RO, 0⟩
def RTE_DIRP_COUNT : Fld := ⟨.RTE_DIRP, 8, 5, .RO, 16⟩
def RTE_DIRP_DLINE : Fld := ⟨.RTE_DIRP, 13, 1, .RO, 0⟩
def RTE_RSET_PORTS_PORTS : Fld := ⟨.RTE_RSET_PORTS, 0, 32, .RO, 0⟩
def RTE_RSET_CTL_VCMASK : Fld := ⟨.RTE_RSET_CTL, 0, 8, .RO, 0⟩
def RTE_RSET_CTL_ADAPT : Fld := ⟨.RTE_RSET_CTL, 8, 1, .RO, 1⟩
def RTE_RSET_CTL_VALID : Fld := ⟨.RTE_RSET_CTL, 9, 1, .RO, 0⟩
def RTE_RSET_OWN_KTAG : Fld := ⟨.RTE_RSET_OWN, 0, 16, .MON, 0⟩
def RTE_RSET_OWN_VALID : Fld := ⟨.RTE_RSET_OWN, 16, 1, .MON, 0⟩
def RTE_STS_OVERLAP : Fld := ⟨.RTE_STS, 0, 1, .W1C, 0⟩
def RTE_LIFE_HOPMAX : Fld := ⟨.RTE_LIFE, 0, 6, .RO, 28⟩
def RTE_LIFE_THOP : Fld := ⟨.RTE_LIFE, 8, 8, .RO, 34⟩
def RTE_XTAB_DIR : Fld := ⟨.RTE_XTAB, 0, 2, .RO, 0⟩
def RTE_YTAB_DIR : Fld := ⟨.RTE_YTAB, 0, 2, .RO, 0⟩
def RTE_WINOVF_CNT_COUNT : Fld := ⟨.RTE_WINOVF_CNT, 0, 48, .ROC, 0⟩
def RTE_CCTL_CUT : Fld := ⟨.RTE_CCTL, 0, 4, .RW, 12⟩
def RTE_CCTL_GAP : Fld := ⟨.RTE_CCTL, 4, 6, .RW, 4⟩
def RTE_CCTL_INC : Fld := ⟨.RTE_CCTL, 10, 6, .RW, 8⟩
def RTE_CCTL_AI : Fld := ⟨.RTE_CCTL, 16, 8, .RW, 4⟩
def RTE_CCTL_FLOOR : Fld := ⟨.RTE_CCTL, 24, 8, .RW, 1⟩
def RTE_LOCAL_PORT : Fld := ⟨.RTE_LOCAL, 0, 8, .RO, 0⟩
def RTE_LOCAL_CNT : Fld := ⟨.RTE_LOCAL, 8, 4, .RO, 0⟩
def RTE_LOCAL_KIND : Fld := ⟨.RTE_LOCAL, 12, 2, .RO, 0⟩
def RTE_WINSTS_INUSE : Fld := ⟨.RTE_WINSTS, 0, 17, .RO, 0⟩
def RTE_WINSTS_OVFK : Fld := ⟨.RTE_WINSTS, 17, 13, .RO, 0⟩
def RTE_LOCDROP_CNT_COUNT : Fld := ⟨.RTE_LOCDROP_CNT, 0, 48, .ROC, 0⟩
def KNL_STS_STATE : Fld := ⟨.KNL_STS, 0, 3, .RO, 0⟩
def KNL_STS_NQ : Fld := ⟨.KNL_STS, 3, 5, .RO, 0⟩
def KNL_STS_CQFULL : Fld := ⟨.KNL_STS, 8, 1, .RO, 0⟩
def KNL_STS_FATAL : Fld := ⟨.KNL_STS, 9, 1, .RO, 0⟩
def KNL_CFG_KTAG : Fld := ⟨.KNL_CFG, 0, 16, .MON, 0⟩
def KNL_CFG_GEN : Fld := ⟨.KNL_CFG, 16, 4, .MON, 0⟩
def KNL_CFG_REPRO : Fld := ⟨.KNL_CFG, 20, 1, .MON, 0⟩
def CMD_QSTS_KENNEL : Fld := ⟨.CMD_QSTS, 0, 12, .RO, 0⟩
def CMD_QSTS_QIDX : Fld := ⟨.CMD_QSTS, 12, 4, .RO, 0⟩
def CMD_QSTS_VALID : Fld := ⟨.CMD_QSTS, 16, 1, .RO, 0⟩
def CMD_QSTS_WAITING : Fld := ⟨.CMD_QSTS, 17, 1, .RO, 0⟩
def CMD_QSTS_ISSUED : Fld := ⟨.CMD_QSTS, 18, 9, .RO, 0⟩
def CMD_QSTS_COLLWAIT : Fld := ⟨.CMD_QSTS, 27, 1, .RO, 0⟩
def CMD_GSTS_KENNELS : Fld := ⟨.CMD_GSTS, 0, 13, .RO, 0⟩
def CMD_GSTS_QUEUES : Fld := ⟨.CMD_GSTS, 13, 15, .RO, 0⟩
def CMD_GSTS_QUAR : Fld := ⟨.CMD_GSTS, 28, 1, .RO, 0⟩
def POL_STS_CUR : Fld := ⟨.POL_STS, 0, 1, .RO, 0⟩
def POL_STS_STKUP : Fld := ⟨.POL_STS, 1, 8, .RO, 255⟩
def POL_STS_TBLBAD : Fld := ⟨.POL_STS, 9, 1, .W1C, 0⟩
def POL_STS_SCRUBDONE : Fld := ⟨.POL_STS, 10, 1, .W1C, 0⟩
def POL_MONRGN_FIRST : Fld := ⟨.POL_MONRGN, 0, 18, .MON, 196608⟩
def POL_TINV_KENNEL : Fld := ⟨.POL_TINV, 0, 12, .MON, 0⟩
def POL_TINV_ALL : Fld := ⟨.POL_TINV, 12, 1, .MON, 0⟩
def POL_TINV_GO : Fld := ⟨.POL_TINV, 13, 1, .MON, 0⟩
def POL_TINV_DONE : Fld := ⟨.POL_TINV, 14, 1, .RO, 1⟩
def POL_CE_CNT_COUNT : Fld := ⟨.POL_CE_CNT, 0, 48, .ROC, 0⟩
def POL_ECCLOG_BLOCK : Fld := ⟨.POL_ECCLOG, 0, 33, .RO, 0⟩
def POL_ECCLOG_VALID : Fld := ⟨.POL_ECCLOG, 33, 1, .W1C, 0⟩
def POL_UE_CNT_COUNT : Fld := ⟨.POL_UE_CNT, 0, 48, .ROC, 0⟩
def POL_MIRFAIL_CNT_COUNT : Fld := ⟨.POL_MIRFAIL_CNT, 0, 48, .ROC, 0⟩
def POL_SLOT_KIND : Fld := ⟨.POL_SLOT, 0, 3, .RW, 0⟩
def POL_SLOT_DIR : Fld := ⟨.POL_SLOT, 3, 1, .RW, 0⟩
def POL_SLOT_CORE : Fld := ⟨.POL_SLOT, 4, 5, .RW, 0⟩
def POL_MODE_MODE : Fld := ⟨.POL_MODE, 0, 1, .RW, 0⟩
def POL_MODE_PEND : Fld := ⟨.POL_MODE, 1, 1, .RO, 0⟩
def POL_SCRUB_EN : Fld := ⟨.POL_SCRUB, 0, 1, .RW, 1⟩
def POL_SCRUB_PASSES : Fld := ⟨.POL_SCRUB, 8, 24, .RO, 0⟩
def RTV_STALE_CNT_COUNT : Fld := ⟨.RTV_STALE_CNT, 0, 48, .ROC, 0⟩
def RTV_RECHK_CNT_COUNT : Fld := ⟨.RTV_RECHK_CNT, 0, 48, .ROC, 0⟩
def RTV_RESFAIL_CNT_COUNT : Fld := ⟨.RTV_RESFAIL_CNT, 0, 48, .ROC, 0⟩
def RTV_CHKFAIL_CNT_COUNT : Fld := ⟨.RTV_CHKFAIL_CNT, 0, 48, .ROC, 0⟩
def RTV_LANES_UP : Fld := ⟨.RTV_LANES, 0, 16, .RO, 65535⟩
def RTV_LANES_TESTING : Fld := ⟨.RTV_LANES, 16, 1, .RO, 0⟩
def RTV_CTL_TMODEF : Fld := ⟨.RTV_CTL, 0, 16, .RW, 100⟩
def RTV_CTL_WIN : Fld := ⟨.RTV_CTL, 16, 2, .RW, 1⟩
def RTV_QUOTA_QUOTA : Fld := ⟨.RTV_QUOTA, 0, 9, .MON, 256⟩
def RTV_TMO_CNT_COUNT : Fld := ⟨.RTV_TMO_CNT, 0, 48, .ROC, 0⟩
def RTV_STS_INFLIGHT : Fld := ⟨.RTV_STS, 0, 11, .RO, 0⟩
def RTV_STS_FREE : Fld := ⟨.RTV_STS, 11, 11, .RO, 1024⟩
def RTV_SEQTAB_USED : Fld := ⟨.RTV_SEQTAB, 0, 15, .RO, 0⟩
def RTV_COLL_CNT_COUNT : Fld := ⟨.RTV_COLL_CNT, 0, 48, .ROC, 0⟩
def CMP_CFG_CORES : Fld := ⟨.CMP_CFG, 0, 32, .RO, 0⟩
def CMP_CYC_COUNT : Fld := ⟨.CMP_CYC, 0, 64, .RO, 0⟩
def CMP_FLT_CAUSE : Fld := ⟨.CMP_FLT, 0, 4, .RO, 0⟩
def CMP_FLT_BUNDLE : Fld := ⟨.CMP_FLT, 4, 14, .RO, 0⟩
def CMP_FLTCYC_CYCLE : Fld := ⟨.CMP_FLTCYC, 0, 64, .RO, 0⟩
def CMP_OWN_KENNEL : Fld := ⟨.CMP_OWN, 0, 12, .MON, 0⟩
def CMP_OWN_VALID : Fld := ⟨.CMP_OWN, 12, 1, .MON, 0⟩
def CMP_CSTS_STATE : Fld := ⟨.CMP_CSTS, 0, 3, .RO, 0⟩
def CMP_CSTS_LIDX : Fld := ⟨.CMP_CSTS, 3, 5, .RO, 0⟩
def CMP_CSTS_NCORE : Fld := ⟨.CMP_CSTS, 8, 6, .RO, 0⟩
def CMP_CSTS_STATIC : Fld := ⟨.CMP_CSTS, 14, 1, .RO, 0⟩
def CMP_CSTS_FILLER : Fld := ⟨.CMP_CSTS, 15, 1, .RO, 0⟩
def CMP_CSTS_WAITING : Fld := ⟨.CMP_CSTS, 16, 1, .RO, 0⟩
def CMP_SCRUB_BUSY : Fld := ⟨.CMP_SCRUB, 0, 32, .RO, 0⟩
def DET_CTL_NOADAPT : Fld := ⟨.DET_CTL, 0, 1, .RW, 0⟩
def DET_CTL_NOFAST : Fld := ⟨.DET_CTL, 1, 1, .RW, 0⟩
def DET_CTL_ALIGN : Fld := ⟨.DET_CTL, 2, 1, .WO, 0⟩
def DET_TIME_TIME : Fld := ⟨.DET_TIME, 0, 64, .RO, 0⟩
def DET_TSRC_PORT : Fld := ⟨.DET_TSRC, 0, 8, .RW, 255⟩
def DET_TSRC_ROOT : Fld := ⟨.DET_TSRC, 8, 1, .RW, 0⟩
def DET_TSTS_LOCKED : Fld := ⟨.DET_TSTS, 0, 1, .RO, 0⟩
def DET_TSTS_HOLDOVER : Fld := ⟨.DET_TSTS, 1, 1, .RO, 0⟩
def DET_TSTS_STEPPED : Fld := ⟨.DET_TSTS, 2, 1, .W1C, 0⟩
def DET_TSTS_ALIGNED : Fld := ⟨.DET_TSTS, 3, 1, .RO, 0⟩
def DET_TSTS_OFFSET : Fld := ⟨.DET_TSTS, 16, 16, .RO, 0⟩
def DET_LINKDLY_DELAY : Fld := ⟨.DET_LINKDLY, 0, 24, .RO, 0⟩
def DET_LINKDLY_VALID : Fld := ⟨.DET_LINKDLY, 24, 1, .RO, 0⟩
def DET_MISS_CNT_COUNT : Fld := ⟨.DET_MISS_CNT, 0, 48, .ROC, 0⟩
def DET_SCSTS_MODE : Fld := ⟨.DET_SCSTS, 0, 2, .RO, 0⟩
def DET_SCSTS_FULL : Fld := ⟨.DET_SCSTS, 2, 1, .RO, 0⟩
def DET_SCLOST_CNT_COUNT : Fld := ⟨.DET_SCLOST_CNT, 0, 48, .ROC, 0⟩
def SPG_SRC_ADDR : Fld := ⟨.SPG_SRC, 0, 32, .RW, 0⟩
def SPG_SRC_LEN : Fld := ⟨.SPG_SRC, 32, 32, .RW, 0⟩
def SPG_CMD_OP : Fld := ⟨.SPG_CMD, 0, 2, .WO, 0⟩
def SPG_STS_EPB : Fld := ⟨.SPG_STS, 0, 1, .RO, 0⟩
def SPG_STS_STAGED : Fld := ⟨.SPG_STS, 1, 1, .RO, 0⟩
def SPG_STS_RBOK : Fld := ⟨.SPG_STS, 2, 1, .RO, 0⟩
def SPG_STS_ARMED : Fld := ⟨.SPG_STS, 3, 1, .RO, 0⟩
def SPG_STS_DRAIN : Fld := ⟨.SPG_STS, 4, 1, .RO, 0⟩
def SPG_STS_BUSY : Fld := ⟨.SPG_STS, 5, 1, .W1C, 0⟩
def SPG_STS_EMPTY : Fld := ⟨.SPG_STS, 6, 1, .W1C, 0⟩
def SPG_STS_TFLATE : Fld := ⟨.SPG_STS, 7, 1, .W1C, 0⟩
def SPG_STS_EPMIS : Fld := ⟨.SPG_STS, 8, 1, .W1C, 0⟩
def SPG_STS_STAGING : Fld := ⟨.SPG_STS, 9, 1, .RO, 0⟩
def SPG_STS_VERR : Fld := ⟨.SPG_STS, 16, 8, .RO, 0⟩
def SPG_POLICY_HASH : Fld := ⟨.SPG_POLICY, 0, 32, .MON, 0⟩
def SPG_FLOOR_VERSION : Fld := ⟨.SPG_FLOOR, 0, 32, .MON, 0⟩
def SPG_HIVER_VERSION : Fld := ⟨.SPG_HIVER, 0, 32, .RO, 0⟩
def SPG_TF_TF : Fld := ⟨.SPG_TF, 0, 64, .RW, 0⟩
def SPG_EPREJ_CNT_COUNT : Fld := ⟨.SPG_EPREJ_CNT, 0, 48, .ROC, 0⟩
def SPG_OLDEPB_CNT_COUNT : Fld := ⟨.SPG_OLDEPB_CNT, 0, 48, .ROC, 0⟩
def SPG_VER_VERSION : Fld := ⟨.SPG_VER, 0, 32, .RO, 0⟩
def FEA_OFFER_BITS : Fld := ⟨.FEA_OFFER, 0, 32, .RO, 0⟩
def FEA_ACCEPT_BITS : Fld := ⟨.FEA_ACCEPT, 0, 32, .RW, 0⟩
def FEA_LOCK_LOCK : Fld := ⟨.FEA_LOCK, 0, 1, .W1S, 0⟩
def KLP_LCS_STATE : Fld := ⟨.KLP_LCS, 0, 3, .RO, 0⟩
def KLP_LCS_PENDING : Fld := ⟨.KLP_LCS, 3, 1, .RO, 0⟩
def KLP_BOOTSTS_SLOT : Fld := ⟨.KLP_BOOTSTS, 0, 1, .RO, 0⟩
def KLP_BOOTSTS_WARM : Fld := ⟨.KLP_BOOTSTS, 1, 1, .RO, 0⟩
def KLP_BOOTSTS_CODE : Fld := ⟨.KLP_BOOTSTS, 2, 4, .RO, 0⟩
def KLP_CTL_RESTART : Fld := ⟨.KLP_CTL, 0, 1, .WO, 0⟩
def KLP_CERT_CERTIFIED : Fld := ⟨.KLP_CERT, 0, 1, .RO, 0⟩
def KLP_DBGSTS_UNLOCKED : Fld := ⟨.KLP_DBGSTS, 0, 1, .RO, 0⟩
def KLP_DBGSTS_SCOPE : Fld := ⟨.KLP_DBGSTS, 1, 1, .RO, 0⟩
def KLP_DBGSTS_EVER : Fld := ⟨.KLP_DBGSTS, 2, 1, .RO, 0⟩
def KLP_SEQ_OPEN : Fld := ⟨.KLP_SEQ, 0, 1, .W1S, 0⟩
def KLP_SEQ_GO : Fld := ⟨.KLP_SEQ, 1, 1, .WO, 0⟩
def KLP_SEQ_ABORT : Fld := ⟨.KLP_SEQ, 2, 1, .W1C, 0⟩
def KLP_SEQ_BUSY : Fld := ⟨.KLP_SEQ, 3, 1, .W1C, 0⟩
def MON_LOCK_LOCKED : Fld := ⟨.MON_LOCK, 0, 1, .MON, 0⟩
def MON_LOCK_SIZE : Fld := ⟨.MON_LOCK, 8, 8, .MON, 0⟩
def MON_LINKSEC_EN : Fld := ⟨.MON_LINKSEC, 0, 1, .MON, 0⟩
def MON_LINKSEC_STATE : Fld := ⟨.MON_LINKSEC, 1, 2, .RO, 0⟩
def MON_LINKAUTH_CNT_COUNT : Fld := ⟨.MON_LINKAUTH_CNT, 0, 48, .ROC, 0⟩
def TWN_DUP_CNT_COUNT : Fld := ⟨.TWN_DUP_CNT, 0, 48, .ROC, 0⟩
def TWN_OLD_CNT_COUNT : Fld := ⟨.TWN_OLD_CNT, 0, 48, .ROC, 0⟩
def TWN_FULL_CNT_COUNT : Fld := ⟨.TWN_FULL_CNT, 0, 48, .ROC, 0⟩
def TWN_LCTL_MODE : Fld := ⟨.TWN_LCTL, 0, 1, .RWL, 0⟩
def TWN_LCTL_YIELD : Fld := ⟨.TWN_LCTL, 1, 1, .WO, 0⟩
def TWN_LCTL_ENABLE : Fld := ⟨.TWN_LCTL, 2, 1, .RW, 1⟩
def TWN_LSTS_HOLDER : Fld := ⟨.TWN_LSTS, 0, 1, .RO, 0⟩
def TWN_LSTS_POSA : Fld := ⟨.TWN_LSTS, 1, 1, .RO, 0⟩
def TWN_LSTS_MATESEEN : Fld := ⟨.TWN_LSTS, 2, 1, .RO, 0⟩
def TWN_LSTS_LOST : Fld := ⟨.TWN_LSTS, 3, 1, .W1C, 0⟩
def TWN_LSTS_MODEMIS : Fld := ⟨.TWN_LSTS, 4, 1, .W1C, 0⟩
def TWN_LSTS_SPGSTALE : Fld := ⟨.TWN_LSTS, 5, 1, .RO, 0⟩
def TWN_LSTS_YIELDFAIL : Fld := ⟨.TWN_LSTS, 6, 1, .W1C, 0⟩
def TWN_LSTS_TOOK : Fld := ⟨.TWN_LSTS, 7, 1, .W1C, 0⟩
def TWN_LSTS_CLAIM : Fld := ⟨.TWN_LSTS, 16, 16, .RO, 0⟩
def TWN_RSYNC_KENNEL : Fld := ⟨.TWN_RSYNC, 0, 12, .RW, 0⟩
def TWN_RSYNC_GO : Fld := ⟨.TWN_RSYNC, 12, 1, .WO, 0⟩
def TWN_RSYNC_BUSY : Fld := ⟨.TWN_RSYNC, 13, 1, .RO, 0⟩
def TWN_RSYNC_DONE : Fld := ⟨.TWN_RSYNC, 14, 1, .W1C, 0⟩
def TWN_RSYNC_FAIL : Fld := ⟨.TWN_RSYNC, 15, 1, .W1C, 0⟩
def TWN_RSYNC_VA_PAGE : Fld := ⟨.TWN_RSYNC_VA, 0, 25, .RW, 0⟩
def TWN_TAKE_CNT_COUNT : Fld := ⟨.TWN_TAKE_CNT, 0, 48, .ROC, 0⟩
def HND_STS_PEND : Fld := ⟨.HND_STS, 0, 1, .RO, 0⟩
def HND_STS_DEGRADED : Fld := ⟨.HND_STS, 1, 1, .RO, 0⟩
def HND_STS_FATAL : Fld := ⟨.HND_STS, 2, 1, .RO, 0⟩
def HND_STS_SEALED : Fld := ⟨.HND_STS, 3, 1, .RO, 0⟩
def HND_STS_PARITY : Fld := ⟨.HND_STS, 4, 1, .RO, 0⟩
def HND_STS_DIEOUT : Fld := ⟨.HND_STS, 5, 1, .RO, 0⟩
def HND_STS_HIGHEST : Fld := ⟨.HND_STS, 6, 3, .RO, 0⟩
def HND_EVT_CNT_COUNT : Fld := ⟨.HND_EVT_CNT, 0, 48, .ROC, 0⟩
def HND_PATH_PATH : Fld := ⟨.HND_PATH, 0, 32, .W1C, 0⟩
def HND_STICKY_STICKY : Fld := ⟨.HND_STICKY, 0, 32, .W1C, 0⟩
def HND_SEV_SEV0 : Fld := ⟨.HND_SEV, 0, 3, .MON, 0⟩
def HND_SEV_SEV1 : Fld := ⟨.HND_SEV, 4, 3, .MON, 0⟩
def HND_SEV_SEV2 : Fld := ⟨.HND_SEV, 8, 3, .MON, 0⟩
def HND_SEV_SEV3 : Fld := ⟨.HND_SEV, 12, 3, .MON, 0⟩
def HND_SEV_SEV4 : Fld := ⟨.HND_SEV, 16, 3, .MON, 0⟩
def HND_SEV_SEV5 : Fld := ⟨.HND_SEV, 20, 3, .MON, 0⟩
def HND_SEV_SEV6 : Fld := ⟨.HND_SEV, 24, 3, .MON, 0⟩
def HND_SEV_SEV7 : Fld := ⟨.HND_SEV, 28, 3, .MON, 0⟩
def HND_FORCE_FORCE : Fld := ⟨.HND_FORCE, 0, 32, .MON, 0⟩
def PWR_CTL_UP : Fld := ⟨.PWR_CTL, 0, 1, .WO, 0⟩
def PWR_CTL_DOWN : Fld := ⟨.PWR_CTL, 1, 1, .WO, 0⟩
def PWR_STS_STATE : Fld := ⟨.PWR_STS, 0, 3, .RO, 0⟩
def PWR_STS_SUPPLY : Fld := ⟨.PWR_STS, 3, 1, .RO, 0⟩
def PWR_STS_EPO : Fld := ⟨.PWR_STS, 4, 1, .RO, 0⟩
def PWR_STS_OVER : Fld := ⟨.PWR_STS, 5, 1, .W1C, 0⟩
def PWR_STS_THROT : Fld := ⟨.PWR_STS, 6, 1, .RO, 0⟩
def PWR_STS_UPREF : Fld := ⟨.PWR_STS, 7, 1, .W1C, 0⟩
def PWR_EST_POWER : Fld := ⟨.PWR_EST, 0, 16, .RO, 0⟩
def PWR_EST_VALID : Fld := ⟨.PWR_EST, 16, 1, .RO, 0⟩
def PWR_OVER_CNT_COUNT : Fld := ⟨.PWR_OVER_CNT, 0, 48, .ROC, 0⟩
def PWR_GPIO_VAL : Fld := ⟨.PWR_GPIO, 0, 32, .RW, 0⟩
def PWR_GPIOOE_OE : Fld := ⟨.PWR_GPIOOE, 0, 32, .RW, 0⟩
def PWR_TRAYRAIL_EN : Fld := ⟨.PWR_TRAYRAIL, 0, 16, .RW, 0⟩
def PWR_RAILSTS_GOOD : Fld := ⟨.PWR_RAILSTS, 0, 13, .RO, 0⟩
def PWR_RAILSTS_FAULT : Fld := ⟨.PWR_RAILSTS, 16, 13, .RO, 0⟩
def PWR_GOV_RATE : Fld := ⟨.PWR_GOV, 0, 10, .RO, 50⟩
def PWR_GOV_UNIT : Fld := ⟨.PWR_GOV, 10, 10, .RO, 340⟩
def PWR_GOV_HOLD : Fld := ⟨.PWR_GOV, 20, 10, .RO, 10⟩
def PWR_LEVEL_LEVEL : Fld := ⟨.PWR_LEVEL, 0, 12, .RO, 0⟩
def PWR_LEVEL_GOAL : Fld := ⟨.PWR_LEVEL, 12, 12, .RO, 0⟩
def PWR_EST_TOT_POWER : Fld := ⟨.PWR_EST_TOT, 0, 16, .RO, 0⟩
def PWR_EST_TOT_VALID : Fld := ⟨.PWR_EST_TOT, 16, 1, .RO, 0⟩
def PWR_TEMP_TEMP : Fld := ⟨.PWR_TEMP, 0, 10, .RO, 0⟩
def PWR_TEMP_VALID : Fld := ⟨.PWR_TEMP, 10, 1, .RO, 0⟩
def CLK_STS_SYSREF : Fld := ⟨.CLK_STS, 0, 1, .RO, 0⟩
def CLK_STS_LOCK : Fld := ⟨.CLK_STS, 1, 4, .RO, 0⟩
def CLK_STS_HBMPT : Fld := ⟨.CLK_STS, 5, 2, .RO, 0⟩
def CLK_STS_KLPPT : Fld := ⟨.CLK_STS, 7, 1, .RO, 0⟩
def CLK_PGREF_REF : Fld := ⟨.CLK_PGREF, 0, 32, .RO, 0⟩
def TCL_STS_BUSY : Fld := ⟨.TCL_STS, 0, 1, .RO, 0⟩
def TCL_STS_DONE : Fld := ⟨.TCL_STS, 1, 1, .W1C, 0⟩
def TCL_STS_TMO : Fld := ⟨.TCL_STS, 2, 1, .W1C, 0⟩
def TCL_STS_REJ : Fld := ⟨.TCL_STS, 3, 1, .W1C, 0⟩
def TCL_STS_COLL : Fld := ⟨.TCL_STS, 4, 1, .W1C, 0⟩
def TCL_CMD_GO : Fld := ⟨.TCL_CMD, 0, 1, .WO, 0⟩
def TCL_CMD_BYTES : Fld := ⟨.TCL_CMD, 8, 7, .RW, 0⟩
def TCL_TXBUF_WORD : Fld := ⟨.TCL_TXBUF, 0, 32, .RW, 0⟩
def TCL_RXBUF_WORD : Fld := ⟨.TCL_RXBUF, 0, 32, .RO, 0⟩
def TCL_ERR_CNT_COUNT : Fld := ⟨.TCL_ERR_CNT, 0, 48, .ROC, 0⟩
def TCL_REJ_CNT_COUNT : Fld := ⟨.TCL_REJ_CNT, 0, 48, .ROC, 0⟩
def CTR_KNL_COUNT : Fld := ⟨.CTR_KNL, 0, 48, .ROC, 0⟩
def CTR_CORE_COUNT : Fld := ⟨.CTR_CORE, 0, 48, .ROC, 0⟩
def CTR_SREC_SESSION : Fld := ⟨.CTR_SREC, 0, 4, .ROC, 0⟩
def CTR_SREC_VALID : Fld := ⟨.CTR_SREC, 4, 1, .ROC, 0⟩
def CTR_SREC_KENNEL : Fld := ⟨.CTR_SREC, 5, 12, .ROC, 0⟩
def CTR_SREC_BUNDLE : Fld := ⟨.CTR_SREC, 17, 14, .ROC, 0⟩
def CTR_SREC_CYCLE : Fld := ⟨.CTR_SREC, 32, 32, .ROC, 0⟩
def CTR_SLOST_CNT_COUNT : Fld := ⟨.CTR_SLOST_CNT, 0, 48, .ROC, 0⟩
def CTR_SCTL_EN : Fld := ⟨.CTR_SCTL, 0, 1, .MON, 0⟩
def CTR_SCTL_WIDTH : Fld := ⟨.CTR_SCTL, 1, 6, .MON, 8⟩
def CTR_SCTL_SEL : Fld := ⟨.CTR_SCTL, 8, 24, .MON, 0⟩

end F

/-- The fields of a register, lowest first; every other bit is reserved and reads 0 (R6). -/
def Reg.fields : Reg → List Fld
  | .LNE_LSTS => [F.LNE_LSTS_BITLOCK, F.LNE_LSTS_MARKLOCK, F.LNE_LSTS_SLEEP, F.LNE_LSTS_EXCLUDED, F.LNE_LSTS_POLINV, F.LNE_LSTS_FARLANE, F.LNE_LSTS_SKEW, F.LNE_LSTS_LOSSES]
  | .LNE_EVT => [F.LNE_EVT_UP, F.LNE_EVT_DOWN, F.LNE_EVT_WDOWN, F.LNE_EVT_WUP, F.LNE_EVT_STEPFAIL, F.LNE_EVT_FALLBACK, F.LNE_EVT_DESKEW, F.LNE_EVT_FLAP, F.LNE_EVT_NOLINK]
  | .LNE_PCTL => [F.LNE_PCTL_MODE, F.LNE_PCTL_MAXRUNG, F.LNE_PCTL_RETRAIN, F.LNE_PCTL_CEILCLR, F.LNE_PCTL_FLAPCLR, F.LNE_PCTL_SLEEPREQ]
  | .LNE_PSTS => [F.LNE_PSTS_STATE, F.LNE_PSTS_RUNG, F.LNE_PSTS_CEIL, F.LNE_PSTS_WIDTH, F.LNE_PSTS_PRECODE, F.LNE_PSTS_LANEMAP, F.LNE_PSTS_FARRUNGS, F.LNE_PSTS_STEPFAILS, F.LNE_PSTS_SLEEPING]
  | .LNE_PRBS => [F.LNE_PRBS_TXEN, F.LNE_PRBS_RXEN, F.LNE_PRBS_SYNC]
  | .LNE_PRBS_ERR => [F.LNE_PRBS_ERR_COUNT]
  | .LNE_FEC_CCW => [F.LNE_FEC_CCW_COUNT]
  | .LNE_FEC_UCW => [F.LNE_FEC_UCW_COUNT]
  | .LNE_FEC_HIST => [F.LNE_FEC_HIST_COUNT]
  | .LNK_CTL => [F.LNK_CTL_RTO]
  | .LNK_EVT => [F.LNK_EVT_RETRY, F.LNK_EVT_RESET, F.LNK_EVT_PROTO, F.LNK_EVT_QUAR, F.LNK_EVT_IDCHG, F.LNK_EVT_CHKFAIL]
  | .LNK_CRED => [F.LNK_CRED_VC0, F.LNK_CRED_VC1, F.LNK_CRED_VC2, F.LNK_CRED_VC3, F.LNK_CRED_VC4, F.LNK_CRED_VC5, F.LNK_CRED_VC6, F.LNK_CRED_VC7]
  | .LNK_STS => [F.LNK_STS_FRAMED, F.LNK_STS_NAKWAIT, F.LNK_STS_QUAR, F.LNK_STS_DUP, F.LNK_STS_RETRIES, F.LNK_STS_TXSEQ, F.LNK_STS_RXEXP]
  | .LNK_SWEEP => [F.LNK_SWEEP_START, F.LNK_SWEEP_ABORT, F.LNK_SWEEP_BUSY, F.LNK_SWEEP_DONE, F.LNK_SWEEP_EVENTS]
  | .LNK_RETRY_CNT => [F.LNK_RETRY_CNT_COUNT]
  | .LNK_BADFRM_CNT => [F.LNK_BADFRM_CNT_COUNT]
  | .LNK_RESET_CNT => [F.LNK_RESET_CNT_COUNT]
  | .LNK_CHKFAIL_CNT => [F.LNK_CHKFAIL_CNT_COUNT]
  | .LNK_QUARDROP_CNT => [F.LNK_QUARDROP_CNT_COUNT]
  | .XBR_CTL => [F.XBR_CTL_PLANEEN, F.XBR_CTL_ROUNDS]
  | .XBR_INCOL => [F.XBR_INCOL_FLOOR0, F.XBR_INCOL_FLOOR1, F.XBR_INCOL_FLOOR2, F.XBR_INCOL_FLOOR3]
  | .XBR_STS => [F.XBR_STS_PLANEUP, F.XBR_STS_PLANEFLT, F.XBR_STS_DRAIN]
  | .OUB_CLS => [F.OUB_CLS_CT, F.OUB_CLS_PRF0, F.OUB_CLS_PRF1, F.OUB_CLS_PRF2, F.OUB_CLS_PRF3]
  | .OUB_WEIGHT => [F.OUB_WEIGHT_W0, F.OUB_WEIGHT_W1, F.OUB_WEIGHT_W2, F.OUB_WEIGHT_W3]
  | .OUB_MIRMATCH => [F.OUB_MIRMATCH_KTAG, F.OUB_MIRMATCH_OPC, F.OUB_MIRMATCH_KTAGEN, F.OUB_MIRMATCH_OPCEN]
  | .OUB_WRED => [F.OUB_WRED_MIN, F.OUB_WRED_MAX, F.OUB_WRED_PMAX]
  | .OUB_WREDP => [F.OUB_WREDP_WEXP, F.OUB_WREDP_MARK, F.OUB_WREDP_ACT, F.OUB_WREDP_QMAX]
  | .OUB_MIRCTL => [F.OUB_MIRCTL_EN, F.OUB_MIRCTL_DIR, F.OUB_MIRCTL_SPORT, F.OUB_MIRCTL_APORT, F.OUB_MIRCTL_TRUNC, F.OUB_MIRCTL_FLOW, F.OUB_MIRCTL_MIRMAX]
  | .OUB_DROP_CNT => [F.OUB_DROP_CNT_COUNT]
  | .OUB_RXPKT_CNT => [F.OUB_RXPKT_CNT_COUNT]
  | .OUB_TXPKT_CNT => [F.OUB_TXPKT_CNT_COUNT]
  | .OUB_STALL_CNT => [F.OUB_STALL_CNT_COUNT]
  | .OUB_RXBYTE_CNT => [F.OUB_RXBYTE_CNT_COUNT]
  | .OUB_TXBYTE_CNT => [F.OUB_TXBYTE_CNT_COUNT]
  | .OUB_QDEPTH => [F.OUB_QDEPTH_CELLS]
  | .OUB_QMAX => [F.OUB_QMAX_CELLS]
  | .RTE_SELF => [F.RTE_SELF_SELF]
  | .RTE_DIRP => [F.RTE_DIRP_FIRST, F.RTE_DIRP_COUNT, F.RTE_DIRP_DLINE]
  | .RTE_RSET_PORTS => [F.RTE_RSET_PORTS_PORTS]
  | .RTE_RSET_CTL => [F.RTE_RSET_CTL_VCMASK, F.RTE_RSET_CTL_ADAPT, F.RTE_RSET_CTL_VALID]
  | .RTE_RSET_OWN => [F.RTE_RSET_OWN_KTAG, F.RTE_RSET_OWN_VALID]
  | .RTE_STS => [F.RTE_STS_OVERLAP]
  | .RTE_LIFE => [F.RTE_LIFE_HOPMAX, F.RTE_LIFE_THOP]
  | .RTE_XTAB => [F.RTE_XTAB_DIR]
  | .RTE_YTAB => [F.RTE_YTAB_DIR]
  | .RTE_WINOVF_CNT => [F.RTE_WINOVF_CNT_COUNT]
  | .RTE_CCTL => [F.RTE_CCTL_CUT, F.RTE_CCTL_GAP, F.RTE_CCTL_INC, F.RTE_CCTL_AI, F.RTE_CCTL_FLOOR]
  | .RTE_LOCAL => [F.RTE_LOCAL_PORT, F.RTE_LOCAL_CNT, F.RTE_LOCAL_KIND]
  | .RTE_WINSTS => [F.RTE_WINSTS_INUSE, F.RTE_WINSTS_OVFK]
  | .RTE_LOCDROP_CNT => [F.RTE_LOCDROP_CNT_COUNT]
  | .KNL_STS => [F.KNL_STS_STATE, F.KNL_STS_NQ, F.KNL_STS_CQFULL, F.KNL_STS_FATAL]
  | .KNL_CFG => [F.KNL_CFG_KTAG, F.KNL_CFG_GEN, F.KNL_CFG_REPRO]
  | .CMD_QSTS => [F.CMD_QSTS_KENNEL, F.CMD_QSTS_QIDX, F.CMD_QSTS_VALID, F.CMD_QSTS_WAITING, F.CMD_QSTS_ISSUED, F.CMD_QSTS_COLLWAIT]
  | .CMD_GSTS => [F.CMD_GSTS_KENNELS, F.CMD_GSTS_QUEUES, F.CMD_GSTS_QUAR]
  | .POL_STS => [F.POL_STS_CUR, F.POL_STS_STKUP, F.POL_STS_TBLBAD, F.POL_STS_SCRUBDONE]
  | .POL_MONRGN => [F.POL_MONRGN_FIRST]
  | .POL_TINV => [F.POL_TINV_KENNEL, F.POL_TINV_ALL, F.POL_TINV_GO, F.POL_TINV_DONE]
  | .POL_CE_CNT => [F.POL_CE_CNT_COUNT]
  | .POL_ECCLOG => [F.POL_ECCLOG_BLOCK, F.POL_ECCLOG_VALID]
  | .POL_UE_CNT => [F.POL_UE_CNT_COUNT]
  | .POL_MIRFAIL_CNT => [F.POL_MIRFAIL_CNT_COUNT]
  | .POL_SLOT => [F.POL_SLOT_KIND, F.POL_SLOT_DIR, F.POL_SLOT_CORE]
  | .POL_MODE => [F.POL_MODE_MODE, F.POL_MODE_PEND]
  | .POL_SCRUB => [F.POL_SCRUB_EN, F.POL_SCRUB_PASSES]
  | .RTV_STALE_CNT => [F.RTV_STALE_CNT_COUNT]
  | .RTV_RECHK_CNT => [F.RTV_RECHK_CNT_COUNT]
  | .RTV_RESFAIL_CNT => [F.RTV_RESFAIL_CNT_COUNT]
  | .RTV_CHKFAIL_CNT => [F.RTV_CHKFAIL_CNT_COUNT]
  | .RTV_LANES => [F.RTV_LANES_UP, F.RTV_LANES_TESTING]
  | .RTV_CTL => [F.RTV_CTL_TMODEF, F.RTV_CTL_WIN]
  | .RTV_QUOTA => [F.RTV_QUOTA_QUOTA]
  | .RTV_TMO_CNT => [F.RTV_TMO_CNT_COUNT]
  | .RTV_STS => [F.RTV_STS_INFLIGHT, F.RTV_STS_FREE]
  | .RTV_SEQTAB => [F.RTV_SEQTAB_USED]
  | .RTV_COLL_CNT => [F.RTV_COLL_CNT_COUNT]
  | .CMP_CFG => [F.CMP_CFG_CORES]
  | .CMP_CYC => [F.CMP_CYC_COUNT]
  | .CMP_FLT => [F.CMP_FLT_CAUSE, F.CMP_FLT_BUNDLE]
  | .CMP_FLTCYC => [F.CMP_FLTCYC_CYCLE]
  | .CMP_OWN => [F.CMP_OWN_KENNEL, F.CMP_OWN_VALID]
  | .CMP_CSTS => [F.CMP_CSTS_STATE, F.CMP_CSTS_LIDX, F.CMP_CSTS_NCORE, F.CMP_CSTS_STATIC, F.CMP_CSTS_FILLER, F.CMP_CSTS_WAITING]
  | .CMP_SCRUB => [F.CMP_SCRUB_BUSY]
  | .DET_CTL => [F.DET_CTL_NOADAPT, F.DET_CTL_NOFAST, F.DET_CTL_ALIGN]
  | .DET_TIME => [F.DET_TIME_TIME]
  | .DET_TSRC => [F.DET_TSRC_PORT, F.DET_TSRC_ROOT]
  | .DET_TSTS => [F.DET_TSTS_LOCKED, F.DET_TSTS_HOLDOVER, F.DET_TSTS_STEPPED, F.DET_TSTS_ALIGNED, F.DET_TSTS_OFFSET]
  | .DET_LINKDLY => [F.DET_LINKDLY_DELAY, F.DET_LINKDLY_VALID]
  | .DET_MISS_CNT => [F.DET_MISS_CNT_COUNT]
  | .DET_SCSTS => [F.DET_SCSTS_MODE, F.DET_SCSTS_FULL]
  | .DET_SCLOST_CNT => [F.DET_SCLOST_CNT_COUNT]
  | .SPG_SRC => [F.SPG_SRC_ADDR, F.SPG_SRC_LEN]
  | .SPG_CMD => [F.SPG_CMD_OP]
  | .SPG_STS => [F.SPG_STS_EPB, F.SPG_STS_STAGED, F.SPG_STS_RBOK, F.SPG_STS_ARMED, F.SPG_STS_DRAIN, F.SPG_STS_BUSY, F.SPG_STS_EMPTY, F.SPG_STS_TFLATE, F.SPG_STS_EPMIS, F.SPG_STS_STAGING, F.SPG_STS_VERR]
  | .SPG_POLICY => [F.SPG_POLICY_HASH]
  | .SPG_FLOOR => [F.SPG_FLOOR_VERSION]
  | .SPG_HIVER => [F.SPG_HIVER_VERSION]
  | .SPG_TF => [F.SPG_TF_TF]
  | .SPG_EPREJ_CNT => [F.SPG_EPREJ_CNT_COUNT]
  | .SPG_OLDEPB_CNT => [F.SPG_OLDEPB_CNT_COUNT]
  | .SPG_VER => [F.SPG_VER_VERSION]
  | .FEA_OFFER => [F.FEA_OFFER_BITS]
  | .FEA_ACCEPT => [F.FEA_ACCEPT_BITS]
  | .FEA_LOCK => [F.FEA_LOCK_LOCK]
  | .KLP_LCS => [F.KLP_LCS_STATE, F.KLP_LCS_PENDING]
  | .KLP_BOOTSTS => [F.KLP_BOOTSTS_SLOT, F.KLP_BOOTSTS_WARM, F.KLP_BOOTSTS_CODE]
  | .KLP_CTL => [F.KLP_CTL_RESTART]
  | .KLP_CERT => [F.KLP_CERT_CERTIFIED]
  | .KLP_DBGSTS => [F.KLP_DBGSTS_UNLOCKED, F.KLP_DBGSTS_SCOPE, F.KLP_DBGSTS_EVER]
  | .KLP_SEQ => [F.KLP_SEQ_OPEN, F.KLP_SEQ_GO, F.KLP_SEQ_ABORT, F.KLP_SEQ_BUSY]
  | .MON_LOCK => [F.MON_LOCK_LOCKED, F.MON_LOCK_SIZE]
  | .MON_LINKSEC => [F.MON_LINKSEC_EN, F.MON_LINKSEC_STATE]
  | .MON_LINKAUTH_CNT => [F.MON_LINKAUTH_CNT_COUNT]
  | .TWN_DUP_CNT => [F.TWN_DUP_CNT_COUNT]
  | .TWN_OLD_CNT => [F.TWN_OLD_CNT_COUNT]
  | .TWN_FULL_CNT => [F.TWN_FULL_CNT_COUNT]
  | .TWN_LCTL => [F.TWN_LCTL_MODE, F.TWN_LCTL_YIELD, F.TWN_LCTL_ENABLE]
  | .TWN_LSTS => [F.TWN_LSTS_HOLDER, F.TWN_LSTS_POSA, F.TWN_LSTS_MATESEEN, F.TWN_LSTS_LOST, F.TWN_LSTS_MODEMIS, F.TWN_LSTS_SPGSTALE, F.TWN_LSTS_YIELDFAIL, F.TWN_LSTS_TOOK, F.TWN_LSTS_CLAIM]
  | .TWN_RSYNC => [F.TWN_RSYNC_KENNEL, F.TWN_RSYNC_GO, F.TWN_RSYNC_BUSY, F.TWN_RSYNC_DONE, F.TWN_RSYNC_FAIL]
  | .TWN_RSYNC_VA => [F.TWN_RSYNC_VA_PAGE]
  | .TWN_TAKE_CNT => [F.TWN_TAKE_CNT_COUNT]
  | .HND_STS => [F.HND_STS_PEND, F.HND_STS_DEGRADED, F.HND_STS_FATAL, F.HND_STS_SEALED, F.HND_STS_PARITY, F.HND_STS_DIEOUT, F.HND_STS_HIGHEST]
  | .HND_EVT_CNT => [F.HND_EVT_CNT_COUNT]
  | .HND_PATH => [F.HND_PATH_PATH]
  | .HND_STICKY => [F.HND_STICKY_STICKY]
  | .HND_SEV => [F.HND_SEV_SEV0, F.HND_SEV_SEV1, F.HND_SEV_SEV2, F.HND_SEV_SEV3, F.HND_SEV_SEV4, F.HND_SEV_SEV5, F.HND_SEV_SEV6, F.HND_SEV_SEV7]
  | .HND_FORCE => [F.HND_FORCE_FORCE]
  | .PWR_CTL => [F.PWR_CTL_UP, F.PWR_CTL_DOWN]
  | .PWR_STS => [F.PWR_STS_STATE, F.PWR_STS_SUPPLY, F.PWR_STS_EPO, F.PWR_STS_OVER, F.PWR_STS_THROT, F.PWR_STS_UPREF]
  | .PWR_EST => [F.PWR_EST_POWER, F.PWR_EST_VALID]
  | .PWR_OVER_CNT => [F.PWR_OVER_CNT_COUNT]
  | .PWR_GPIO => [F.PWR_GPIO_VAL]
  | .PWR_GPIOOE => [F.PWR_GPIOOE_OE]
  | .PWR_TRAYRAIL => [F.PWR_TRAYRAIL_EN]
  | .PWR_RAILSTS => [F.PWR_RAILSTS_GOOD, F.PWR_RAILSTS_FAULT]
  | .PWR_GOV => [F.PWR_GOV_RATE, F.PWR_GOV_UNIT, F.PWR_GOV_HOLD]
  | .PWR_LEVEL => [F.PWR_LEVEL_LEVEL, F.PWR_LEVEL_GOAL]
  | .PWR_EST_TOT => [F.PWR_EST_TOT_POWER, F.PWR_EST_TOT_VALID]
  | .PWR_TEMP => [F.PWR_TEMP_TEMP, F.PWR_TEMP_VALID]
  | .CLK_STS => [F.CLK_STS_SYSREF, F.CLK_STS_LOCK, F.CLK_STS_HBMPT, F.CLK_STS_KLPPT]
  | .CLK_PGREF => [F.CLK_PGREF_REF]
  | .TCL_STS => [F.TCL_STS_BUSY, F.TCL_STS_DONE, F.TCL_STS_TMO, F.TCL_STS_REJ, F.TCL_STS_COLL]
  | .TCL_CMD => [F.TCL_CMD_GO, F.TCL_CMD_BYTES]
  | .TCL_TXBUF => [F.TCL_TXBUF_WORD]
  | .TCL_RXBUF => [F.TCL_RXBUF_WORD]
  | .TCL_ERR_CNT => [F.TCL_ERR_CNT_COUNT]
  | .TCL_REJ_CNT => [F.TCL_REJ_CNT_COUNT]
  | .CTR_KNL => [F.CTR_KNL_COUNT]
  | .CTR_CORE => [F.CTR_CORE_COUNT]
  | .CTR_SREC => [F.CTR_SREC_SESSION, F.CTR_SREC_VALID, F.CTR_SREC_KENNEL, F.CTR_SREC_BUNDLE, F.CTR_SREC_CYCLE]
  | .CTR_SLOST_CNT => [F.CTR_SLOST_CNT_COUNT]
  | .CTR_SCTL => [F.CTR_SCTL_EN, F.CTR_SCTL_WIDTH, F.CTR_SCTL_SEL]
  | _ => []

/-! ## Elements of a register (R525) -/

/-- The element that a reference names, last index varying fastest. -/
def elementOf (r : CsrRef) : Option Nat :=
  match Reg.dims r.reg with
  | [] => if r.i = 0 ∧ r.j = 0 ∧ r.k = 0 then some 0 else none
  | [a] => if r.i < a ∧ r.j = 0 ∧ r.k = 0 then some r.i else none
  | [a, b] => if r.i < a ∧ r.j < b ∧ r.k = 0 then some (r.i * b + r.j) else none
  | [a, b, c] => if r.i < a ∧ r.j < b ∧ r.k < c then some ((r.i * b + r.j) * c + r.k) else none
  | _ => none

end Sys2Proof
end

