-- ==== Sys2Proof/Syntax.lean ====
section
/-! DEFINITION. The commands of the module: one constructor of `Instr` for each row of
spec/opcode_table.json, and the data that rows carry (packets, link frames, control blocks, descriptors of
the slot formats).  What a row carries is what the outside world brings to that step: the block received, the
result of an analog measurement, the arguments of a monitor call.  Everything else a row needs is in State. -/

namespace Sys2Proof

/-! ## Blocks and link frames (spec/02, spec/03) -/

/-- A received MARKER block (R32) with the timing the receiver measured on it. -/
structure MarkerBlk where
  lane : BitVec 2        -- physical transmit lane
  width : Byte
  map : BitVec 4
  mseq : W16
  rung : BitVec 2
  errored : Bool         -- the block's codeword was uncorrectable (R28)
  onTime : Bool          -- exactly one marker period after the last marker found on the lane
  skewNs : Nat           -- arrival after the earliest active lane, in ns
  earlyNs : Nat := 0     -- of a lane that is not active: arrival before the earliest active lane, in ns
  deriving DecidableEq, Repr

/-- A received IDLE block, and whether the frame before it had blocks to come (R75). -/
structure IdleAt where
  port : Nat
  inside : Bool
  deriving DecidableEq, Repr

/-- The far-end identity record of R96. -/
structure Ident where
  uid : W64
  port : Byte
  kind : Byte
  cart : W32
  eid : W16
  deriving DecidableEq, Repr

/-- A received CAP block (R41). -/
structure CapBlk where
  ack : Bool
  step : Bool
  final : Bool
  rungs : BitVec 4
  lanes : BitVec 4
  version : W16
  caps : W16
  ident : Ident
  stampNs : W64
  errored : Bool
  arrivalPs : Nat        -- arrival at the pins, ps of module time
  deriving DecidableEq, Repr

/-- A WIDTH block (R49). -/
structure WidthBlk where
  ack : Bool
  up : Bool
  sleep : Bool
  width : Nat
  map : BitVec 4
  switch : BitVec 14
  deriving DecidableEq, Repr

/-- A received training frame (R38) and whether this end's own receiver is ready. -/
structure TrainFrame where
  reqPre : BitVec 2
  reqMain : BitVec 2
  reqPost : BitVec 2
  preset : Bool
  rxReady : Bool         -- status bit 7 of the far end
  ownReady : Bool        -- this receiver is ready, so this end sends RXREADY
  limPre : Bool          -- the precursor tap cannot move as requested
  limMain : Bool
  limPost : Bool
  inverted : Bool        -- received polarity is inverted (R34)
  deriving DecidableEq, Repr

/-- One slot of a link frame (R72). -/
structure Slot where
  seq : BitVec 12
  vc : BitVec 3
  data : Bool
  fill : Byte
  bytes : List Byte      -- 256 payload bytes
  deriving DecidableEq, Repr

/-- A link frame (R71). -/
structure Frame where
  ack : BitVec 12
  ackv : Bool
  nak : Bool
  credit : List (BitVec 12)   -- eight running totals, VC 0 first
  slots : List Slot           -- four slots
  lcrc : W32
  deriving DecidableEq, Repr

/-! ## Packets (R87) -/

structure Packet where
  dst : W16
  src : W16
  ktag : W16
  win : W16
  psn : W16
  addr : BitVec 48
  vc : BitVec 3
  opc : BitVec 6
  len : BitVec 9
  fen : Bool
  cmk : BitVec 2
  epb : Bool
  dln : BitVec 2
  twn : Bool
  col : BitVec 2
  hop : BitVec 6
  gen : BitVec 4
  rsv : BitVec 27
  payload : List Byte
  check : W32
  deriving DecidableEq, Repr

/-- A packet addressed to the module that its internal output has taken (R117): the crossbar position it
entered from (a port below 144) and, for TIME messages, the receive time of R379 in ps. -/
structure Arrival where
  port : Nat
  pkt : Packet
  timePs : Nat := 0
  deriving DecidableEq, Repr

/-- A symbol of a stored pool block that differs from what was written (R245): PA[38:6] of the block, the symbol (data 0 to
31, check 32 to 35, and 36 and 37 the symbols of PA, in which a block of another place differs), and the bits that do. -/
structure Flip where
  block : Nat
  sym : Nat
  mask : BitVec 16
  deriving DecidableEq, Repr

/-- How the Retriever's checks of R285 came out for one block. -/
inductive BlkCheck where
  | pass | recompute | checkFail
  deriving DecidableEq, Repr

/-- Whose next packet a network interface send step takes (R182). -/
inductive SendSrc where
  | cmd (k q : Nat) (seq : W32)   -- the next packet of a command
  | move (c id : Nat)             -- the next packet of a core's transfer
  | queued (id : Nat)             -- a packet already formed and waiting in the interface
  deriving DecidableEq, Repr

/-- Who makes a register access (R9, R418, R437). -/
inductive Accessor where
  | monitor | firmware | debug
  deriving DecidableEq, Repr

/-- A read of a register, normal or through the quiet alias (R10). -/
structure CsrRead where
  quiet : Bool
  ref : CsrRef
  deriving DecidableEq, Repr

/-- A read of a register and who reads. -/
structure ReadBy where
  by_ : Accessor
  quiet : Bool
  ref : CsrRef
  deriving DecidableEq, Repr

/-! ## Slot formats of the compute instruction set (R341, R344, R348, R351, R356)

Each holds the fields of its table and, as `rsv`, the bits the table fixes at 0; a non-zero `rsv` is a
reserved encoding. -/

structure Guard where
  pidx : BitVec 3 := 0
  pneg : Bool := false
  deriving DecidableEq, Repr

structure SA where
  d : BitVec 5
  a : BitVec 5
  b : BitVec 5
  i : Bool
  imm : W32
  rsv : BitVec 4 := 0
  deriving DecidableEq, Repr

structure SP where
  pd : BitVec 3
  a : BitVec 5
  b : BitVec 5
  i : Bool
  imm : W32
  rsv : BitVec 6 := 0
  deriving DecidableEq, Repr

structure SL where
  pd : BitVec 3
  pa : BitVec 3
  na : Bool
  pb : BitVec 3
  nb : Bool
  rsv : BitVec 41 := 0
  deriving DecidableEq, Repr

structure SB where
  tgt : BitVec 14
  a : BitVec 5
  rsv : BitVec 33 := 0
  deriving DecidableEq, Repr

structure SX where
  d : BitVec 5
  a : BitVec 5
  h : Bool
  imm : W32
  rsv : BitVec 9 := 0
  deriving DecidableEq, Repr

structure TM where
  emask : BitVec 4
  ls : Bool
  acc : BitVec 2
  of : Bool
  ar : BitVec 5
  aoff : BitVec 10
  le : Bool
  leng : BitVec 2
  ll : Bool
  br : BitVec 5
  boff : BitVec 10
  rsv : BitVec 10 := 0
  deriving DecidableEq, Repr

structure TC where
  eng : BitVec 2
  acc : BitVec 2
  mode : Bool
  x : BitVec 4
  rsv : BitVec 43 := 0
  deriving DecidableEq, Repr

structure TA where
  eng : BitVec 2
  acc : BitVec 2
  vs : BitVec 6
  part : BitVec 5
  rsv : BitVec 37 := 0
  deriving DecidableEq, Repr

structure VR where
  e : Bool
  d : BitVec 6
  a : BitVec 6
  b : BitVec 6
  c : BitVec 6
  x : BitVec 4
  f : Bool
  sr : BitVec 5
  part : BitVec 5
  rsv : BitVec 12 := 0
  deriving DecidableEq, Repr

structure VM where
  e : Bool
  d : BitVec 6
  ar : BitVec 5
  loff : BitVec 19
  g : BitVec 5
  nm1 : BitVec 5
  rsv : BitVec 11 := 0
  deriving DecidableEq, Repr

structure VS where
  e : Bool
  v : BitVec 6
  s : BitVec 5
  lane : BitVec 10
  field : BitVec 2
  xd : BitVec 4
  rsv : BitVec 24 := 0
  deriving DecidableEq, Repr

structure MS where
  ctr : BitVec 3
  entry : BitVec 11
  wrap : Bool
  vr : BitVec 5
  line : BitVec 19
  nm1 : BitVec 4
  rsv : BitVec 9 := 0
  deriving DecidableEq, Repr

structure MD where
  ctr : BitVec 3
  vr : BitVec 5
  lr : BitVec 5
  nr : BitVec 5
  rem : Bool
  rr : BitVec 5
  twin : Bool
  rsv : BitVec 27 := 0
  deriving DecidableEq, Repr

structure MA where
  ctr : BitVec 3
  vr : BitVec 5
  opr : BitVec 5
  cr : BitVec 5
  rem : Bool
  rr : BitVec 5
  aop : BitVec 2
  line : BitVec 19
  rsv : BitVec 7 := 0
  deriving DecidableEq, Repr

structure MN where
  dst : BitVec 5
  vs : BitVec 6
  li : BitVec 5
  lr : BitVec 5
  loff : BitVec 19
  rsv : BitVec 12 := 0
  deriving DecidableEq, Repr

structure MW where
  widx : BitVec 12
  sr : BitVec 5
  rem : Bool
  rr : BitVec 5
  ctr : BitVec 3
  rsv : BitVec 26 := 0
  deriving DecidableEq, Repr

structure MP where
  a : BitVec 5
  b : BitVec 5
  ctr : BitVec 3
  rsv : BitVec 39 := 0
  deriving DecidableEq, Repr

/-- The bits above the opcode of an instruction that has no format (nop, end, tnop, vnop, mnop). -/
abbrev NoFmt := BitVec 52

/-! ## Images, tokens and tray frames -/

/-- A boot flash slot as the ROM finds it (R413, R414): the flash answers or not, and the image bytes with
the signature block that follows them. -/
structure FlashSlot where
  responds : Bool
  bytes : List Byte
  deriving DecidableEq, Repr

/-- A LEASH frame (R452). -/
structure LeashFrame where
  typ : BitVec 4
  mode : Bool
  posa : Bool
  rsv : BitVec 2
  lser : W16
  claim : W16
  spare : W16 := 0
  crc : Byte
  deriving DecidableEq, Repr

/-- A TCL frame without its SOF (R497); the CRC is computed by the receiver over the bytes. -/
structure TclFrame where
  addr : Byte
  typ : Byte
  src : Byte
  claim : W16
  tseq : Byte
  reg : W16
  data : List Byte
  crc : W16
  deriving DecidableEq, Repr

/-! ## The commands -/

inductive Instr where
  -- lanes and bring-up
  | portOff (p : Nat)
  | portBringup (p : Nat)
  | portTest (p : Nat)
  | maxrung (p : Nat) (v : BitVec 2)
  | retrain (p : Nat)
  | ceilclr (p : Nat)
  | flapclr (p : Nat)
  | sleepreq (p : Nat) (mask : BitVec 4)
  | prbsTxen (l : Nat) (v : Bool)
  | prbsRxen (l : Nat) (v : Bool)
  | receiverDetect (p : Nat) (seen : BitVec 4) (cart : W32)
  | trainingFrame (l : Nat) (f : TrainFrame)
  | bitlockAchieved (p : Nat)
  | stateTimeout (p : Nat)
  | nolinkHoldEnd (p : Nat)
  | stepEnd (p : Nat)
  | marker (l : Nat) (m : MarkerBlk)
  | markerMissed (l : Nat)
  | markerSend (p : Nat)
  | cap (p : Nat) (b : CapBlk)
  | capSend (p : Nat)
  | fillerSend (p : Nat)
  | filler (p : Nat)
  | idle (p : IdleAt)
  | reservedControlBlock (p : Nat) (typ : Byte)
  | codeword (l : Nat) (rx : List (BitVec 10))
  | laneLoss (l : Nat)
  | width (p : Nat) (b : WidthBlk)
  | switchIndex (p : Nat) (tx : Bool)
  | laneReady (l : Nat)
  | sleepEntryDone (l : Nat)
  | sleepExitTimeout (l : Nat)
  -- link layer
  | linkFrame (p : Nat) (f : Frame)
  | nakTimeout (p : Nat)
  | replayTimeout (p : Nat)
  | linkSweepStart
  | linkSweepAbort
  | sweepStep
  -- switch core
  | packetIngress (p : Nat) (v : BitVec 3)
  | admissionDecide (id : Nat)
  | cellSlot (plane : Nat)
  | cellArrival (id n : Nat)
  | resequenceGapTimeout (id : Nat)
  | outputServe (p : Nat)
  | lifetimeExpiry (id : Nat)
  | planeFault (k : Nat)
  | planeDrainEnd (k : Nat)
  | planeen (mask : BitVec 4)
  | rounds (v : BitVec 2)
  -- network interface
  | niPacketSend (src : SendSrc)
  | rateTick
  | windowSlotIdle (i : Nat)
  | windowFault (w : Nat)
  | ackReceived (a : Arrival)
  | readRspReceived (a : Arrival)
  | atomicRspReceived (a : Arrival)
  | errRspReceived (a : Arrival)
  -- accesses through the kennel view
  | tailWrite (a : Arrival)
  | pushWrite (a : Arrival)
  | doorbellRead (a : Arrival)
  | whistleRead (a : Arrival)
  | whistleWrite (a : Arrival)
  | whistleFaddI64 (a : Arrival)
  | whistleCas64 (a : Arrival)
  | counterViewRead (a : Arrival)
  | cheadWrite (a : Arrival)
  | completionControlRead (a : Arrival)
  | kfeaWrite (a : Arrival)
  | unservedAccess (a : Arrival)
  | poolRead (a : Arrival)
  | poolWrite (a : Arrival)
  | poolFaddI32 (a : Arrival)
  | poolFaddI64 (a : Arrival)
  | poolFaddF32 (a : Arrival)
  | poolCas64 (a : Arrival)
  -- pool
  | hbmAccessDone (id : Nat) (errs : List Flip)
  | mirrorWriteTimeout (id : Nat)
  | patrolScrubStep (errs : List Flip)
  | slotEntryStart (e : Nat)
  | translationInvalidate (by_ : Accessor) (kennel : BitVec 12) (all : Bool)
  | translationInvalidateDone
  | polModeStatic
  | polModeDynamic
  | poolModeChange
  -- kennel monitor calls
  | kcreate (ktag gen opts whist ring : W64)
  | kbindport (k port : W64)
  | kunbindport (k port : W64)
  | kbindrank (k loc entries : W64) (table : List W32)
  | kbindpage (k root : W64)
  | kbindkey (k slot : W64)
  | kgrantcore (k mask : W64)
  | kgrantctr (k mask : W64)
  | kqcreate (k q base ring : W64)
  | kopen (k : W64)
  | kreset (k : W64)
  | kteardown (k : W64)
  | kquery (k : W64)
  | kennelResetEnd (k : Nat)
  | teardownEnd (k : Nat)
  | ktagQuarantineEnd (ktag : W16)
  -- queue commands
  | descriptorRead (k q : Nat) (errs : List Flip)
  | nop (k q : Nat)
  | wait (k q : Nat)
  | waitTimeout (k q : Nat) (seq : W32)
  | signal (k q : Nat)
  | copy (k q : Nat)
  | fill (k q : Nat)
  | atomic (k q : Nat)
  | launch (k q : Nat)
  | bcast (k q : Nat)
  | bcastv (k q : Nat)
  | reduce (k q : Nat)
  | reducev (k q : Nat)
  | allred (k q : Nat)
  | update (k q : Nat)
  | fence (k q : Nat)
  | timestamp (k q : Nat)
  | cancel (k q : Nat)
  | commandComplete (k q : Nat) (seq : W32)
  -- Retriever
  | collData (a : Arrival)
  | collResult (a : Arrival)
  | collAdmit (k q : Nat) (seq : W32)
  | blockResult (id stage blk : Nat) (chk : BlkCheck)
  | collTimeout (id : Nat)
  | laneSelfTestEnd (failed : W16)
  -- programs
  | coreClaim (k q : Nat) (seq : W32)
  | programLoadDone (c : Nat)
  | programStart (pid : Nat)
  | programEnd (pid : Nat)
  | launchTimeLimit (pid : Nat)
  | scrubDone (c : Nat) (clean : Bool)
  | resultWriteback (c : Nat)
  | moveComplete (c id : Nat)
  | staticLanding (c : Nat)
  | networkLanding (c : Nat)
  | waitResume (c : Nat)
  -- S slot
  | sSlotNop (c : Nat) (g : Guard) (f : NoFmt)
  | add (c : Nat) (g : Guard) (f : SA)
  | sub (c : Nat) (g : Guard) (f : SA)
  | mul (c : Nat) (g : Guard) (f : SA)
  | and (c : Nat) (g : Guard) (f : SA)
  | or (c : Nat) (g : Guard) (f : SA)
  | xor (c : Nat) (g : Guard) (f : SA)
  | shl (c : Nat) (g : Guard) (f : SA)
  | shr (c : Nat) (g : Guard) (f : SA)
  | sra (c : Nat) (g : Guard) (f : SA)
  | min (c : Nat) (g : Guard) (f : SA)
  | max (c : Nat) (g : Guard) (f : SA)
  | minu (c : Nat) (g : Guard) (f : SA)
  | maxu (c : Nat) (g : Guard) (f : SA)
  | li (c : Nat) (g : Guard) (f : SA)
  | lih (c : Nat) (g : Guard) (f : SA)
  | cmpEq (c : Nat) (g : Guard) (f : SP)
  | cmpNe (c : Nat) (g : Guard) (f : SP)
  | cmpLt (c : Nat) (g : Guard) (f : SP)
  | cmpGe (c : Nat) (g : Guard) (f : SP)
  | cmpLtu (c : Nat) (g : Guard) (f : SP)
  | cmpGeu (c : Nat) (g : Guard) (f : SP)
  | pand (c : Nat) (g : Guard) (f : SL)
  | por (c : Nat) (g : Guard) (f : SL)
  | pxor (c : Nat) (g : Guard) (f : SL)
  | br (c : Nat) (g : Guard) (f : SB)
  | bdec (c : Nat) (g : Guard) (f : SB)
  | endProg (c : Nat) (g : Guard) (f : NoFmt)
  | rdcyc (c : Nat) (g : Guard) (f : SX)
  | rdstep (c : Nat) (g : Guard) (f : SX)
  | rdseed (c : Nat) (g : Guard) (f : SX)
  | stepadd (c : Nat) (g : Guard) (f : SX)
  | stepset (c : Nat) (g : Guard) (f : SX)
  -- T slot
  | tnop (c : Nat) (g : Guard) (f : NoFmt)
  | tclr (c : Nat) (g : Guard) (f : TC)
  | tadd (c : Nat) (g : Guard) (f : TA)
  | tmmaF4 (c : Nat) (g : Guard) (f : TM)
  | tmmaLb4 (c : Nat) (g : Guard) (f : TM)
  | tmmaE2m3 (c : Nat) (g : Guard) (f : TM)
  | tmmaE3m2 (c : Nat) (g : Guard) (f : TM)
  | tmmaE4m3 (c : Nat) (g : Guard) (f : TM)
  | tmmaE5m2 (c : Nat) (g : Guard) (f : TM)
  | tmmaBf16 (c : Nat) (g : Guard) (f : TM)
  | tmmaF16 (c : Nat) (g : Guard) (f : TM)
  -- V slot
  | vnop (c : Nat) (g : Guard) (f : NoFmt)
  | vaddF32 (c : Nat) (g : Guard) (f : VR)
  | vsubF32 (c : Nat) (g : Guard) (f : VR)
  | vmulF32 (c : Nat) (g : Guard) (f : VR)
  | vfmaF32 (c : Nat) (g : Guard) (f : VR)
  | vmaxF32 (c : Nat) (g : Guard) (f : VR)
  | vminF32 (c : Nat) (g : Guard) (f : VR)
  | vaddBf16 (c : Nat) (g : Guard) (f : VR)
  | vmulBf16 (c : Nat) (g : Guard) (f : VR)
  | vfmaBf16 (c : Nat) (g : Guard) (f : VR)
  | vsqrtF32 (c : Nat) (g : Guard) (f : VR)
  | vrcpF32 (c : Nat) (g : Guard) (f : VR)
  | vrsqrtF32 (c : Nat) (g : Guard) (f : VR)
  | vaddI32 (c : Nat) (g : Guard) (f : VR)
  | vsubI32 (c : Nat) (g : Guard) (f : VR)
  | vand (c : Nat) (g : Guard) (f : VR)
  | vor (c : Nat) (g : Guard) (f : VR)
  | vxor (c : Nat) (g : Guard) (f : VR)
  | vshlI32 (c : Nat) (g : Guard) (f : VR)
  | vshrI32 (c : Nat) (g : Guard) (f : VR)
  | vsraI32 (c : Nat) (g : Guard) (f : VR)
  | vld (c : Nat) (g : Guard) (f : VM)
  | vst (c : Nat) (g : Guard) (f : VM)
  | xld (c : Nat) (g : Guard) (f : VM)
  | xst (c : Nat) (g : Guard) (f : VM)
  | xset (c : Nat) (g : Guard) (f : VS)
  | vbcast (c : Nat) (g : Guard) (f : VS)
  | vmovs (c : Nat) (g : Guard) (f : VS)
  | vtrd (c : Nat) (g : Guard) (f : VR)
  | vtrdRaw (c : Nat) (g : Guard) (f : VR)
  | vcvtF32Bf16 (c : Nat) (g : Guard) (f : VR)
  | vcvtF32F16 (c : Nat) (g : Guard) (f : VR)
  | vpkBf16 (c : Nat) (g : Guard) (f : VR)
  | vpkF16 (c : Nat) (g : Guard) (f : VR)
  | vcvtF32I32 (c : Nat) (g : Guard) (f : VR)
  | vcvtI32F32 (c : Nat) (g : Guard) (f : VR)
  | vqscaleF4 (c : Nat) (g : Guard) (f : VR)
  | vqscaleLb4 (c : Nat) (g : Guard) (f : VR)
  | vqscaleE2m3 (c : Nat) (g : Guard) (f : VR)
  | vqscaleE3m2 (c : Nat) (g : Guard) (f : VR)
  | vqscaleE4m3 (c : Nat) (g : Guard) (f : VR)
  | vqscaleE5m2 (c : Nat) (g : Guard) (f : VR)
  | vpackF4 (c : Nat) (g : Guard) (f : VR)
  | vpackLb4 (c : Nat) (g : Guard) (f : VR)
  | vpackE2m3 (c : Nat) (g : Guard) (f : VR)
  | vpackE3m2 (c : Nat) (g : Guard) (f : VR)
  | vpackE4m3 (c : Nat) (g : Guard) (f : VR)
  | vpackE5m2 (c : Nat) (g : Guard) (f : VR)
  | vunpkF4 (c : Nat) (g : Guard) (f : VR)
  | vunpkLb4 (c : Nat) (g : Guard) (f : VR)
  | vunpkE2m3 (c : Nat) (g : Guard) (f : VR)
  | vunpkE3m2 (c : Nat) (g : Guard) (f : VR)
  | vunpkE4m3 (c : Nat) (g : Guard) (f : VR)
  | vunpkE5m2 (c : Nat) (g : Guard) (f : VR)
  -- M slot
  | mnop (c : Nat) (g : Guard) (f : NoFmt)
  | msp (c : Nat) (g : Guard) (f : MS)
  | mld (c : Nat) (g : Guard) (f : MD)
  | mst (c : Nat) (g : Guard) (f : MD)
  | matom (c : Nat) (g : Guard) (f : MA)
  | msend (c : Nat) (g : Guard) (f : MN)
  | whs (c : Nat) (g : Guard) (f : MW)
  | waitw (c : Nat) (g : Guard) (f : MW)
  | waitm (c : Nat) (g : Guard) (f : MW)
  | post (c : Nat) (g : Guard) (f : MP)
  -- determinism
  | start (a : Arrival)
  | time (a : Arrival)
  | timeSend (p : Nat)
  | timeHoldover
  | align
  | alignEffect
  | noadapt (v : Bool)
  | nofast (v : Bool)
  | kscent (k ring log2 mode mask digest count : W64)
  | scentSpaceReturn (k : Nat)
  | tensorDigestDone (pid : Nat)
  -- Sprigs and features
  | stage (image : List Byte)
  | stageDone
  | commit
  | rollback
  | epoch (a : Arrival)
  | epochFlip
  | epochDrainEnd
  | feaLock
  -- Kelpie
  | romBoot (a b : FlashSlot)
  | kelpieRestart
  | monLock (by_ : Accessor) (size : Byte)
  | seqOpen
  | seqGo
  | seqTimeout
  | authdataChallenge
  | authdataToken (token : List Byte)
  | keygen (slot : W64)
  | keyzero (slot : W64)
  | mirset (session ctl mtch : W64)
  | rsetown (n ktag valid : W64)
  | rtvquota (k quota : W64)
  | spgfloor (version : W64)
  | svnfloor (boot fw : W64)
  | dbgunlock (addr : W64) (token : List Byte)
  | linksec (port enable : W64)
  | lcstrans (target addr : W64) (token : List Byte)
  | fwload (addr : W64) (image : List Byte)
  | kmap (k va ppn flags : W64)
  | kunmap (k va : W64)
  | kprot (k va flags : W64)
  | hndsev (src sev : W64)
  | hndforce (src val : W64)
  | ctrsamp (session sel width enable : W64)
  | getVersion
  | getCapabilities
  | negotiateAlgorithms
  | getDigests
  | getCertificate (slot : Byte)
  | challenge (slot : Byte) (nonce : List Byte)
  | getMeasurements (index : Byte) (nonce : List Byte)
  | vendorMlDsaSignature
  | linkKeyMessage (a : Arrival)
  | linktag (a : Arrival)
  | linktagTimeout (p : Nat)
  | recordClose (p : Nat)
  | linkRekey (p : Nat)
  -- twin planes and tray control
  | twinEntryExpiry (src win : W16)
  | renew (f : LeashFrame)
  | claim (f : LeashFrame)
  | heartbeatSend
  | heartbeatTimeout
  | claimComplete
  | mate (a : Arrival)
  | mateSend
  | yield
  | claimEnable (v : Bool)
  | leashMode (v : Bool)
  | resyncGo
  | resyncComplete (a : Arrival)
  -- Hound
  | houndSourceAssert (i : Nat) (path : Bool)
  | houndParityError
  | stickyClear (w : Nat) (mask : W32)
  -- power and tray
  | supplyOkRise (posa test : Bool)
  | supplyOkFall
  | powerUp
  | powerDown
  | railGood (r : Nat)
  | railEnableTimeout (r : Nat)
  | railWindowFault (r : Nat)
  | railDischarged (r : Nat)
  | supplyWaitEnd
  | stacksTrained (mask : Byte)
  | epo
  | governorInstant
  | holdExpiry (c : Nat)
  | estimatorRefresh (rails : List W16) (total : W16) (overMs : Bool)
  | estimatorCalibrate
  | thermalThreshold (readings : List (BitVec 10))
  | tclGo
  | tclBytes (n : BitVec 7)
  | tclFrameStart (collision : Bool)
  | tclBackoffEnd
  | tclAnswerTimeout
  | tclAck (f : TclFrame)
  | tclData (f : TclFrame)
  | tclReject (f : TclFrame)
  | tclError (f : TclFrame)
  | pwrGpioWrite (oe : Bool) (v : W32)
  | trayrailWrite (v : W16)
  -- registers and counters
  | srecPop (quiet : Bool)
  | counterClearingRead (r : ReadBy)
  | registerWrite (by_ : Accessor) (r : CsrRef) (v : W64)
  | patternCheck (l : Nat) (bits : List Bool)
  | nonMonitorMonRead (by_ : Accessor) (r : CsrRead)
  | traymateTclFrame (f : TclFrame)
  | mateseenExpiry
  | hbmRetrainDone
  | perBankRefresh (stack : Nat)
  | reporterRequest (r : CsrRef)
  deriving DecidableEq, Repr

end Sys2Proof
end

