-- ==== Sys2Proof/Decode.lean ====
section
/-! DEFINITION. The words of commands.  No row of spec/opcode_table.json gives bits to a command, so no word
spells one (assumption log 1). -/

namespace Sys2Proof

/-- The command that the word `w` of `nbits` bits spells: none, since the table gives no row any bits.
DESIGN CHOICE, log entry 1: safe. -/
def decodeTableWord (_nbits _w : Nat) : Option Instr := none

end Sys2Proof
end

