-- ==== Sys2Proof/Machine/Table.lean ====
section
/-! DEFINITION. Sparse tables: reading, setting, clearing and changing one entry.  A table lists its entries by
strictly rising index, and an index it does not list reads as the default that the reader names. -/

namespace Sys2Proof

namespace Tbl

/-- The entry at `k`, when the table lists one. -/
def find {α : Type} : Tbl α → Nat → Option α
  | [], _ => none
  | (j, v) :: t, k => if j = k then some v else find t k

/-- The entry at `k`, or `d`. -/
def get {α : Type} (t : Tbl α) (k : Nat) (d : α) : α := (find t k).getD d

/-- The table without an entry at `k`. -/
def erase {α : Type} : Tbl α → Nat → Tbl α
  | [], _ => []
  | (j, v) :: t, k => if j = k then erase t k else (j, v) :: erase t k

/-- Places an entry before the first larger index. -/
def insert {α : Type} : Tbl α → Nat → α → Tbl α
  | [], k, v => [(k, v)]
  | (j, w) :: t, k, v => if k < j then (k, v) :: (j, w) :: t else (j, w) :: insert t k v

/-- The table with `v` at `k`. -/
def set {α : Type} (t : Tbl α) (k : Nat) (v : α) : Tbl α := insert (erase t k) k v

/-- The table reading `v` at `k`, listed only where `v` differs from the default `d`. -/
def put {α : Type} [DecidableEq α] (t : Tbl α) (k : Nat) (v d : α) : Tbl α :=
  if v = d then erase t k else set t k v

/-- Indices strictly rising. -/
def sorted {α : Type} : Tbl α → Bool
  | [] => true
  | [_] => true
  | (a, _) :: (b, y) :: t => a < b && sorted ((b, y) :: t)

end Tbl

namespace ListOps

/-- The element at `i`, or `d`. -/
def at' {α : Type} (l : List α) (i : Nat) (d : α) : α := l.getD i d

/-- The list with element `i` replaced by its image. -/
def modify {α : Type} : List α → Nat → (α → α) → List α
  | [], _, _ => []
  | x :: t, 0, f => f x :: t
  | x :: t, n + 1, f => x :: modify t n f

/-- The first element that `p` accepts, with its index. -/
def findIdx {α : Type} (p : α → Bool) : List α → Nat → Option (Nat × α)
  | [], _ => none
  | x :: t, n => if p x then some (n, x) else findIdx p t (n + 1)

/-- Changes every element that `p` accepts. -/
def update {α : Type} (p : α → Bool) (f : α → α) (l : List α) : List α :=
  l.map fun x => if p x then f x else x

end ListOps

/-- The bits `[hi:lo]` of a number. -/
def bits (n hi lo : Nat) : Nat := (n / 2 ^ lo) % 2 ^ (hi + 1 - lo)

/-- Bit `i` of a number. -/
def bit (n i : Nat) : Bool := n / 2 ^ i % 2 == 1

/-- 1 for true, 0 for false. -/
def b2n (b : Bool) : Nat := if b then 1 else 0

/-- Little-endian value of a byte list (R11). -/
def leVal : List Byte → Nat
  | [] => 0
  | b :: t => b.toNat + 256 * leVal t

/-- The `n` little-endian bytes of a value (R11). -/
def leBytes : Nat → Nat → List Byte
  | 0, _ => []
  | n + 1, v => BitVec.ofNat 8 v :: leBytes n (v / 256)

/-- Bytes `[o, o + n)` of a list, read as a little-endian value. -/
def field (l : List Byte) (o n : Nat) : Nat := leVal ((l.drop o).take n)

/-- `n / d` rounded up. -/
def ceilDiv (n d : Nat) : Nat := (n + d - 1) / d

/-- The numbers 0 to `n - 1`. -/
def upto (n : Nat) : List Nat := List.range n

end Sys2Proof
end

