-- ==== Sys2Proof/Machine/Codes.lean ====
section
/-! DEFINITION. The codes of the wire: the check polynomials (R76, R94, R452, R497), the packet layout
(R87, R88), the RS(544,514) codeword (R27), the scrambler (R30), the precoder and the Gray map (R24, R25),
and the test patterns (R61). -/

namespace Sys2Proof.Machine

/-! ## Bit-reflected 32-bit checks -/

/-- `n` bit steps of a reflected CRC register. -/
def crcBits (poly : Nat) : Nat → Nat → Nat
  | 0, r => r
  | n + 1, r => crcBits poly n (if r % 2 = 1 then (r / 2) ^^^ poly else r / 2)

/-- A reflected 32-bit CRC, initial value and final XOR all ones. -/
def crc32With (poly : Nat) (l : List Byte) : Nat :=
  (l.foldl (fun r b => crcBits poly 8 (r ^^^ b.toNat)) 0xFFFFFFFF) ^^^ 0xFFFFFFFF

/-- LCRC, the CRC-32 of IEEE 802.3 (R76). -/
def crc32 (l : List Byte) : Nat := crc32With 0xEDB88320 l

/-- The carried check's CRC-32C (R94). -/
def crc32c (l : List Byte) : Nat := crc32With 0x82F63B78 l

/-- An unreflected CRC of `w` bits, most significant bit first. -/
def crcMsb (w poly init : Nat) (l : List Byte) : Nat :=
  l.foldl (fun r b =>
    (upto 8).foldl (fun r _ => if bit r (w - 1) then (2 * r % 2 ^ w) ^^^ poly else 2 * r % 2 ^ w)
      (r ^^^ (b.toNat * 2 ^ (w - 8)))) init

end Sys2Proof.Machine

namespace Sys2Proof
open Sys2Proof.Machine

/-! ## Packets -/

/-- Header word W0 (R87). -/
def Packet.w0 (p : Packet) : Nat :=
  p.dst.toNat + p.src.toNat * 2 ^ 16 + p.ktag.toNat * 2 ^ 32 + p.win.toNat * 2 ^ 48

/-- Header word W1. -/
def Packet.w1 (p : Packet) : Nat := p.psn.toNat + p.addr.toNat * 2 ^ 16

/-- Header word W2. -/
def Packet.w2 (p : Packet) : Nat :=
  p.vc.toNat + p.opc.toNat * 2 ^ 3 + p.len.toNat * 2 ^ 9 + b2n p.fen * 2 ^ 18 + p.cmk.toNat * 2 ^ 19 +
  b2n p.epb * 2 ^ 21 + p.dln.toNat * 2 ^ 22 + b2n p.twn * 2 ^ 24 + p.col.toNat * 2 ^ 25 +
  p.hop.toNat * 2 ^ 27 + p.gen.toNat * 2 ^ 33 + p.rsv.toNat * 2 ^ 37

/-- The 24 header bytes in wire order (R88). -/
def Packet.header (p : Packet) : List Byte := leBytes 8 p.w0 ++ leBytes 8 p.w1 ++ leBytes 8 p.w2

/-- The bits of W2 that the carried check covers (R94). -/
def checkMask : Nat := 0x0000001E0107FFF8

/-- The carried check of a packet (R94). -/
def Packet.crc (p : Packet) : W32 :=
  BitVec.ofNat 32 (crc32c (leBytes 8 p.w0 ++ leBytes 8 p.w1 ++ leBytes 8 (p.w2 &&& checkMask) ++ p.payload))

/-- The packet with its check formed (R94). -/
def Packet.seal (p : Packet) : Packet := { p with check := p.crc }

/-- Every byte of a packet in wire order (R88). -/
def Packet.bytes (p : Packet) : List Byte := p.header ++ p.payload ++ leBytes 4 p.check.toNat

/-- The header that 24 bytes spell; payload and check are left empty. -/
def Packet.ofHeader (l : List Byte) : Packet :=
  let w0 := field l 0 8
  let w1 := field l 8 8
  let w2 := field l 16 8
  { dst := BitVec.ofNat 16 w0, src := BitVec.ofNat 16 (w0 / 2 ^ 16), ktag := BitVec.ofNat 16 (w0 / 2 ^ 32),
    win := BitVec.ofNat 16 (w0 / 2 ^ 48), psn := BitVec.ofNat 16 w1, addr := BitVec.ofNat 48 (w1 / 2 ^ 16),
    vc := BitVec.ofNat 3 w2, opc := BitVec.ofNat 6 (w2 / 2 ^ 3), len := BitVec.ofNat 9 (w2 / 2 ^ 9),
    fen := bit w2 18, cmk := BitVec.ofNat 2 (w2 / 2 ^ 19), epb := bit w2 21,
    dln := BitVec.ofNat 2 (w2 / 2 ^ 22), twn := bit w2 24, col := BitVec.ofNat 2 (w2 / 2 ^ 25),
    hop := BitVec.ofNat 6 (w2 / 2 ^ 27), gen := BitVec.ofNat 4 (w2 / 2 ^ 33),
    rsv := BitVec.ofNat 27 (w2 / 2 ^ 37), payload := [], check := 0 }

/-- The packet that its bytes spell: 24 header bytes, 16 LEN payload bytes, 4 check bytes. -/
def Packet.ofBytes (l : List Byte) : Packet :=
  let h := Packet.ofHeader l
  { h with payload := (l.drop 24).take (16 * h.len.toNat),
           check := BitVec.ofNat 32 (field l (24 + 16 * h.len.toNat) 4) }

/-- The length in bytes of a packet, header and check included. -/
def Packet.size (p : Packet) : Nat := 28 + 16 * p.len.toNat

end Sys2Proof

namespace Sys2Proof.Machine

/-- The class of a VC (R84): 0 REQ, 1 RSP, 2 COLL, 3 MGMT. -/
def vcClass (vc : Nat) : Nat := vc / 2

/-- The class of an opcode (R92), none for a reserved opcode. -/
def opcClass (opc : Nat) : Option Nat :=
  if 0x01 ≤ opc ∧ opc ≤ 0x06 then some 0
  else if 0x08 ≤ opc ∧ opc ≤ 0x0B then some 1
  else if opc = 0x10 ∨ opc = 0x11 then some 2
  else if 0x20 ≤ opc ∧ opc ≤ 0x22 then some 3
  else none

/-! ## RS(544,514) over GF(2^10) (R27) -/

/-- One doubling in the field x^10 + x^3 + 1. -/
def gfDouble (a : Nat) : Nat := if 512 ≤ a then (2 * a) ^^^ 0x409 else 2 * a

/-- Product in the field. -/
def gfMul (a b : Nat) : Nat :=
  [9, 8, 7, 6, 5, 4, 3, 2, 1, 0].foldl
    (fun acc i => let acc := gfDouble acc; if bit a i then acc ^^^ b else acc) 0

def gfPow (a : Nat) : Nat → Nat
  | 0 => 1
  | n + 1 => gfMul a (gfPow a n)

/-- Inverse in the field: a^1022 by ten squarings. -/
def gfInv (a : Nat) : Nat :=
  let sq := fun x => gfMul x x
  let rec go : Nat → Nat → Nat → Nat
    | 0, _, acc => acc
    | n + 1, p, acc => let p := sq p; go n p (gfMul acc p)
  go 9 a 1

/-- Polynomial value, lowest coefficient first. -/
def gfEval : List Nat → Nat → Nat
  | [], _ => 0
  | c :: t, x => c ^^^ gfMul x (gfEval t x)

/-- Sum of polynomials, lowest coefficient first. -/
def gfAdd : List Nat → List Nat → List Nat
  | [], b => b
  | a, [] => a
  | x :: a, y :: b => (x ^^^ y) :: gfAdd a b

def gfScale (k : Nat) (a : List Nat) : List Nat := a.map (gfMul k)

def gfShift (n : Nat) (a : List Nat) : List Nat := List.replicate n 0 ++ a

/-- Syndrome `j` of a received word, its first symbol the highest coefficient. -/
def rsSyndrome (rx : List Nat) (j : Nat) : Nat :=
  let x := gfPow 2 j
  rx.foldl (fun acc c => gfMul acc x ^^^ c) 0

/-- State of the Berlekamp–Massey recursion. -/
structure BmState where
  c : List Nat
  b : List Nat
  len : Nat
  m : Nat
  last : Nat

def bmStep (s : List Nat) (st : BmState) (n : Nat) : BmState :=
  let d := (upto (st.len + 1)).foldl (fun acc i => acc ^^^ gfMul (st.c.getD i 0) (s.getD (n - i) 0)) 0
  if d = 0 then { st with m := st.m + 1 }
  else
    let c := gfAdd st.c (gfShift st.m (gfScale (gfMul d (gfInv st.last)) st.b))
    if 2 * st.len ≤ n then ⟨c, st.c, n + 1 - st.len, 1, d⟩ else { st with c := c, m := st.m + 1 }

/-- The error locator and its degree. -/
def rsLocator (s : List Nat) : List Nat × Nat :=
  let st := (upto 30).foldl (bmStep s) ⟨[1], [1], 0, 1, 1⟩
  (st.c, st.len)

/-- Formal derivative over a field of characteristic 2. -/
def gfDeriv (a : List Nat) : List Nat :=
  ((a.drop 1).zipIdx).map fun x => if x.2 % 2 = 0 then x.1 else 0

/-- The product of two polynomials modulo x^30. -/
def gfProd30 (a b : List Nat) : List Nat :=
  ((a.zipIdx).foldl (fun acc x => gfAdd acc (gfShift x.2 (gfScale x.1 b))) []).take 30

/-- Decodes a word of 544 symbols (R27): the corrected word and the number of corrected symbols, or none when
more than 15 symbols are in error. -/
def rsDecode (rx : List Nat) : Option (List Nat × Nat) :=
  let s := (upto 30).map (rsSyndrome rx)
  if s.all (· == 0) then some (rx, 0)
  else
    let (loc, n) := rsLocator s
    if 15 < n then none
    else
      let om := gfProd30 s loc
      let dv := gfDeriv loc
      let errs := (upto 544).filterMap fun i =>
        let xi := gfInv (gfPow 2 (543 - i))
        if gfEval loc xi = 0 then
          some (i, gfMul (gfPow 2 (543 - i)) (gfMul (gfEval om xi) (gfInv (gfEval dv xi))))
        else none
      if errs.length = n then
        let fixed := (rx.zipIdx).map fun x => x.1 ^^^ Tbl.get errs x.2 0
        if (upto 30).all (fun j => rsSyndrome fixed j == 0) then some (fixed, n) else none
      else none

/-! ## Scrambler (R30), precoder (R25), Gray map (R24) -/

/-- One step of the additive scrambler x^58 + x^39 + 1: its output bit, which is the feedback bit, and the next
register. DESIGN CHOICE, log entry 99: unsafe. -/
def scrStep (r : BitVec 58) : Bool × BitVec 58 :=
  let o := r.getLsbD 57 ^^ r.getLsbD 38
  (o, (r <<< 1) ||| (if o then 1 else 0))

/-- The scrambler register after `n` bits. -/
def scrAdvance : Nat → BitVec 58 → BitVec 58
  | 0, r => r
  | n + 1, r => scrAdvance n (scrStep r).2

/-- The level index of a bit pair, first bit more significant (R24). -/
def gray (hi lo : Bool) : Nat := if hi then (if lo then 2 else 3) else (if lo then 1 else 0)

/-- The precoder: p(n) = (g(n) − p(n−1)) mod 4 (R25). -/
def precodeStep (p g : Nat) : Nat := (g + 4 - p % 4) % 4

/-- The receiver's side of the precoder: g(n) = (p(n) + p(n−1)) mod 4 (R25). -/
def unprecodeStep (p q : Nat) : Nat := (p + q) % 4

/-! ## Test patterns (R61) -/

/-- The bit that PRBS31 predicts from the last bits received, newest first: x^31 + x^28 + 1. -/
def prbs31Next (h : List Bool) : Bool := h.getD 30 false ^^ h.getD 27 false

/-- The bit that PRBS13 predicts: x^13 + x^12 + x^2 + x + 1. -/
def prbs13Next (h : List Bool) : Bool :=
  h.getD 12 false ^^ h.getD 11 false ^^ h.getD 1 false ^^ h.getD 0 false

end Sys2Proof.Machine
end

