-- ==== Sys2Proof/Config.lean ====
section
/-! DEFINITION. What an implementation fixes and the free values: values the spec leaves open, as opaque
constants without a body.  A claim holds whatever they are. -/

namespace Sys2Proof.Config

/-- Word number `i` of a stream of values that the spec leaves open. DESIGN CHOICE, log entry 5: safe. -/
opaque freeWord : Nat → BitVec 64

/-- Outcome number `i` of a verification whose algorithm the spec takes from elsewhere.
DESIGN CHOICE, log entry 5: safe. -/
opaque freeBool : Nat → Bool

/-- Byte number `i` of a block of values that the spec leaves open. DESIGN CHOICE, log entry 5: safe. -/
opaque freeByte : Nat → BitVec 8

/-- Byte `i` beyond the values of a short MXFP8 super-block that starts at element `e` (R270): `e`, the values, `i`.
DESIGN CHOICE, log entry 5: safe. -/
opaque superRest : Nat → List Nat → Nat → BitVec 8

/-- The code of a packed lane whose result the spec does not state: format, x register, lane, its number.
DESIGN CHOICE, log entry 26: unsafe. -/
opaque openLane : Nat → Nat → BitVec 32 → Nat → BitVec 8

/-- Element `i` read out of a tile whose storage an order-free tile took: what the tile holds, `i`.
DESIGN CHOICE, log entry 26: unsafe. -/
opaque lostElement : List (Nat × Nat) → Nat → BitVec 32

/-- Byte `i` that a latch holds beyond the shorter operand of another format loaded there: that operand, `i`.
DESIGN CHOICE, log entry 26: unsafe. -/
opaque latchRest : List (BitVec 8) → Nat → BitVec 8

/-- The seed that the DRBG gives the random early drop register of an output at a module reset (R131): number of the
reset, output. DESIGN CHOICE, log entry 12: safe. -/
opaque lfsrSeed : Nat → Nat → BitVec 32

/-- SHA-384, an algorithm that the spec takes from elsewhere. DESIGN CHOICE, log entry 50: safe. -/
opaque sha384 : List (BitVec 8) → List (BitVec 8)

/-- HMAC-SHA-384 under a key (R416). DESIGN CHOICE, log entry 50: safe. -/
opaque hmac : List (BitVec 8) → List (BitVec 8) → List (BitVec 8)

/-- ECDSA P-384 verification: key, digest, signature (R413, R395). DESIGN CHOICE, log entry 50: safe. -/
opaque ecdsaOk : List (BitVec 8) → List (BitVec 8) → List (BitVec 8) → Bool

/-- ML-DSA-87 verification: key, digest, signature. DESIGN CHOICE, log entry 50: safe. -/
opaque mldsaOk : List (BitVec 8) → List (BitVec 8) → List (BitVec 8) → Bool

/-- The ECDSA P-384 and the ML-DSA-87 key pair that derive from a secret: private key, public key (R416).
DESIGN CHOICE, log entry 50: safe. -/
opaque ecdsaPair : List (BitVec 8) → List (BitVec 8) × List (BitVec 8)
/-- DESIGN CHOICE, log entry 50: safe. -/
opaque mldsaPair : List (BitVec 8) → List (BitVec 8) × List (BitVec 8)

/-- An ECDSA P-384 and an ML-DSA-87 signature: private key, message (R416, R433).
DESIGN CHOICE, log entry 50: safe. -/
opaque ecdsaSign : List (BitVec 8) → List (BitVec 8) → List (BitVec 8)
/-- DESIGN CHOICE, log entry 50: safe. -/
opaque mldsaSign : List (BitVec 8) → List (BitVec 8) → List (BitVec 8)

/-- The unique device secret (R417). DESIGN CHOICE, log entry 50: safe. -/
opaque uds : List (BitVec 8)

/-- Zelholt's certificate of the DeviceID public keys, given at manufacture (R416).
DESIGN CHOICE, log entry 50: safe. -/
opaque deviceCert : List (BitVec 8) × List (BitVec 8) → List (BitVec 8)

/-- The certificate of a layer's public keys: the issuing layer's private keys, the public keys (R416).
DESIGN CHOICE, log entry 50: safe. -/
opaque layerCert : List (BitVec 8) × List (BitVec 8) → List (BitVec 8) × List (BitVec 8) → List (BitVec 8)

/-- A certificate chain ends at a Zelholt root in the monitor's policy (R430). DESIGN CHOICE, log entry 50: safe. -/
opaque chainRooted : List (BitVec 8) → Bool

/-- The UID that a certificate chain names, and its last public keys (R430). DESIGN CHOICE, log entry 50: safe. -/
opaque chainUid : List (BitVec 8) → BitVec 64
/-- DESIGN CHOICE, log entry 50: safe. -/
opaque chainKeys : List (BitVec 8) → List (BitVec 8) × List (BitVec 8)

/-- ML-KEM-1024: the encapsulation key of a seed; ciphertext and shared secret of a key and random bytes; the shared
secret of a seed and a ciphertext (R427, R430). DESIGN CHOICE, log entry 50: safe. -/
opaque kemKey : List (BitVec 8) → List (BitVec 8)
/-- DESIGN CHOICE, log entry 50: safe. -/
opaque kemEncaps : List (BitVec 8) → List (BitVec 8) → List (BitVec 8) × List (BitVec 8)
/-- DESIGN CHOICE, log entry 50: safe. -/
opaque kemDecaps : List (BitVec 8) → List (BitVec 8) → List (BitVec 8)

/-- ECDH P-384: the share of a private key; the shared secret of a private key and a share.
DESIGN CHOICE, log entry 50: safe. -/
opaque ecdhShare : List (BitVec 8) → List (BitVec 8)
/-- DESIGN CHOICE, log entry 50: safe. -/
opaque ecdhSecret : List (BitVec 8) → List (BitVec 8) → List (BitVec 8)

/-- HKDF-SHA-384: salt, input key material, info; 72 bytes (R430). DESIGN CHOICE, log entry 50: safe. -/
opaque hkdf : List (BitVec 8) → List (BitVec 8) → List (BitVec 8) → List (BitVec 8)

/-- The tag of an AES-256-GCM encryption: key, IV, additional data, plaintext (R431).
DESIGN CHOICE, log entry 50: safe. -/
opaque gcmTag : List (BitVec 8) → List (BitVec 8) → List (BitVec 8) → List (BitVec 8) → List (BitVec 8)

/-- What the policy block in the monitor's signed data gives a word of SPG_POLICY and a Hound source's severity: digest of
the stage-1 image, index (R420, R476). DESIGN CHOICE, log entry 50: safe. -/
opaque policyHash : List (BitVec 8) → Nat → BitVec 32
/-- DESIGN CHOICE, log entry 50: safe. -/
opaque policySev : List (BitVec 8) → Nat → BitVec 3

/-- The module's UID (R96). DESIGN CHOICE, log entry 50: safe. -/
opaque uid : BitVec 64

/-- The fused key manifest: the hash of the ECDSA key and that of the ML-DSA key for each KEYIDX (R414).
DESIGN CHOICE, log entry 50: safe. -/
opaque manifest : Nat → List (BitVec 8) × List (BitVec 8)

/-- Whether a KEYIDX is revoked by fuse (R414). DESIGN CHOICE, log entry 50: safe. -/
opaque revoked : Nat → Bool

/-- The fused hashes of the debug authority's keys (R435). DESIGN CHOICE, log entry 50: safe. -/
opaque debugKeys : List (BitVec 8) × List (BitVec 8)

end Sys2Proof.Config
end

