-- ==== Sys2Proof/Machine/FabricState.lean ====
section
/-! DEFINITION. The state of lanes, links, switch core and network interface (spec/02 to spec/05, spec/14):
what the registers do not hold themselves. -/

namespace Sys2Proof.Machine

/-! ## Lanes and ports (spec/02) -/

/-- The states of R38, numbered as LNE_PSTS.STATE. -/
inductive PSt where
  | off | detect | train | bitlock | marklock | capx | step | active | test | sleep
  deriving DecidableEq, Repr

def PSt.code : PSt → Nat
  | .off => 0 | .detect => 1 | .train => 2 | .bitlock => 3 | .marklock => 4
  | .capx => 5 | .step => 6 | .active => 7 | .test => 8 | .sleep => 9

/-- What a width change is for (R49, R54, R57, R58). -/
inductive WKind where
  | fallback | restore | sleep
  deriving DecidableEq, Repr

/-- A width change in progress. -/
structure WChange where
  kind : WKind
  width : Nat
  map : BitVec 4
  txAt : BitVec 14              -- this end's switch index
  rxAt : Option (BitVec 14)     -- the far end's switch index, once named
  sentAck : Bool := false
  txDone : Bool := false
  rxDone : Bool := false
  oldWidth : Nat
  oldMap : BitVec 4
  tx : BitVec 4                 -- this end's transmit lanes after the change
  deriving DecidableEq, Repr

structure Port where
  st : PSt := .off
  rung : Nat := 0
  ceil : Nat := 3
  ceilClr : Bool := false       -- CEILCLR written; the next bring-up starts with ceiling 3 (R64)
  width : Nat := 0
  map : BitVec 4 := 0           -- active logical lanes
  tx : BitVec 4 := 0            -- this end's lanes that transmit, physical numbers
  farRungs : BitVec 4 := 0
  stepFails : Nat := 0
  climbing : Bool := false      -- on the main path (R39); otherwise without climbing (R43)
  testing : Bool := false       -- on the way to TEST (R63)
  fails : Nat := 0              -- failed attempts at this rung, or failed runs of the sequence
  worked : Option Nat := none   -- the last rung that worked in this climb (R42)
  hold : Bool := false          -- the 100 ms NOLINK hold has not ended (R44)
  retained : BitVec 4 := 0      -- the retained width of R58, physical lanes; 0 = none
  capFar : Bool := false        -- a valid CAP has been received at this rung (R41)
  farAck : Bool := false
  farStep : Bool := false
  acksSent : Nat := 0           -- CAP blocks sent with ACK set after the far end's first ACK
  stepSent : Bool := false
  farCaps : W16 := 0
  ownCart : W32 := 0            -- cartridge identity read at the entry to DETECT (R500)
  ident : Option Ident := none  -- identity record of the last CAPX (R114)
  prevId : Option Ident := none -- identity at the previous entry to ACTIVE (R98)
  prevSame : Bool := false      -- the present come-up is without climbing (R98)
  order : Nat := 0              -- when the port entered ACTIVE, counted over all ports (R99)
  upAt : Nat := 0               -- and the module time of that entry
  chg : Option WChange := none
  paused : Bool := false        -- IDLE blocks only, around a restore's switch index (R54)
  mseq : W16 := 0
  setIdx : BitVec 14 := 0       -- codeword-set index (R32)
  sinceFill : Nat := 0          -- port stream blocks sent since the last FILLER (R36)
  forced : Bool := false        -- held in OFF until module reset (R70, R468)
  sleepWait : Option (BitVec 4) := none   -- SLEEPREQ written during a width change (R59)
  deriving DecidableEq, Repr

structure Lane where
  bitLock : Bool := false
  markLock : Bool := false
  asleep : Bool := false
  entering : Bool := false      -- sleep entry in progress (R56)
  exiting : Bool := false       -- sleep exit in progress (R56)
  excluded : Bool := false
  polInv : Bool := false
  seen : Bool := false          -- a MARKER has been received since the last come-up
  farLane : BitVec 2 := 0
  skew : Nat := 0
  early : Nat := 0              -- of a lane that is not active: how long before the earliest active lane (R35)
  lossTimes : List Nat := []    -- times of the losses within the last second (R53)
  ucRun : Nat := 0              -- uncorrectable codewords in a row (R47)
  lost : Bool := false          -- lost and retraining in the background
  ready : Bool := false         -- ready to rejoin (R53)
  lastSeq : Option W16 := none  -- MSEQ of the last MARKER found
  missed : Nat := 0
  tapPre : Int := 0
  tapMain : Int := 0
  tapPost : Int := 0
  rdyRun : Nat := 0             -- frames in a row with RXREADY exchanged (R38)
  status : Byte := 0            -- status field of the training frames sent on this lane (R38)
  precode : BitVec 2 := 0       -- p(n-1) of R25
  txScr : BitVec 58 := 0        -- scramblers of R30
  rxScr : BitVec 58 := 0
  rxSet : BitVec 14 := 0        -- codeword-set index of the last codeword received (R32)
  prbs : List Bool := []        -- the last received pattern bits (R61), newest first
  sync : Bool := false          -- LNE_PRBS.SYNC
  deriving DecidableEq, Repr

/-- A block of 257 bits (R26): header bit and 32 bytes; `bad` in the receiver when its codeword could not be corrected
(R28). -/
structure Blk where
  ctrl : Bool
  bytes : List Byte
  bad : Bool := false
  deriving DecidableEq, Repr

/-- The coding of a port's lanes (R24 to R32, R37, R61).  Lanes are numbered 0 to 3 within the port. -/
structure Phy where
  stream : List Blk := []              -- blocks of the port stream that wait for a codeword set
  marks : List (Nat × W32) := []       -- TIME messages whose header byte 0 waits there: blocks ahead of it, NSEQ (R379)
  local' : Tbl (List Blk) := []        -- lane-local blocks that wait for the first position of a lane's codeword
  line : Tbl (List (BitVec 2)) := []   -- what a transmit lane sent last: level indices on PAM4, 0 and 3 on NRZ
  gen : Tbl (List Bool) := []          -- pattern generators: the bits sent last, newest first (R61)
  deskew : Tbl (List (BitVec 14 × List Blk)) := []  -- decoded codewords of a logical lane, with their set index
  received : List Blk := []            -- the set reassembled last, FILLER blocks deleted (R29, R37)
  deriving DecidableEq, Repr

/-! ## Links (spec/03) -/

/-- A link unit in the replay buffer (R77); `ends` names the packets whose last byte it carries: number and input
position, none where the loss of the packet has been counted already (R149). -/
structure TxUnit where
  seq : BitVec 12
  vc : BitVec 3
  bytes : List Byte
  ends : List (Nat × Option Nat)
  deriving DecidableEq, Repr

/-- A link unit in receive staging: the stream range it brought and how many of its bytes have not left. -/
structure RxUnit where
  lo : Nat
  hi : Nat
  rem : Nat
  deriving DecidableEq, Repr

/-- The receive side of one channel. -/
structure RxVc where
  bytes : List Byte := []       -- bytes that belong to no parsed packet yet
  off : Nat := 0                -- stream offset of the next byte to arrive
  left : Nat := 0               -- bytes still to come of the packet last parsed
  junk : List Byte := []        -- bytes of that packet so far, once it is discarded: its check is still made (R95)
  flow : Option Nat := none     -- that packet, while the module keeps it; none = its bytes are discarded
  also : List Nat := []         -- mirror copies of that packet
  units : List RxUnit := []
  deriving DecidableEq, Repr

structure Link where
  framed : Bool := false
  nakWait : Bool := false
  sepSeen : Bool := false       -- an IDLE has come since the NAK (R79)
  quar : Bool := false          -- quarantined by R97
  dup : Bool := false           -- quarantined by R99
  expE : BitVec 12 := 0
  accepted : Bool := false      -- ACKV
  txSeq : BitVec 12 := 0
  anySent : Bool := false       -- a unit has been sent since the entry to ACTIVE
  wrapped : Bool := false       -- every sequence number has been sent since then
  retries : Nat := 0
  replay : List TxUnit := []
  replayAt : Option (Nat × Bool) := none   -- time of the last replay's start, and whether a timeout started it (R80)
  begun : List (Nat × W32) := []  -- TIME messages that begin in the unit being formed: offset, NSEQ (R379)
  resend : Nat := 0             -- how many units at the end of `replay` still wait to be sent again
  needIdle : Bool := false
  nakOut : Bool := false        -- the next frame carries NAK
  farTot : List (BitVec 12) := List.replicate 8 0
  credits : List Nat := List.replicate 8 0
  outTot : List (BitVec 12) := List.replicate 8 0
  rx : Tbl RxVc := []
  last : Option Frame := none   -- the last frame sent
  deriving DecidableEq, Repr

structure Sweep where
  busy : Bool := false
  pos : Nat := 0
  events : Nat := 0
  snap : Tbl Nat := []          -- LNK_SNAP words, index 4 * port + k
  deriving DecidableEq, Repr

/-! ## Switch core (spec/04) -/

inductive CellSt where
  | waiting | flying | arrived | released | lost
  deriving DecidableEq, Repr

/-- A cell of an admitted packet: sequence number in its triple, plane, and where it is (R120, R133). -/
structure CellRec where
  seq : Nat
  plane : Nat
  st : CellSt
  deriving DecidableEq, Repr

/-- Why a packet is dropped: the causes of R149 in table order, and the quarantine of R126. -/
inductive Cause where
  | wred | tail | portdown | mirror | safchk | malformed | ktag | noroute | lifetime | gen | flush | plane
  | quarantine
  deriving DecidableEq, Repr

def Cause.idx : Cause → Nat
  | .wred => 0 | .tail => 1 | .portdown => 2 | .mirror => 3 | .safchk => 4 | .malformed => 5 | .ktag => 6
  | .noroute => 7 | .lifetime => 8 | .gen => 9 | .flush => 10 | .plane => 11 | .quarantine => 12

/-- A packet inside the switch core, from its admission request to its last byte. -/
structure Flow where
  id : Nat
  inp : Nat                     -- crossbar position it entered at
  out : Nat                     -- crossbar position it leaves at
  vc : Nat                      -- ingress VC
  evc : Nat                     -- egress VC
  hdr : Packet                  -- header as rewritten at ingress (R89); payload and check are in `bytes`
  total : Nat                   -- packet bytes, header and check included
  bytes : List Byte             -- bytes received so far
  off : Nat := 0                -- stream offset of byte 0 in the input's receive staging
  cells : List CellRec := []    -- empty until admitted
  admitted : Bool := false
  held : Bool := false          -- a held request (R126)
  saf : Bool := false           -- store-and-forward, fixed at admission (R135)
  chkBad : Bool := false        -- the ingress check has failed (R95)
  cutShort : Bool := false      -- the rest is sent as zero bytes (R141, R168)
  started : Bool := false
  sent : Nat := 0               -- bytes sent at the output
  rel : Nat := 0                -- order of release of its cell 0
  mirror : Option Nat := none   -- the mirror session that made this copy (R145)
  mirIn : Bool := false         -- an ingress copy: it is made once its check has passed
  trunc : Bool := false         -- an ingress copy that will carry cell 0 only (R146)
  copied : List Nat := []       -- analysis ports that have a copy of this packet (R148)
  twinAt : Option Nat := none   -- time at which the elimination of R445 accepted this twin copy
  at' : Nat := 0                -- arrival of the header, or the forming of the packet
  deriving DecidableEq, Repr

/-- A port output (R124, R126, R130, R138). -/
structure Outp where
  occ : List Nat := [0, 0, 0, 0]        -- reserved cells per class
  mirOcc : Nat := 0                     -- reserved cells of mirror copies
  avg : List Nat := [0, 0, 0, 0]        -- averages, 8 fraction bits
  lfsr : Option W32 := none             -- random early drop register; none before its first draw (R131)
  lastCls : Nat := 3                    -- class whose held request was decided last
  round : List Nat := []                -- held requests decided in this slot
  deficit : List Nat := [0, 0, 0, 0]
  cls : Nat := 0                        -- class the round robin stands at
  entered : Bool := false               -- its quantum of this round has been added
  cur : List (Option Nat) := List.replicate 8 none   -- packet in progress on each VC
  deriving DecidableEq, Repr

structure Xbr where
  nextId : Nat := 0
  flows : List Flow := []               -- in the order the requests were made
  outs : Tbl Outp := []
  gptr : Tbl Nat := []                  -- index 272 * plane + output
  aptr : Tbl Nat := []                  -- index 272 * plane + input
  seqs : Tbl Nat := []                  -- next sequence number, index per (input, output, VC)
  nextRel : Nat := 0
  drain : BitVec 4 := 0                 -- planes draining after a PLANEEN write (R143)
  up : BitVec 4 := 0xF
  intFree : Tbl Nat := []               -- free credit of internal positions, in cells (R128)
  choice : Tbl Nat := []                -- rotating pointers of R159
  resets : Nat := 0                     -- module resets so far, each of which seeds the registers of R131
  deriving DecidableEq, Repr

/-! ## Network interface (spec/05, spec/14) -/

/-- Whose packet an outstanding packet is. -/
inductive Owner where
  | cmd (k q : Nat) (seq : W32) (off : Nat)     -- of a command; `off` places its data
  | move (c id : Nat) (off : Nat)               -- of a core's transfer
  | coll (id member blk : Nat)                  -- of a collective
  | mirror (acc : Nat)                          -- the mirror write of a pool access
  | module                                      -- a message of the module itself
  | answer                                      -- an answer; never outstanding
  deriving DecidableEq, Repr

/-- A packet that waits for its answer (R104, R108). -/
structure Outst where
  pkt : Packet                  -- without its payload
  kennel : Nat                  -- its kennel; 4096 for KTAG 0
  ovf : Bool                    -- sent through the kennel's overflow window
  owner : Owner
  bytes : Nat                   -- payload bytes
  sentAt : Nat
  copies : Nat := 1             -- twin copies that may still be answered (R443)
  deriving DecidableEq, Repr

/-- A window slot, or a kennel's overflow window. -/
structure Window where
  pair : Option (W16 × Nat) := none     -- destination and kennel; of an overflow window its kennel, once it is in use
  psn : W16 := 0
  exp : Nat := 8                        -- rate and tokens have this many binary fraction digits
  rate : Nat := 100000 * 2 ^ 8          -- bytes per µs; the line rate at first (R182)
  tokens : Int := 0                     -- bytes, times 9,000,000, the module time units of a µs
  stamp : Nat := 0                      -- time the tokens were last brought up
  lastCut : Option Nat := none
  lastEcho : Option Nat := none
  lastInc : Option Nat := none
  twins : List (W16 × Nat) := []        -- PSNs and times of twin-marked sends (R446)
  deriving DecidableEq, Repr

/-- A packet formed in the network interface that waits for its turn (R181, R182). -/
structure Queued where
  id : Nat
  pkt : Packet
  owner : Owner
  port : Option Nat := none     -- a port it must leave on (R249, R379)
  deriving DecidableEq, Repr

/-- An elimination entry (R445, R447): head PSN and a 4,096-bit map below it. -/
structure TwinEntry where
  src : W16
  win : W16
  h : W16
  map : Nat
  deriving DecidableEq, Repr

structure Ni where
  inbox : List Arrival := []
  queue : List Queued := []
  nextQ : Nat := 0
  slots : Tbl Window := []              -- taken slots and slots whose PSN counter has moved
  ovf : Tbl Window := []                -- overflow windows, by kennel
  ovfPairs : List (W16 × Nat) := []     -- pairs in overflow windows, destination and kennel, in joining order
  outst : List Outst := []              -- oldest first
  twins : List TwinEntry := []
  deriving DecidableEq, Repr

/-! ## Tray control and resynchronisation (spec/14) -/

/-- The contents of the tray-mate's last MATE message (R453). -/
structure Mate where
  flags : Nat
  claim : W16
  spgver : Nat
  gpio : W32
  rails : W32
  mseq : W64
  deriving DecidableEq, Repr

/-- A resynchronisation in progress (R457). -/
structure Resync where
  id : Nat
  k : Nat
  page : Nat
  next : Nat := 0               -- next block to read
  copied : Nat := 0             -- blocks whose copy write has been answered
  deriving DecidableEq, Repr

structure TrayCtl where
  holder : Bool := false
  claiming : Bool := false      -- sending CLAIM frames (R450)
  claim : W16 := 0              -- current or last claim number
  highC : Option W16 := none    -- highest claim number seen
  lser : W16 := 0
  mseq : W64 := 0
  mate : Option Mate := none
  actA : Option Bool := none    -- acting position after a strap mismatch (R529)
  strapA : Bool := false
  strapTest : Bool := false
  leashOut : Option LeashFrame := none   -- last frame on LEASH_TX
  resync : Option Resync := none
  resyncs : Nat := 0            -- resynchronisations started so far
  deriving DecidableEq, Repr

end Sys2Proof.Machine
end

