-- ==== Sys2Proof/Machine/TenantState.lean ====
section
/-! DEFINITION. The state of kennels, queues, commands and the pool (spec/06, spec/07), of Hound's pending
actions (spec/15) and of the sampling queue (spec/17). -/

namespace Sys2Proof.Machine

/-! ## Kennels, queues and commands (spec/06) -/

/-- The lifecycle of R192, numbered as KNL_STS.STATE. -/
inductive KSt where
  | free | created | open | resetting | closing
  deriving DecidableEq, Repr

def KSt.code : KSt → Nat
  | .free => 0 | .created => 1 | .open => 2 | .resetting => 3 | .closing => 4

/-- A descriptor read ahead of issue (R203); `bad` is the status its slot could not be read with (R198). -/
structure Desc where
  seq : W32
  bytes : List Byte
  deriving DecidableEq, Repr

structure Queue where
  num : Nat := 0                    -- its index among the module's queues (CMD_QSTS)
  base : Nat := 0
  log2 : Nat := 6
  head : W32 := 0
  tail : W32 := 0
  ahead : List Desc := []           -- read and not issued
  skip : List W32 := []             -- cancelled before they were read or issued (R215)
  ring : Tbl (List Byte) := []      -- ring slots in queue SRAM (LT9600-S)
  collWait : Bool := false          -- the head command waits for a collective slot
  deriving DecidableEq, Repr

/-- A completion record and the whistle add that follows it (R220, R226). -/
structure Held where
  record : List Byte
  quietDrop : Bool                  -- no record is written, only the add (R227)
  add : Option (Nat × Nat)
  move : Option (Nat × Nat) := none -- the core and transfer of a program's post (R361)
  deriving DecidableEq, Repr

/-- A START barrier (R384): ring, barrier value fields as received. -/
structure Barrier where
  ring : Nat
  value : Nat
  count : Nat
  deriving DecidableEq, Repr

structure Kennel where
  st : KSt := .free
  ktag : W16 := 0
  gen : BitVec 4 := 0
  repro : Bool := false
  feat : W64 := 0                   -- the kennel's feature set (R407)
  everOpen : Bool := false
  fatal : Bool := false
  nWh : Nat := 0
  wh : Tbl Nat := []
  cqLog : Nat := 6
  ctail : W32 := 0
  chead : W32 := 0
  recs : Tbl (List Byte) := []      -- completion ring slots
  held : List Held := []
  lost : Nat := 0                   -- records lost to reset
  queues : Tbl Queue := []
  rankLoc : Nat := 0
  rankN : Nat := 0
  ranks : Tbl Nat := []
  root : Option Nat := none
  key : Option Nat := none
  viewMask : Nat := 0
  deriving DecidableEq, Repr

/-- An issued command. -/
structure Cmd where
  k : Nat
  q : Nat
  seq : W32
  desc : List Byte
  opc : Nat
  repro : Bool := false
  status : Nat := 0                 -- first failure detected (R229)
  done : Bool := false              -- every effect is complete; the record may be written
  outst : Nat := 0                  -- packets and pool accesses without an answer
  rd : Nat := 0                     -- next byte to read
  wr : Nat := 0                     -- next byte to write
  buf : Tbl (List Byte) := []       -- data read and not yet written, by offset
  pkts : Nat := 0
  bytes : Nat := 0                  -- bytes whose write has been answered
  cnt0 : Nat := 0
  cnt1 : Nat := 0
  cancelled : Bool := false
  cancelLost : Bool := false
  fen : Bool := false               -- the next packet is the first, and carries FEN (R175)
  issuedAt : Nat := 0
  coll : Option Nat := none         -- its collective
  prog : Option Nat := none         -- its program
  targets : List (Nat × W32) := []  -- commands a CANCEL reached, or a FENCE waits for
  deriving DecidableEq, Repr

/-! ## The pool (spec/07) -/

inductive PoolOp where
  | read (len : Nat)
  | write (data : List Byte)
  | faddI32 (v : W32)
  | faddI64 (v : W64)
  | faddF32 (v : W32)
  | cas (cmp swp : W64)
  deriving DecidableEq, Repr

/-- Who asked for a pool access. -/
inductive Asker where
  | fabric (pkt : Packet) (port : Nat)
  | cmd (k q : Nat) (seq : W32) (off : Nat)
  | retr (id blk : Nat)
  | core (c id : Nat)
  | resync (id : Nat)               -- a block of a resynchronisation
  | unit                            -- nobody waits
  deriving DecidableEq, Repr

/-- A pool access between its checks and its answer (R241, R251, R252). -/
structure PoolAcc where
  id : Nat
  k : Nat
  va : Nat
  op : PoolOp
  asker : Asker
  served : Bool := false            -- the local access is complete
  old : Nat := 0                    -- old value of an atomic
  mirrors : Nat := 0                -- mirror writes without an answer
  parts : List Nat := []            -- pseudo-channels that have served their part (R252)
  at' : Nat := 0
  deriving DecidableEq, Repr

structure Pool where
  mem : List Host.Cell := []        -- plaintext bytes by physical address
  errs : Tbl W16 := []              -- symbols of stored blocks in error (R245), by 64 · PA[38:6] + symbol
  fixes : List Nat := []            -- corrected blocks whose write-back waits for a Static entry (R373)
  accs : List PoolAcc := []
  nextAcc : Nat := 0
  slots : Tbl Nat := []             -- POL_SLOT entries that differ from R257
  inval : Option (Option Nat × Nat) := none   -- invalidation in progress: a kennel or every kennel, and the
                                              -- number of the first access it does not wait for
  drain : List Nat := []            -- pseudo-channels draining writes (R252)
  turn : Tbl Nat := []              -- the requester that each pseudo-channel served last (R252)
  scrubPos : Nat := 0
  rgnSet : Bool := false            -- POL_MONRGN has been written since reset
  retrain : Bool := false           -- accesses are held while the stacks retrain (R495)
  deriving DecidableEq, Repr

/-! ## Hound (spec/15) and sampling (spec/17) -/

/-- An action a sticky bit's rise calls for: source, effective severity, and the kennel it names. -/
structure HAct where
  src : Nat
  sev : Nat
  kennel : Option Nat
  deriving DecidableEq, Repr

structure Hound where
  todo : List HAct := []
  portFatal : List Nat := []    -- sources whose port-fatal action was taken, until their sticky bit is cleared (R466)
  deriving DecidableEq, Repr

structure SRec where
  session : Nat
  kennel : Nat
  bundle : Nat
  cycle : Nat
  deriving DecidableEq, Repr

/-! ## What a register access or a monitor call returned -/

structure HostIf where
  lastRead : W64 := 0
  status : Nat := 0
  value : W64 := 0
  deriving DecidableEq, Repr

end Sys2Proof.Machine
end

