-- ==== Sys2Proof/Machine/IslandState.lean ====
section
/-! DEFINITION. The state of the compute cores and of running programs (spec/09, spec/10). -/

namespace Sys2Proof.Machine

/-- The states of CMP_CSTS (R339). -/
inductive CSt where
  | free | scrub | idle | load | run | stopped | fault
  deriving DecidableEq, Repr

def CSt.code : CSt → Nat
  | .free => 0 | .scrub => 1 | .idle => 2 | .load => 3 | .run => 4 | .stopped => 5 | .fault => 6

/-- An accumulator tile (R311, R312): FP32 words in normal mode; 80-bit integers, special states and the
overflow flag in order-free mode.  Element (r, c) has index 64 r + c. -/
structure Tile where
  free : Bool := false          -- order-free mode
  eb : Int := 0
  ovf : Bool := false
  lost : Bool := false          -- contents unknown: its storage served an order-free tile (R312)
  n : Tbl Nat := []
  spec : Tbl Nat := []          -- 1 = +∞, 2 = −∞, 3 = NaN
  deriving DecidableEq, Repr

/-- A tensor operand on its way from scratchpad: format, bytes read so far, lines still to read (R307). -/
structure Operand where
  fmt : Nat
  lines : List Nat              -- lines of the operand not read yet
  bytes : List Byte             -- bytes read so far
  deriving DecidableEq, Repr

/-- What a result in flight writes when its latency ends (R342). -/
inductive Res where
  | s (r : Nat) (v : W64)
  | p (r : Nat) (v : Bool)
  | v (r : Nat) (lanes : List W32)
  | vGroups (r lane : Nat) (lanes : List W32)   -- lanes from `lane` on; the others unchanged
  | vBytes (r off : Nat) (bytes : List Byte)    -- bytes from `off` on; the others unchanged
  | x (r : Nat) (v : BitVec 320)
  | xScale (r n v : Nat)                        -- the first n scale bytes
  | xTscale (r : Nat) (v : W32)
  | xEb (r : Nat) (v : W16)
  | step (v : W64)
  | tile (a : Nat) (mode : Bool) (eb : Int)     -- tclr
  | latch (i : Nat) (o : Operand)               -- tlb: the write of its latch
  | tlbTail (i : Nat) (o : Operand)             -- tlb: the second cycle of its reads
  | tmmaTail (mask acc ls : Nat) (free : Bool) (o : Operand)  -- tmma: the second cycle of its reads
  deriving DecidableEq, Repr

structure Pend where
  issued : Nat                  -- cycle of issue
  due : Nat                     -- first cycle whose bundle may read the result
  res : Res
  deriving DecidableEq, Repr

/-- What a transfer of the move engine does (R357). -/
inductive MoveOp where
  | postRead (start va line n : Nat)
  | postWrite (start va : Nat) (data : List (List Byte))
  | load (va line n : Nat) (rank : Option Nat)
  | store (va line n : Nat) (rank : Option Nat) (twin : Bool)
  | atom (va : Nat) (aop : Nat) (opd cmp : W64) (rank : Option Nat) (line : Nat)
  | whs (w : Nat) (v : W64) (rank : Option Nat)
  | post (a b : W64)
  deriving DecidableEq, Repr

structure Move where
  id : Nat
  ctr : Nat
  op : MoveOp
  issued : Nat                  -- cycle of issue
  data : List (List Byte) := [] -- lines a served Static read entry brings, not landed yet
  served : Bool := false        -- its Static entry has been served
  started : Bool := false
  sent : Nat := 0               -- bytes already asked for
  outst : Nat := 0              -- requests without an answer
  landed : Nat := 0             -- bytes landed or answered
  deriving DecidableEq, Repr

/-- A line on the core network (R324). -/
structure NetLine where
  due : Nat
  src : Nat
  line : Nat
  data : List Byte
  deriving DecidableEq, Repr

/-- What a paused core waits for (R360). -/
inductive Wait where
  | whistle (w : Nat) (thr : W64)
  | counter (m : Nat) (thr : W64)
  deriving DecidableEq, Repr

structure Core where
  st : CSt := .free
  prog : Option Nat := none
  lidx : Nat := 0
  s : Tbl Nat := []
  p : BitVec 8 := 1
  v : Tbl (List W32) := []
  acc : Tbl Tile := []
  latch : Tbl (List Byte) := []             -- index 2 e + latch
  x : Tbl Nat := []
  m : Tbl Nat := []
  step : W64 := 0
  seed : BitVec 128 := 0
  spad : Tbl (List Byte) := []              -- 64-byte lines
  text : Tbl Nat := []                      -- 256-bit bundles
  nbun : Nat := 0
  pc : Nat := 0
  jumps : List (Nat × Nat) := []            -- bundles still to issue before a target, target (R346)
  ended : Option Nat := none                -- cycle of its end instruction
  waiting : Option Wait := none
  resumeAt : Nat := 0                       -- first cycle the waiting bundle may issue again
  pend : List Pend := []
  tBusy : Tbl Nat := []                     -- per tensor engine, first free cycle
  lUse : List (Nat × Nat × Nat) := []       -- latch index, first and last cycle of its use by a tmma
  lWr : List (Nat × Nat) := []              -- latch index, cycle of a tlb's write
  accNext : Tbl Nat := []                   -- per accumulator, first cycle of the next tmma into it
  accReady : Tbl Nat := []                  -- per accumulator, first cycle it may be read
  accWas : Tbl (Nat × Nat × Tile) := []     -- per accumulator, the cycle of the last addition, and what stood there before it
  vBusy : Tbl Nat := []                     -- per vector engine, first free cycle
  banks : List (Nat × Nat) := []            -- fixed accesses: cycle, bank (R321)
  moves : List Move := []
  nextMove : Nat := 0
  net : List NetLine := []                  -- lines that will land here
  level : Nat := 0                          -- governor level in steps (R488)
  held : Bool := false                      -- less than HOLD has passed since its program ended (R489)
  deriving DecidableEq, Repr

/-- A program from its LAUNCH to its end (R332 to R337). -/
structure Prog where
  id : Nat
  k : Nat
  q : Nat
  seq : W32
  cores : List Nat := []                    -- physical cores in logical order; empty until claimed
  ncore : Nat
  static : Bool
  placed : Option Nat                       -- CMASK
  sealed_ : Bool
  repro : Bool
  tlim : Nat := 0                           -- time limit in µs, 0 = none (R212)
  paddr : Nat
  aadr : W64
  step : W64
  seed : BitVec 128
  loaded : List Nat := []                   -- logical cores that have loaded
  lastLoad : Nat := 0
  t0 : Option Nat := none
  running : Bool := false
  status : Nat := 0
  ended : Nat := 0                          -- cores that have issued end
  endCyc : Nat := 0
  update : Option Nat := none               -- the collective whose program phase this is
  digested : Bool := false                  -- the tensor digests have been written (R390)
  deriving DecidableEq, Repr

structure Island where
  cores : Tbl Core := []
  progs : List Prog := []
  nextProg : Nat := 0
  adds : List (Nat × Nat × Nat × W64) := []   -- local whistle adds of a cycle: kennel, whistle, cycle, value before it
  deriving DecidableEq, Repr

end Sys2Proof.Machine
end

