-- ==== Sys2Proof/Machine/DetState.lean ====
section
/-! DEFINITION. The state of the time base, the START barriers and the Scent log (spec/11). -/

namespace Sys2Proof.Machine

/-- A START barrier armed for a queue's command (R384). -/
structure Start where
  k : Nat
  q : Nat
  seq : W32
  cycle : Nat
  deriving DecidableEq, Repr

/-- What a port remembers of the TIME messages (R379, R380), times in ps. -/
structure TimeRec where
  txLast : Nat := 0             -- send time of this end's last message
  txSeq : W32 := 0              -- sequence number of the next message to send
  rxLast : Nat := 0             -- receive time of the last message received
  rxSeq : W32 := 0              -- its NSEQ
  sent : List (W32 × Nat) := [] -- send times by NSEQ, newest first
  deriving DecidableEq, Repr

structure Det where
  pair : Option (Nat × Nat × Nat) := none   -- port, STAMP in ns and arrival in ps of the parent's first CAP with ACK
  recs : Tbl TimeRec := []
  good : Nat := 0                     -- offsets in a row within 0.1 ns
  trim : Int := 0                     -- rate trim in parts per 10^9 (R380)
  alignWait : Bool := false           -- an ALIGN write waits for its conditions (R383)
  barriers : List Start := []
  deriving DecidableEq, Repr

/-- A kennel's Scent log (R387 to R390). -/
structure Scent where
  va : Nat
  log2 : Nat
  mode : Nat                    -- 1 drop, 2 hold
  mask : Nat
  dig : Nat                     -- digest table VA
  nDig : Nat
  eno : Nat := 0
  written : Nat := 0
  consumed : Nat := 0           -- CONSUMED as last read
  lost : Nat := 0               -- records discarded and not yet reported
  deriving DecidableEq, Repr

end Sys2Proof.Machine
end

