-- ==== Sys2Proof/Machine/HartState.lean ====
section
/-! DEFINITION. What the Kelpie cluster holds beside its registers (R409, R410, R521): harts, SRAM, interrupt controller,
timers, debug module and test access port.  No command of the table steps a hart; commands boot, restart and enter them. -/

namespace Sys2Proof.Machine

/-- Privilege of a hart (R409). -/
inductive Priv where
  | u | s | m
  deriving DecidableEq, Repr

/-- One hart: RV64IMAFDC with Zicsr, Zicntr and Zihpm, 16 PMP entries with Smepmp (R409).  A register not listed holds 0. -/
structure Hart where
  run : Bool := false               -- out of reset (R410)
  halted : Bool := false            -- by the debug module
  priv : Priv := .m
  pc : W64 := 0x01000000            -- the reset vector, at the base of the boot ROM (R521)
  x : Tbl Nat := []                 -- x1 to x31
  f : Tbl Nat := []                 -- f0 to f31
  csrs : Tbl Nat := []              -- control and status registers by number; PMP and Smepmp among them
  resv : Option Nat := none         -- the address that a load-reserved holds
  deriving DecidableEq, Repr

/-- The interrupt controller: 256 sources, and an M and an S context of each hart (R409). -/
structure Plic where
  prio : Tbl Nat := []              -- priority, by source
  enable : Tbl Nat := []            -- enable words, by 8 * context + word
  threshold : Tbl Nat := []         -- by context
  claimed : List (Nat × Nat) := []  -- context and source
  deriving DecidableEq, Repr

/-- Machine timer and software interrupts, by hart (R521). -/
structure Aclint where
  msip : Tbl Nat := []
  mtimecmp : Tbl Nat := []
  deriving DecidableEq, Repr

/-- The test access port of IEEE 1149.1 and the debug module behind it (R409). -/
structure DebugUnit where
  tap : Nat := 0                    -- state of the port: 0 = Test-Logic-Reset
  ir : Nat := 1                     -- instruction register
  dmi : Tbl Nat := []               -- debug module registers by address
  deriving DecidableEq, Repr

/-- A hart in reset.  misa shows I, M, A, F, D, C, S and U, mstatus 64-bit S and U modes, mhartid the hart.
PRESUMED, log entry 96: unsafe. -/
def Hart.inReset (n : Nat) : Hart :=
  { csrs := [(0x300, 0xA00000000), (0x301, 0x800000000014112D)] ++ (if n = 0 then [] else [(0xF14, n)]) }

/-- The harts after a reset of the cluster: hart 0 runs the boot ROM in M mode, the others are held (R410). -/
def resetHarts : List Hart := { Hart.inReset 0 with run := true } :: [1, 2, 3].map Hart.inReset

/-- A hart goes on at an address in a mode. -/
def Hart.enter (p : Priv) (pc : Nat) (h : Hart) : Hart :=
  { h with run := true, priv := p, pc := BitVec.ofNat 64 pc, resv := none }

/-- The canonical form of SRAM: addresses strictly rising, and no entry equal to the 0 that an unlisted one reads as. -/
def sramWf (t : Tbl Byte) : Bool := Tbl.sorted t && t.all fun c => c.2 != 0

/-- Bytes placed in SRAM from an address on. -/
def sramStore : Nat → List Byte → Tbl Byte → Tbl Byte
  | _, [], t => t
  | a, b :: d, t => sramStore (a + 1) d (Tbl.put t a b 0)

end Sys2Proof.Machine
end

