-- ==== Sys2Proof/Machine/ModuleState.lean ====
section
/-! DEFINITION. The state of Kelpie, its key store and link keys (spec/13), and of the power manager and the
Tray Control Link (spec/16). -/

namespace Sys2Proof.Machine

/-! ## Kelpie -/

/-- What Kelpie runs. -/
inductive KMode where
  | rom          -- the boot ROM, before it has booted an image
  | reporter     -- the ROM reporter only (R411, R414, R473)
  | monitor      -- the monitor, before it has locked its region
  | running      -- the monitor and the firmware
  deriving DecidableEq, Repr

/-- What a link slot holds (R428): a 256-bit key and a 32-bit salt for each direction. -/
structure LinkKeys where
  tx : List Byte
  txSalt : List Byte
  rx : List Byte
  rxSalt : List Byte
  deriving DecidableEq, Repr

/-- What an identity slot holds (R416): a layer's secret and its key pairs, private key first. -/
structure IdSlot where
  secret : List Byte
  ecdsa : List Byte × List Byte
  mldsa : List Byte × List Byte
  deriving DecidableEq, Repr

/-- An operand of a locked sequence (R438). -/
inductive SeqOp where
  | monLock (size : Nat)
  | lifecycle (target : Nat)
  | svn (boot fw : Nat)
  | identity (slot : Nat) (x : IdSlot)
  | link (port : Nat) (keys : LinkKeys)
  deriving DecidableEq, Repr

/-- Keys and records of an encrypted link (R430, R431).  Unit numbers count the units sent or accepted since the
port entered ACTIVE. -/
structure LinkSec where
  initiator : Bool := false
  secret : List Byte := []          -- this end's secrets of the exchange in progress
  script : List Byte := []          -- its messages so far, signatures apart
  msgs : Nat := 0                   -- key messages sent or received so far; 4 after a failure
  inTotal : Nat := 0                -- bytes of the message coming in
  inFrags : Tbl (List Byte) := []   -- its fragments, by offset
  txSent : Nat := 0                 -- units sent
  rxGot : Nat := 0                  -- units accepted
  txNext : Option Nat := none       -- start unit announced and not reached, this end's
  rxNext : Option Nat := none       -- and the far end's
  slot : Option LinkKeys := none    -- the keys of the last exchange, in the link slot
  txKeys : Option (List Byte × List Byte × Nat) := none   -- key, salt and start unit in force, this end's
  rxKeys : Option (List Byte × List Byte × Nat) := none   -- and the far end's
  txRec : Nat := 0                  -- number of the record being sent
  txCount : Nat := 0                -- its units so far
  txXor : List Byte := List.replicate 16 0   -- and the XOR of their tags
  rxRec : Nat := 0                  -- number of the next record to be checked
  rxTags : List (List Byte) := []   -- tags of the encrypted units accepted and not checked
  rxOld : Option (Nat × List (List Byte)) := none   -- next record and unchecked tags under the keys before
  deriving DecidableEq, Repr

/-- An answer of the SPDM responder (R433): the request's code and the bytes that answer it. -/
structure SpdmAnswer where
  code : Nat
  body : List Byte
  deriving DecidableEq, Repr

structure Kelpie where
  mode : KMode := .rom
  lcs : Nat := 2                    -- lifecycle fuses
  lcsNext : Option Nat := none      -- a transition fused, effective at the next reset
  svnBoot : Nat := 0                -- fused floors
  svnFw : Nat := 0
  bootSvn : Nat := 0                -- SVN of the running stage-1 image
  fwSvn : Nat := 0                  -- SVN of the running firmware
  monSize : Nat := 0                -- MONSIZE of the running stage-1 image
  sentry : Nat := 0                 -- SENTRY of the running firmware
  imageDig : List Byte := []        -- digest of the running stage-1 image
  fwDig : List Byte := []           -- digest of the running firmware
  bootState : List Byte := []       -- what layer 0 measured at boot (R416)
  hidden : Bool := false            -- the UDS hide latch (R417)
  ids : List IdSlot := []           -- identity slots of the layers derived so far (R416)
  regionKey : List Byte := []       -- identity slot of the monitor region's key (R523)
  keys : Tbl (List Byte) := []      -- kennel slots of the key store, 64 bytes each
  links : Tbl LinkSec := []         -- link slots and link sessions
  challenge : Option (List Byte) := none   -- the challenge last issued and not used (R435)
  seqAt : Option Nat := none        -- time of KLP_SEQ.OPEN
  seqOps : List SeqOp := []         -- operands of the open sequence
  policyIn : Bool := false          -- the policy block has been written since module reset (R420)
  certLost : Bool := false          -- an event of R439 has ended the certified configuration until module reset
  spdm : Nat := 0                   -- 1 after GET_VERSION, 2 after GET_CAPABILITIES, 3 after NEGOTIATE_ALGORITHMS
  transcript : List Byte := []      -- bytes that the next SPDM signature covers
  answer : Option SpdmAnswer := none
  report : Option (Nat × Nat) := none      -- CSR address and value of the reporter's last answer
  harts : List Hart := resetHarts
  sram : Tbl Byte := []             -- the 2 MiB of SRAM, by address
  plic : Plic := {}
  aclint : Aclint := {}
  debug : DebugUnit := {}
  deriving DecidableEq, Repr

/-! ## Power and TCL -/

/-- Where the power sequencer stands. -/
inductive PwrSeq where
  | off          -- rails from IO on are off
  | wait         -- off, with the 50 ms of R485 running
  | early        -- R481 in progress
  | run          -- early sequence complete; data-plane rails as PWR_STS.STATE says
  | late         -- R482 in progress
  | train        -- stacks in training
  | down         -- R483 in progress
  deriving DecidableEq, Repr

/-- A transaction on the Tray Control Link (R497 to R499). -/
inductive TclPhase where
  | idle
  | start        -- waits for the bus
  | backoff      -- waits after a collision
  | answer       -- waits for the endpoint
  deriving DecidableEq, Repr

structure Tcl where
  phase : TclPhase := .idle
  bytes : List Byte := []       -- frame bytes 1 to 9 + LEN, CLAIM inserted
  sends : Nat := 0
  auto : Bool := false          -- a WRITE the holder sends for a change of PWR_TRAYRAIL
  out : List Byte := []         -- last frame put on the bus, SOF and CRC included
  queue : List (List Byte) := []   -- frames for changes of PWR_TRAYRAIL that wait for the bus
  tseq : Byte := 0
  deriving DecidableEq, Repr

structure Pwr where
  seq : PwrSeq := .run
  enabled : Nat := 0xF          -- rails enabled
  wasGood : Nat := 0xF          -- rails that have been good since their enable
  full : Bool := false          -- the power-down takes KLP and IO as well
  supply : Bool := true         -- SUPPLY_OK
  posaPin : Bool := false       -- STRAP_POSA, as it stood when SUPPLY_OK rose
  testPin : Bool := false       -- STRAP_TEST
  upWaits : Bool := false       -- a write of UP that waits for the 50 ms (R485)
  wait50 : Bool := false        -- the 50 ms after DOWN have not passed
  offReq : Bool := false        -- PWR_OFF_REQ
  fabReset : Bool := true       -- the fabric die's reset is held (R482, R483)
  cmpReset : Bool := true       -- and the compute die's
  credit : Nat := 0             -- governor credit in mW (R490)
  calib : Bool := false
  deriving DecidableEq, Repr

end Sys2Proof.Machine
end

