-- ==== Sys2Proof/Machine/RetrieverState.lean ====
section
/-! DEFINITION. The state of the Retriever (spec/08). -/

namespace Sys2Proof.Machine

/-- A stage of a collective as this module sees it: level (0 rack, 1 tray, 2 hall X, 3 hall Y), the members'
endpoint identities in ordinal order, and this module's ordinal in a module-level stage (R261, R262). -/
structure Stage where
  level : Nat
  members : List Nat
  me : Option Nat
  deriving DecidableEq, Repr

/-- A collective from its issue to its command's record.  Staged data comes in pieces of at most 4,096 bytes; a key of
a stage s and a block b is s * 2^20 + b. -/
structure Coll where
  id : Nat
  k : Nat
  q : Nat
  seq : W32
  opc : Nat
  group : Nat
  self_ : Bool := false             -- SELF of the group
  stages : List Stage := []         -- the stages this module takes part in, stage 0 first
  nstg : Nat := 0                   -- stages of the group
  ring : Bool := false              -- the group has a ring stage
  topLead : Bool := false
  inTop : Bool := false             -- its stage 0 is that of the top lead
  repro : Bool := false
  stoch : Bool := false
  inF : Nat := 0
  outF : Nat := 0
  rop : Nat := 0
  chunk : Nat := 14
  chunkW : Option Nat := none
  saddr : Nat := 0
  daddr : Nat := 0
  len : Nat := 0
  root : Nat := 0xFFFF
  raddr : Nat := 0
  launch : List Byte := []          -- UPDATE: the LAUNCH descriptor read at issue (R274)
  seed : Nat := 0                   -- the key block of R284
  step : Nat := 0
  stream : Nat := 0
  reserve : Nat := 0
  w : Nat := 1                      -- chunks in flight per stage, as RTV_CTL stood at admission
  tmo : Nat := 0                    -- late-member timeout in 100 µs, as RTV_CTL stood at admission
  admitted : Bool := false
  cseq : Option Nat := none
  staged : Tbl (List Byte) := []    -- input pieces: ((128 * stage + member) * 2^20 + block) * 4 + piece
  pool : Tbl (List Byte) := []      -- the module's own input at SADDR as it has been read, by block
  asked : List Nat := []            -- blocks of it that have been asked for
  arrived : Tbl (List Nat) := []    -- stage-0 members in the order their blocks arrived, by block
  decl : Tbl Nat := []              -- declared counts, 128 * stage + member
  own : Tbl (List Nat) := []        -- results of a stage that wait for the next one
  passed : List Nat := []           -- blocks whose result a stage has formed and checked
  down : Tbl (List Byte) := []      -- result pieces, block * 4 + piece
  downDecl : Option Nat := none     -- entries of the result (R277)
  declUp : Bool := false            -- the up-phase declaration has been sent
  declDown : Bool := false          -- the result's declarations have been sent
  upSent : List Nat := []           -- blocks whose up-phase packets have been sent
  spread : List Nat := []           -- result blocks forwarded, delivered and written
  outst : Tbl Nat := []             -- answers awaited, by block; 2^20 for declarations
  redo : List (Nat × Nat × Nat) := []   -- chain copies to send again: stage, first ordinal, block
  redone : List (Nat × Nat × Nat) := [] -- copies ever put there
  rechecked : List Nat := []        -- chunks recomputed once
  unreached : Nat := 0
  ports : Nat := 0
  skips : Tbl Nat := []             -- skipped ordinals, by stage
  late : Nat := 0
  uplate : Bool := false
  cameAt : Option Nat := none       -- when a packet of it was last landed (R296)
  overAt : Option Nat := none       -- when it ended
  rechk : Nat := 0
  sats : Tbl Nat := []              -- saturated elements, by result block
  done : Nat := 0                   -- chunks done in the present data phase (R293)
  doneAll : Nat := 0
  stopAt : Option Nat := none       -- a CANCEL lets only the chunks below it run (R215)
  begun : List Nat := []            -- the chunks that had started when the CANCEL came
  phase : Nat := 0                  -- 0 data, 1 program (UPDATE), 2 delivery
  prog : Option Nat := none
  status : Nat := 0
  isOver : Bool := false              -- ended at this module; its command's record is not written yet
  deriving DecidableEq, Repr

structure Retriever where
  colls : List Coll := []
  nextId : Nat := 0
  early : List Arrival := []        -- early packets in staging (R268)
  next : Tbl Nat := []              -- sequence table: NEXT + 1 of kennel * 8192 + group
  deriving DecidableEq, Repr

end Sys2Proof.Machine
end

