-- ==== Sys2Proof/Machine/SprigState.lean ====
section
/-! DEFINITION. The Sprig banks and the armed flip (spec/12). -/

namespace Sys2Proof.Machine

/-- One entry of the wiring plan (R394): the far end of a port. -/
structure WireEntry where
  uid : W64 := 0
  port : Byte := 0
  kind : Byte := 0xFF
  cart : W32 := 0
  deriving DecidableEq, Repr

/-- One Sprig bank. -/
structure Bank where
  version : Nat := 0
  regs : Tbl Nat := []              -- register fields that differ from the template
  wiring : Tbl WireEntry := []
  roles : Tbl Nat := []             -- port roles that differ from R20
  mcg : Tbl (Nat × Nat) := []       -- RTE_MCG words of defined groups
  grp : Tbl (Nat × Nat × Nat × Nat) := []   -- RTV_GRP words of defined groups
  power : List Byte := []           -- section 0x08; empty = its template
  flags : Nat := 3                  -- telemetry FLAGS (R515)
  dig : List Byte := []             -- digest of the image (R434)
  deriving DecidableEq, Repr

/-- An armed flip (R398, R400). -/
structure Armed where
  tf : Nat
  master : Nat
  op : Nat                          -- 1 = COMMIT, 2 = ROLLBACK
  version : Nat
  newEpb : Bool
  deriving DecidableEq, Repr

structure Sprig where
  staged : Option Bank := none
  active : Bank := {}
  previous : Option Bank := none
  plan : Bool := false              -- a wiring plan is in force: a commit has taken place
  epb : Bool := false
  rbok : Bool := false
  armed : Option Armed := none
  staging : Option (List Byte) := none   -- the image of the stage in progress
  drain : Bool := false             -- before the drain end; PREVIOUS serves lookups
  drainEnd : Nat := 0               -- ns
  deriving DecidableEq, Repr

end Sys2Proof.Machine
end

