-- ==== Sys2Proof/Machine/State.lean ====
section
/-! DEFINITION. The state of the module, the reasons a step can stop, and the module right after reset. -/

namespace Sys2Proof.Machine

/-- The variants of R1. -/
inductive Part where
  | a | g | m | s
  deriving DecidableEq, Repr

/-- Everything the spec gives the module. -/
structure State where
  pending : List Instr := []
  part : Part := .a
  time : Nat := 0                   -- module time base in ninths of a picosecond (R377)
  ref : Nat := 0                    -- time of the references, which no trim or step moves, in 10^-9 of that unit (R380, R494)
  cyc : W64 := 0                    -- CMP_CYC (R306)
  freeIdx : Nat := 0                -- the model's own counter behind the free values
  host : HostIf := {}
  csr : Tbl Nat := []               -- register fields that differ from their reset values
  ports : Tbl Port := []
  lanes : Tbl Lane := []
  phy : Tbl Phy := []               -- coding of the lanes, by port
  links : Tbl Link := []
  sweep : Sweep := {}
  activeCount : Nat := 0            -- entries to ACTIVE so far (R99)
  xbr : Xbr := {}
  ni : Ni := {}
  knl : Tbl Kennel := []
  binds : Tbl Nat := []             -- down ports bound to a kennel (R190)
  quarTags : List W16 := []         -- KTAGs in quarantine (R197)
  lastGen : Tbl Nat := []           -- last GEN used, by KTAG (R190)
  cmds : List Cmd := []             -- issued and incomplete, oldest first
  pool : Pool := {}
  cryptoErr : Bool := false         -- the crypto island is in its error state (R429)
  rtv : Retriever := {}
  isl : Island := {}
  tray : TrayCtl := {}
  spg : Sprig := {}
  det : Det := {}
  scents : Tbl Scent := []
  hnd : Hound := {}
  klp : Kelpie := {}
  pwr : Pwr := {}
  tcl : Tcl := {}
  samp : List SRec := []            -- the CTR_SREC queue (R513)
  deriving DecidableEq, Repr

/-- Why the machine stops with a fault. -/
inductive Fault where
  /-- Raised by a command that names a port, lane, core, kennel or other unit whose index lies outside the
  module's ranges: the module has no such unit, so no such step can happen.  Safe: the model stops. -/
  | noSuchUnit
  deriving DecidableEq, Repr

/-- Why a command has no meaning. -/
inductive Refusal where
  /-- Raised by an arm of `exec` whose command has no meaning yet.  Safe: the model stops. -/
  | notModelled (mnemonic : String)
  deriving DecidableEq, Repr

/-- What a command answers. -/
abbrev Out := Host.Outcome State Fault Refusal

/-- The module right after reset: every register at the value its table gives.
DESIGN CHOICE, log entry 3: unsafe. DESIGN CHOICE, log entry 4: unsafe. -/
def State.reset : State := {}

end Sys2Proof.Machine
end

