-- ==== Sys2Proof/Machine/Ops.lean ====
section
/-! DEFINITION. The operations every unit shares: register fields, counters and their sampling (R5, R116,
R505, R513), time, the accessors of the units' tables, features (R405, R408), port roles (R20), and the
assertion of a Hound source (R460 to R466). -/

namespace Sys2Proof.Machine

/-! ## Answers -/

/-- The meaning of a command that a unit of index below `bound` runs. -/
def onUnit (i bound : Nat) (s : State) (f : State → State) : Out :=
  if i < bound then .next (f s) else .fault .noSuchUnit

/-- Takes `f` where the condition holds and leaves the state otherwise. -/
def cond' (b : Bool) (f : State → State) (s : State) : State := if b then f s else s

/-! ## Free values -/

/-- The next free value, and the state with the counter advanced. DESIGN CHOICE, log entry 5: safe. -/
def State.free (s : State) : W64 × State :=
  (Config.freeWord s.freeIdx, { s with freeIdx := s.freeIdx + 1 })

/-- The next free outcome. DESIGN CHOICE, log entry 5: safe. -/
def State.freeB (s : State) : Bool × State :=
  (Config.freeBool s.freeIdx, { s with freeIdx := s.freeIdx + 1 })

/-- The next `n` free bytes. DESIGN CHOICE, log entry 5: safe. -/
def State.freeBytes (s : State) (n : Nat) : List Byte × State :=
  ((upto n).map fun i => Config.freeByte (s.freeIdx + i), { s with freeIdx := s.freeIdx + n })

/-! ## Time (R377): ninths of a picosecond -/

/-- Time of the module's references and oscillators, whose frequency the time base does not set (R494). -/
def State.clock (s : State) : Nat := s.ref / 10 ^ 9

/-- The references' time in one compute cycle, 5/9 ns of module time (R377): the trim, in parts per 10^9, sets the rate of
the time base against them (R380). DESIGN CHOICE, log entry 36: unsafe. -/
def State.cycleRef (s : State) : Nat := (5000 * (10 ^ 9 - s.det.trim)).toNat

def State.nowNs (s : State) : Nat := s.time / 9000
def State.nowUs (s : State) : Nat := s.time / 9000000

/-! ## Function addresses (R92) -/

/-- A MGMT_MSG with KTAG 0 at a function address. -/
def isFunction (p : Packet) (addr : Nat) : Bool := p.opc == 0x20 && p.ktag == 0 && p.addr.toNat == addr

/-- The function address of the TIME messages (R379). -/
def timeAddr : Nat := 0xFFFFFFFFFF00

/-! ## Hound sources (R470) -/

/-- The default severity, the class of the Hound sources table. -/
def houndClass (i : Nat) : Nat :=
  if i < 576 then 1 else if i < 612 then 3 else if i < 676 then 2 else if i < 720 then 4
  else if i < 724 then 1 else if i = 724 then 4 else if i < 727 then 1 else if i < 729 then 4
  else if i = 729 then 1 else if i = 730 then 5 else if i = 731 then 1 else if i < 735 then 5
  else if i = 735 then 1 else if i < 740 then 6 else if i = 740 then 1 else if i = 741 then 5 else 0

/-- The floor of R465. -/
def houndFloor (i : Nat) : Nat :=
  if 612 ≤ i ∧ i < 676 then 2
  else if i = 733 ∨ i = 736 ∨ i = 737 ∨ i = 741 then 5
  else if i = 738 ∨ i = 739 then 6 else 0

inductive Scope where
  | port | group | kennel | module
  deriving DecidableEq, Repr

def houndScope (i : Nat) : Scope :=
  if i < 576 then .port else if i < 612 then .group else if i < 676 then .kennel else .module

/-! ## Register fields -/

/-- The number of bytes of one element of a register array (R525). -/
def Reg.bytes (r : Reg) : Nat := if r.wide then 8 else 4

/-- The place of a field in the register store: its element's address and its lowest bit. -/
def fkey (f : Fld) (i : Nat) : Nat := (f.reg.base + i * Reg.bytes f.reg) * 64 + f.lo

/-- The reset value of a field of element `i`: that of its table, which for three registers depends on the
element (R148, R185, R478). DESIGN CHOICE, log entry 3: unsafe. DESIGN CHOICE, log entry 66: unsafe. -/
def resetAt (f : Fld) (i : Nat) : Nat :=
  match f.reg with
  | .OUB_WRED =>
    if i % 3 = 0 then 0
    else if f.lo = 0 then (if i % 3 = 1 then 256 else 64)
    else if f.lo = 12 then (if i % 3 = 1 then 384 else 64)
    else (if i % 3 = 1 then 64 else 255)
  | .RTE_DIRP => if f.lo = 0 then 72 + 16 * i else f.reset
  | .HND_SEV => houndClass (8 * i + f.lo / 4)
  | _ => f.reset

/-- The stored value of a field of element `i`. -/
def State.rd (s : State) (f : Fld) (i : Nat := 0) : Nat := Tbl.get s.csr (fkey f i) (resetAt f i)

/-- Whether a one-bit field reads 1. -/
def State.rdB (s : State) (f : Fld) (i : Nat := 0) : Bool := s.rd f i != 0

/-- Stores a field. -/
def State.wr (s : State) (f : Fld) (v : Nat) (i : Nat := 0) : State :=
  { s with csr := Tbl.put s.csr (fkey f i) (v % 2 ^ f.w) (resetAt f i) }

/-- A field of Sprig content in a bank (R148, R402). -/
def Bank.rd (b : Bank) (f : Fld) (i : Nat := 0) : Nat := Tbl.get b.regs (fkey f i) (resetAt f i)

/-- A field of Sprig content as the ACTIVE bank gives it (R148). -/
def State.act (s : State) (f : Fld) (i : Nat := 0) : Nat := s.spg.active.rd f i

/-! ## Counters -/

/-- The sampling records that an increment of the counter at CSR address `a` from `v` to `w` calls for, in
ascending session order (R513). DESIGN CHOICE, log entry 76: safe. -/
def sampleEvents (s : State) (a v w : Nat) : List Nat :=
  (upto 16).filter fun n =>
    s.rdB F.CTR_SCTL_EN n && s.rd F.CTR_SCTL_SEL n == (a - 0x10000000) / 8 &&
    (w / 2 ^ s.rd F.CTR_SCTL_WIDTH n != v / 2 ^ s.rd F.CTR_SCTL_WIDTH n)

/-- Queues one sampling record; a full queue drops it and counts (R513). DESIGN CHOICE, log entry 76: safe. -/
def pushSample (s : State) (r : SRec) : State :=
  if s.samp.length < 64 then { s with samp := s.samp ++ [r] }
  else s.wr F.CTR_SLOST_CNT_COUNT (min (s.rd F.CTR_SLOST_CNT_COUNT + 1) (2 ^ 48 - 1))

/-- The record of a session: a core counter names its core's kennel, its bundle and CMP_CYC; any other its
block's own cycle count.  How late bundle and cycle are taken is not fixed (R514), so both are free.
DESIGN CHOICE, log entry 76: safe. -/
def sampleRecord (s : State) (f : Fld) (i n : Nat) : SRec × State :=
  let (w, s) := s.free
  let cycle := w.toNat % 2 ^ 32
  match f.reg with
  | .CTR_CORE =>
    ({ session := n, kennel := s.rd F.CMP_OWN_KENNEL (i / 8), bundle := w.toNat / 2 ^ 32 % 2 ^ 14,
       cycle := cycle }, s)
  | _ => ({ session := n, kennel := 0, bundle := 0, cycle := cycle }, s)

/-- Adds to a counter, which saturates (R116, R505), and records its sampling events. -/
def State.count (s : State) (f : Fld) (i : Nat := 0) (n : Nat := 1) : State :=
  let v := s.rd f i
  let w := min (v + n) (2 ^ f.w - 1)
  let evs := if v = w then [] else sampleEvents s (f.reg.base + i * Reg.bytes f.reg) v w
  evs.foldl (fun s n => let (r, s) := sampleRecord s f i n; pushSample s r) (s.wr f w i)

/-! ## Unit tables -/

def State.port (s : State) (p : Nat) : Port := Tbl.get s.ports p {}
def State.setPort (s : State) (p : Nat) (x : Port) : State := { s with ports := Tbl.put s.ports p x {} }
def State.modPort (s : State) (p : Nat) (f : Port → Port) : State := s.setPort p (f (s.port p))

def State.lane (s : State) (l : Nat) : Lane := Tbl.get s.lanes l {}
def State.setLane (s : State) (l : Nat) (x : Lane) : State := { s with lanes := Tbl.put s.lanes l x {} }
def State.modLane (s : State) (l : Nat) (f : Lane → Lane) : State := s.setLane l (f (s.lane l))

def State.line (s : State) (p : Nat) : Phy := Tbl.get s.phy p {}
def State.setLine (s : State) (p : Nat) (x : Phy) : State := { s with phy := Tbl.put s.phy p x {} }
def State.modLine (s : State) (p : Nat) (f : Phy → Phy) : State := s.setLine p (f (s.line p))

def State.link (s : State) (p : Nat) : Link := Tbl.get s.links p {}
def State.setLink (s : State) (p : Nat) (x : Link) : State := { s with links := Tbl.put s.links p x {} }
def State.modLink (s : State) (p : Nat) (f : Link → Link) : State := s.setLink p (f (s.link p))

def State.outp (s : State) (p : Nat) : Outp := Tbl.get s.xbr.outs p {}
def State.setOutp (s : State) (p : Nat) (x : Outp) : State :=
  { s with xbr := { s.xbr with outs := Tbl.put s.xbr.outs p x {} } }
def State.modOutp (s : State) (p : Nat) (f : Outp → Outp) : State := s.setOutp p (f (s.outp p))

def State.kennel (s : State) (k : Nat) : Kennel := Tbl.get s.knl k {}
def State.setKennel (s : State) (k : Nat) (x : Kennel) : State := { s with knl := Tbl.put s.knl k x {} }
def State.modKennel (s : State) (k : Nat) (f : Kennel → Kennel) : State := s.setKennel k (f (s.kennel k))

def State.core (s : State) (c : Nat) : Core := Tbl.get s.isl.cores c {}
def State.setCore (s : State) (c : Nat) (x : Core) : State :=
  { s with isl := { s.isl with cores := Tbl.put s.isl.cores c x {} } }
def State.modCore (s : State) (c : Nat) (f : Core → Core) : State := s.setCore c (f (s.core c))

def State.window (s : State) (i : Nat) : Window := Tbl.get s.ni.slots i {}
def State.setWindow (s : State) (i : Nat) (x : Window) : State :=
  { s with ni := { s.ni with slots := Tbl.put s.ni.slots i x {} } }

/-! ## Variants, features and roles -/

/-- The pool is present (R1). -/
def State.hasPool (s : State) : Bool := s.part != .s

/-- The compute cores of the part (CMP_CFG): which four an LT9600-G fuses off is a fuse.
DESIGN CHOICE, log entry 18: unsafe. -/
def Part.cores : Part → Nat
  | .a => 0xFFFFFFFF
  | .g => 0x0FFFFFFF
  | .m => 0
  | .s => 0

/-- The feature bits each part offers (R405). -/
def Part.offer : Part → Nat
  | .a => 0x3FFFF
  | .g => 0x3FFFF
  | .m => 0x3FE0F
  | .s => 0x77001

/-- The module's accepted set (R406); informational bits are in force whenever offered (R405). -/
def State.accepted (s : State) : Nat :=
  ((upto 8).foldl (fun a i => a + s.rd F.FEA_ACCEPT_BITS i * 2 ^ (32 * i)) 0) |||
    (s.part.offer &&& 0x40001)

/-- Whether the module has accepted feature `b`. -/
def State.feature (s : State) (b : Nat) : Bool := bit s.accepted b

/-- Whether feature `b` lies in the kennel's set (R407). -/
def Kennel.feature (k : Kennel) (b : Nat) : Bool := bit k.feat.toNat b

/-- The port roles of R20: 0 down, 1 X+, 2 X−, 3 Y+, 4 Y−, 5 tray-mate. -/
def defaultRole (p : Nat) : Nat :=
  if p < 72 then 0 else if p < 88 then 1 else if p < 104 then 2 else if p < 120 then 3
  else if p < 136 then 4 else 5

def Bank.role (b : Bank) (p : Nat) : Nat := Tbl.get b.roles p (defaultRole p)

/-- The role the ACTIVE bank gives a port, or the default before the first commit (R20, R111). -/
def State.role (s : State) (p : Nat) : Nat := s.spg.active.role p

/-- The bank that an operation would make ACTIVE. -/
def nextBank (s : State) (op : Nat) : Option Bank :=
  if op = 1 then s.spg.staged
  else if op = 2 ∧ s.spg.rbok then s.spg.previous
  else none

/-- The armed bank (R397). -/
def armedBank (s : State) : Option Bank := s.spg.armed.bind fun a => nextBank s a.op

/-- A port is in the down role in the ACTIVE bank and, while a flip is armed, in the armed image (R397). -/
def downInAll (s : State) (p : Nat) : Bool :=
  (s.spg.active :: (armedBank s).toList).all fun b => b.role p == 0

/-- A hall port: X+, X−, Y+ or Y−. -/
def isHall (r : Nat) : Bool := 1 ≤ r && r ≤ 4

/-! ## The module's identity -/

/-- RTE_SELF (R152). -/
def State.self (s : State) : Nat := s.act F.RTE_SELF_SELF

/-! ## Hound -/

/-- The severity field of source `i` (R478). -/
def sevField (i : Nat) : Fld :=
  match i % 8 with
  | 0 => F.HND_SEV_SEV0 | 1 => F.HND_SEV_SEV1 | 2 => F.HND_SEV_SEV2 | 3 => F.HND_SEV_SEV3
  | 4 => F.HND_SEV_SEV4 | 5 => F.HND_SEV_SEV5 | 6 => F.HND_SEV_SEV6 | _ => F.HND_SEV_SEV7

def State.sev (s : State) (i : Nat) : Nat := s.rd (sevField i) (i / 8)

/-- The core a kennel-scoped source belongs to. -/
def sourceCore (i : Nat) : Nat := if i < 644 then i - 612 else i - 644

/-- The kennel that a kennel-scoped source names: the one CMP_OWN gives for its core (R464). -/
def namedKennel (s : State) (i : Nat) : Option Nat :=
  if houndScope i = .kennel ∧ s.rdB F.CMP_OWN_VALID (sourceCore i) then
    some (s.rd F.CMP_OWN_KENNEL (sourceCore i)) else none

/-- The effective severity (R464). -/
def effSev (s : State) (i : Nat) : Nat :=
  match s.sev i, houndScope i with
  | 2, .kennel => if (namedKennel s i).isSome then 2 else 1
  | 2, _ => 1
  | 3, .kennel => 4
  | 3, .module => 4
  | 7, _ => 6
  | v, _ => v

/-- A source that never asserts: reserved, or of a unit the variant lacks (R470). DEDUCED, log entry 88: unsafe. -/
def quietSource (s : State) (i : Nat) : Bool :=
  742 ≤ i ||
  (612 ≤ i && i < 644 && !bit s.part.cores (i - 612)) ||
  (644 ≤ i && i < 676 && !bit s.part.cores (i - 644)) ||
  (676 ≤ i && i < 708 && !bit s.part.cores (i - 676)) ||
  (s.part == .s && ((712 ≤ i && i < 720) || (721 ≤ i && i ≤ 723) || i == 727 || i == 728)) ||
  (s.part != .s && i == 740)

def stickyBit (s : State) (i : Nat) : Bool := bit (s.rd F.HND_STICKY_STICKY (i / 32)) (i % 32)

/-- Sets bit `b` of a number. -/
def setBit (n b : Nat) : Nat := n ||| 2 ^ b
/-- Clears the bits of `m` in a number. -/
def clearBits (n m : Nat) : Nat := n - (n &&& m)

/-- Whether the module is in the safe state. -/
def State.sealed' (s : State) : Bool := s.rdB F.HND_STS_SEALED

/-- A source asserts (R463): its sticky bit is set and, on a rise, counted, and the action of its effective
severity is put before Hound.  In the safe state Hound takes no further action (R473). -/
def raise (i : Nat) (s : State) : State :=
  if quietSource s i || stickyBit s i then s
  else
    let v := effSev s i
    let s := s.wr F.HND_STICKY_STICKY (setBit (s.rd F.HND_STICKY_STICKY (i / 32)) (i % 32)) (i / 32)
    let s' := s.count F.HND_EVT_CNT_COUNT v
    if s.sealed' then s'
    else { s' with hnd := { s'.hnd with todo := s'.hnd.todo ++ [⟨i, v, namedKennel s i⟩] } }

/-- A write that only the monitor may make; any other accessor's raises the monitor-access source (R9).
DEDUCED, log entry 70: unsafe. -/
def monOnly (by_ : Accessor) (f : State → State) (s : State) : State :=
  if by_ = .monitor then f s else raise 720 s

/-! ## Whether the machine runs -/

/-- The fabric die is out of reset, and no power-down has stopped its work (R482, R483).
DESIGN CHOICE, log entry 62: unsafe. -/
def State.fabRuns (s : State) : Bool := !s.pwr.fabReset && s.pwr.seq != .down
/-- The compute die, where the part has one, is out of reset (R482, R483). -/
def State.cmpRuns (s : State) : Bool := !s.pwr.cmpReset || s.part == .s
/-- The compute die is out of service (R471). -/
def State.dieOut (s : State) : Bool := s.rdB F.HND_STS_DIEOUT
/-- The module-fatal state (R468). -/
def State.fatal (s : State) : Bool := s.rdB F.HND_STS_FATAL

end Sys2Proof.Machine
end

