-- ==== Sys2Proof/Machine/Line.lean ====
section
/-! DEFINITION. The coding of the lanes: the blocks that a port sends (R26, R31, R32, R36, R41, R49, R96), the codeword
sets they fill (R27, R29, R30), the levels on a lane (R24, R25), the pattern generator (R61), and the reassembly of the
port stream in the receiver (R29, R37). -/

namespace Sys2Proof.Machine

/-! ## Control blocks (R31) -/

/-- A control block: its type, its fields, and zeros. -/
def ctrlBlk (typ : Nat) (body : List Byte) : Blk :=
  ⟨true, (BitVec.ofNat 8 typ :: (body ++ List.replicate 31 0)).take 32, false⟩

def idleBlk : Blk := ctrlBlk 0x00 []
def fillerBlk : Blk := ctrlBlk 0x1E []

/-- A MARKER block (R32). -/
def markerBlk (lane width map mseq rung : Nat) : Blk :=
  ctrlBlk 0x4B ([lane, width, map].map (BitVec.ofNat 8) ++ leBytes 2 mseq ++ [BitVec.ofNat 8 rung] ++
    (upto 25).map fun i => BitVec.ofNat 8 (0x5A ^^^ (7 + i)))

/-- A WIDTH block (R49). -/
def widthBlk (b : WidthBlk) : Blk :=
  ctrlBlk 0x2D ([b2n b.ack + 2 * b2n b.up + 4 * b2n b.sleep, b.width, b.map.toNat].map (BitVec.ofNat 8) ++
    leBytes 2 b.switch.toNat)

/-- The bytes of an identity record (R96). -/
def identBytes (i : Ident) : List Byte :=
  leBytes 8 i.uid.toNat ++ [i.port, i.kind] ++ leBytes 4 i.cart.toNat ++ leBytes 2 i.eid.toNat

/-- A CAP block (R41). -/
def capBlk (b : CapBlk) : Blk :=
  ctrlBlk 0x33 ([b2n b.ack + 2 * b2n b.step + 4 * b2n b.final, b.rungs.toNat, b.lanes.toNat].map (BitVec.ofNat 8) ++
    leBytes 2 b.version.toNat ++ leBytes 2 b.caps.toNat ++ identBytes b.ident ++ leBytes 8 b.stampNs.toNat)

/-- The module's own identity record at a port (R96). -/
def ownIdent (s : State) (p : Nat) : Ident :=
  { uid := Config.uid, port := BitVec.ofNat 8 p, kind := 0, cart := (s.port p).ownCart, eid := BitVec.ofNat 16 s.self }

/-! ## The port stream (R36) -/

/-- Blocks as they join a stream in which `n` blocks have passed since the last FILLER, and the number that have
passed after them: a FILLER goes before a block that would be the 4,096th without one. -/
def withFillers : List Blk → Nat → List Blk × Nat
  | [], n => ([], n)
  | b :: t, n =>
    if b = fillerBlk then
      let (r, m) := withFillers t 0
      (b :: r, m)
    else if 4095 ≤ n then
      let (r, m) := withFillers t 1
      (fillerBlk :: b :: r, m)
    else
      let (r, m) := withFillers t (n + 1)
      (b :: r, m)

/-- Blocks join the port stream. -/
def sendBlks (p : Nat) (bs : List Blk) (s : State) : State :=
  let (bs, n) := withFillers bs (s.port p).sinceFill
  (s.modLine p fun y => { y with stream := y.stream ++ bs }).modPort p fun x => { x with sinceFill := n }

/-- A lane-local block waits for the next codeword of each lane of a map. -/
def sendLocal (p map : Nat) (b : Blk) (s : State) : State :=
  s.modLine p fun y => { y with local' := (upto 4).foldl (fun t i =>
    if bit map i then Tbl.put t i (Tbl.get t i [] ++ [b]) [] else t) y.local' }

/-- The data blocks of link frame bytes (R71). -/
def dataBlks : Nat → List Byte → List Blk
  | 0, _ => []
  | n + 1, l => ⟨false, (l.take 32), false⟩ :: dataBlks n (l.drop 32)

/-! ## Bits of blocks and codewords (R26, R27, R30) -/

def blkBits (b : Blk) : List Bool := b.ctrl :: b.bytes.flatMap fun x => (upto 8).map fun i => x.getLsbD i

/-- Bits through the scrambler, and its register after them. -/
def scramble : List Bool → BitVec 58 → List Bool × BitVec 58
  | [], r => ([], r)
  | b :: t, r =>
    let (o, r) := scrStep r
    let (l, r) := scramble t r
    ((b ^^ o) :: l, r)

def isMarkerBlk (b : Blk) : Bool := b.ctrl && b.bytes.head? == some 0x4B

/-- The message bits of a codeword's blocks: all but a MARKER are scrambled, and the scrambler starts again at all
ones after one. -/
def sendBits (bs : List Blk) (r : BitVec 58) : List Bool × BitVec 58 :=
  bs.foldl (fun a b =>
    if isMarkerBlk b then (a.1 ++ blkBits b, BitVec.allOnes 58)
    else
      let (l, r) := scramble (blkBits b) a.2
      (a.1 ++ l, r)) ([], r)

/-- A number from bits, the first one the most significant. -/
def bitsVal (l : List Bool) : Nat := l.foldl (fun a b => 2 * a + b2n b) 0

/-- The 10-bit symbols of a message. -/
def toSymbols : Nat → List Bool → List Nat
  | 0, _ => []
  | n + 1, l => bitsVal (l.take 10) :: toSymbols n (l.drop 10)

/-- The bits of symbols, bit 9 first. -/
def symbolBits (w : List Nat) : List Bool := w.flatMap fun x => (upto 10).map fun i => bit x (9 - i)

/-- The generator polynomial of R27, lowest coefficient first. -/
def rsGenerator : List Nat := (upto 30).foldl (fun g j => gfAdd (gfShift 1 g) (gfScale (gfPow 2 j) g)) [1]

/-- The 30 parity symbols of a message. -/
def rsParity (msg : List Nat) : List Nat :=
  let g := (rsGenerator.take 30).reverse
  msg.foldl (fun r m =>
    let k := m ^^^ r.headD 0
    (r.drop 1 ++ [0]).zipWith (fun a c => a ^^^ gfMul k c) g) (List.replicate 30 0)

/-- A codeword: 514 message symbols and their parity. -/
def rsEncode (msg : List Nat) : List Nat := msg ++ rsParity msg

/-! ## Levels (R24, R25) -/

/-- Bits in pairs, the first bit of each the more significant. -/
def bitPairs : List Bool → List (Bool × Bool)
  | a :: b :: t => (a, b) :: bitPairs t
  | _ => []

/-- The level indices of Gray indices through the precoder, and the last level. -/
def precoded : List Nat → BitVec 2 → List (BitVec 2) × BitVec 2
  | [], p => ([], p)
  | g :: t, p =>
    let q := BitVec.ofNat 2 (precodeStep p.toNat g)
    let (l, r) := precoded t q
    (q :: l, r)

/-- The Gray indices that a receiver recovers from level indices, and the last level (R25). -/
def recovered : List (BitVec 2) → BitVec 2 → List Nat × BitVec 2
  | [], p => ([], p)
  | q :: t, p =>
    let (l, r) := recovered t q
    (unprecodeStep p.toNat q.toNat :: l, r)

/-- The levels of NRZ: a 1 bit is the high level. -/
def nrz (l : List Bool) : List (BitVec 2) := l.map fun b => if b then 3 else 0

/-- The levels a lane sends for bits of the block stream at a rung. -/
def lineLevels (rung : Nat) (l : List Bool) (p : BitVec 2) : List (BitVec 2) × BitVec 2 :=
  if rung = 0 then (nrz l, p) else precoded ((bitPairs l).map fun x => gray x.1 x.2) p

/-! ## Codeword sets (R29, R32) -/

/-- The lanes that codewords are filled over: those of a width change once its switch index is reached (R49). -/
def txMap (x : Port) : BitVec 4 :=
  match x.chg with
  | some c => if c.txDone then c.tx else x.tx
  | none => x.tx

/-- The map that codewords are received over. -/
def rxMap (x : Port) : BitVec 4 :=
  match x.chg with
  | some c => if c.rxDone then c.map else x.map
  | none => x.map

/-- The next blocks of a stream; IDLE blocks, and the FILLER blocks of R36, where it has none. -/
def nextBlks : Nat → List Blk → Nat → List Blk × List Blk × Nat
  | 0, l, n => ([], l, n)
  | k + 1, b :: t, n =>
    let (r, l, m) := nextBlks k t n
    (b :: r, l, m)
  | k + 1, [], n =>
    if 4095 ≤ n then
      let (r, l, m) := nextBlks k [] 0
      (fillerBlk :: r, l, m)
    else
      let (r, l, m) := nextBlks k [] (n + 1)
      (idleBlk :: r, l, m)

/-- The instant, in ps of module time, at which the first bit of the codewords of the set that ends now crossed the pins
(R379). -/
def setStart (p : Nat) (s : State) : Nat :=
  let n := 1843200 / 2 ^ (s.port p).rung
  (s.time - (s.clock - (s.clock / n * n - n))) / 9

/-- The codeword with header byte 0 of TIME message `n` crosses the pins of a port (R379). -/
def timeCrossed (p : Nat) (n : W32) (s : State) : State :=
  let x := Tbl.get s.det.recs p {}
  let ps := setStart p s
  { s with det := { s.det with recs := Tbl.put s.det.recs p { x with txLast := ps, sent := (n, ps) :: x.sent } {} } }

/-- Blocks of the port stream enter a codeword, and with them the TIME messages among their marks. -/
def passMarks (p n : Nat) (s : State) : State :=
  let ms := (s.line p).marks
  (ms.filter fun m => m.1 < n).foldl (fun s m => timeCrossed p m.2 s)
    (s.modLine p fun y => { y with marks := (ms.filter fun m => n ≤ m.1).map fun m => (m.1 - n, m.2) })

/-- TIME messages begin in blocks that are about to join the port stream, given by their place among them. -/
def noteMarks (p : Nat) (bs : List Blk) (l : List (Nat × W32)) (s : State) : State :=
  let n := (s.port p).sinceFill
  s.modLine p fun y => { y with marks := y.marks ++ l.map fun m =>
    (y.stream.length + (withFillers (bs.take (m.1 + 1)) n).1.length - 1, m.2) }

/-- The codeword of one transmit lane: a lane-local block that waits, then 19 or 20 blocks of the port stream. -/
def laneCodeword (p i : Nat) (s : State) : State :=
  let y := s.line p
  let x := s.port p
  let wait := Tbl.get y.local' i []
  let head := wait.take 1
  let (bs, rest, n) := nextBlks (20 - head.length) y.stream x.sinceFill
  let l := s.lane (4 * p + i)
  let (msg, scr) := sendBits (head ++ bs) l.txScr
  let (lv, pre) := lineLevels x.rung (symbolBits (rsEncode (toSymbols 514 msg))) l.precode
  let s := passMarks p (y.stream.length - rest.length) s
  let y := s.line p
  ((s.setLine p { y with stream := rest, local' := Tbl.put y.local' i (wait.drop 1) [],
                         line := Tbl.put y.line i lv [] }).setPort p { x with sinceFill := n }).setLane (4 * p + i)
    { l with txScr := scr, precode := pre }

/-- One codeword set: a codeword for each active lane in ascending order. -/
def codewordSet (p : Nat) (s : State) : State :=
  let m := txMap (s.port p)
  let s := (upto 4).foldl (fun s i => if m.getLsbD i then laneCodeword p i s else s) s
  s.modPort p fun x => { x with setIdx := x.setIdx + 1 }

/-- Block streams run from BITLOCK on. -/
def streaming (st : PSt) : Bool :=
  match st with
  | .bitlock | .marklock | .capx | .active => true
  | _ => false

/-- A lane-local MARKER waits. -/
def markerWaits (y : Phy) : Bool := y.local'.any fun x => x.2.head?.any isMarkerBlk

/-- A clock with `num / den` periods in a unit of time passes a period between two times. -/
def periods (num den t t' : Nat) : Nat := t' * num / den - t * num / den

/-- What the lanes of a port send from one time to another: the set that ends then; the set with index 0 waits for
its markers. DESIGN CHOICE, log entry 89: unsafe. -/
def sendSets (p t : Nat) (s : State) : State :=
  let x := s.port p
  if streaming x.st && 0 < periods (2 ^ x.rung) 1843200 t s.clock && (x.setIdx != 0 || markerWaits (s.line p)) then
    codewordSet p s
  else s

/-! ## The pattern generator (R61) -/

/-- The next bits of a pattern, and its last bits, newest first. -/
def patternBits (next : List Bool → Bool) : Nat → List Bool → List Bool × List Bool
  | 0, h => ([], h)
  | n + 1, h =>
    let b := next h
    let (l, h) := patternBits next n ((b :: h).take 31)
    (b :: l, h)

/-- A generator begins from a register that the spec does not name and that is not all zeros.
DESIGN CHOICE, log entry 5: safe. -/
def newPattern (s : State) : List Bool × State :=
  let (w, s) := s.free
  (true :: (upto 30).map fun i => w.getLsbD i, s)

/-- The pattern that lane `l` sends in TEST from one time to another: PRBS31 as NRZ at rung 0, otherwise PRBS13Q, two
bits a symbol, Gray-mapped and not precoded. -/
def sendPattern (l t : Nat) (s : State) : State :=
  let p := l / 4
  let rung := (s.port p).rung
  if (s.port p).st == .test && s.rdB F.LNE_PRBS_TXEN l then
    let h := Tbl.get (s.line p).gen (l % 4) []
    let (h, s) := if h.isEmpty then newPattern s else (h, s)
    let n := periods (17 * 2 ^ (rung - 1)) 5760 t s.clock
    let (bits, h) := if rung = 0 then patternBits prbs31Next n h else patternBits prbs13Next (2 * n) h
    let lv := if rung = 0 then nrz bits else (bitPairs bits).map fun x => BitVec.ofNat 2 (gray x.1 x.2)
    s.modLine p fun y => { y with gen := Tbl.put y.gen (l % 4) h [], line := Tbl.put y.line (l % 4) lv [] }
  else
    s.modLine p fun y => { y with gen := Tbl.erase y.gen (l % 4) }

/-! ## Training frames (R38) -/

/-- A field of 64 UI, sent as NRZ, bit 0 first. DESIGN CHOICE, log entry 102: unsafe. -/
def frameField (v : Nat) : List (BitVec 2) := nrz ((upto 64).map (bit v))

/-- A training frame: the mark, the control and the status field, and the pattern. -/
def frameLevels (control status : Nat) (pattern : List (BitVec 2)) : List (BitVec 2) :=
  List.replicate 16 3 ++ List.replicate 16 0 ++ frameField control ++ frameField status ++ pattern

/-- The control field from open bits: a request for each tap, none of them the code 11, and the preset request.
DESIGN CHOICE, log entry 102: unsafe. -/
def controlField (w : BitVec 64) : Nat :=
  let req := fun (i : Nat) => (w.toNat / 2 ^ i % 4) % 3
  req 0 + 4 * req 2 + 16 * req 4 + 64 * b2n (w.getLsbD 6)

/-- Lane `l` sends training frames: in TRAIN, and while it retrains in the background (R53). -/
def trains (s : State) (l : Nat) : Bool :=
  let x := s.lane l
  match (s.port (l / 4)).st with
  | .train => (s.port (l / 4)).tx.getLsbD (l % 4)
  | .active => x.lost && x.rdyRun < 3
  | _ => false

/-- The training frame of 4,096 UI that lane `l` has sent when its time has passed.  What this end's receiver asks
of the far end's taps is left open. DESIGN CHOICE, log entry 102: unsafe. -/
def sendTraining (l t : Nat) (s : State) : State :=
  let p := l / 4
  let rung := (s.port p).rung
  if trains s l && 0 < periods (17 * 2 ^ (rung - 1)) 23592960 t s.clock then
    let h := Tbl.get (s.line p).gen (l % 4) []
    let (h, s) := if h.isEmpty then newPattern s else (h, s)
    let (w, s) := s.free
    let (bits, h) := if rung = 0 then patternBits prbs31Next 3936 h else patternBits prbs13Next 7872 h
    let lv := if rung = 0 then nrz bits else (bitPairs bits).map fun x => BitVec.ofNat 2 (gray x.1 x.2)
    s.modLine p fun y =>
      { y with gen := Tbl.put y.gen (l % 4) h [],
               line := Tbl.put y.line (l % 4) (frameLevels (controlField w) (s.lane l).status.toNat lv) [] }
  else s

/-- What the transmitters of all ports send from time `t` to now. -/
def sendLines (t : Nat) (s : State) : State :=
  (s.ports.map (·.1)).foldl (fun s p =>
    match (s.port p).st with
    | .test => (upto 4).foldl (fun s i => sendPattern (4 * p + i) t s) s
    | .train => (upto 4).foldl (fun s i => sendTraining (4 * p + i) t s) s
    | _ => (upto 4).foldl (fun s i => sendTraining (4 * p + i) t s) (sendSets p t s)) s

/-! ## The receiver (R28, R29, R37) -/

/-- The blocks of descrambled message bits. -/
def toBlks (bad : Bool) : Nat → List Bool → List Blk
  | 0, _ => []
  | n + 1, l =>
    ⟨l.headD false, (upto 32).map fun i => BitVec.ofNat 8 (bitsVal ((l.drop (1 + 8 * i)).take 8).reverse), bad⟩ ::
      toBlks bad n (l.drop 257)

/-- A message whose first block is a MARKER (R32). -/
def markerFirst (l : List Bool) : Bool :=
  match toBlks false 1 l with
  | [b] => isMarkerBlk b && b.bytes.drop 7 == (upto 25).map fun i => BitVec.ofNat 8 (0x5A ^^^ (7 + i))
  | _ => false

/-- The port stream blocks of a received message, lane-local ones apart, and the descrambler after it. -/
def receivedBlks (bad : Bool) (l : List Bool) (r : BitVec 58) : List Blk × BitVec 58 :=
  if markerFirst l then
    let (m, r) := scramble (l.drop 257) (BitVec.allOnes 58)
    (toBlks bad 19 m, r)
  else
    let (m, r) := scramble l r
    let bs := toBlks bad 20 m
    (match bs with
     | b :: t => if b.ctrl && b.bytes.head? == some 0x2D && !bad then t else bs
     | [] => [], r)

/-- A control block that goes on from the port stream: not errored, no FILLER and of no reserved type (R28, R31,
R37). -/
def passCtrl (b : Blk) : Bool :=
  !b.bad && b.bytes.head?.any fun t => [0x00, 0x2D, 0x33, 0x4B].contains t.toNat

/-- The blocks that go on to the link layer. -/
def passBlks (bs : List Blk) : List Blk := bs.filter fun b => !b.ctrl || passCtrl b

/-- The blocks of set `n` in a lane's deskew store. -/
def ofSet (n : BitVec 14) (q : List (BitVec 14 × List Blk)) : Option (List Blk) :=
  (q.find? fun x => x.1 == n).map (·.2)

/-- A lane's deskew store after set `n` has left it, with every set before that one. -/
def afterSet (n : BitVec 14) (q : List (BitVec 14 × List Blk)) : List (BitVec 14 × List Blk) :=
  (q.dropWhile fun x => x.1 != n).drop 1

/-- The codeword of logical lane `i` in set `n` joins the deskew store, which holds three per lane (R35); once every
lane of the map has delivered that set, and none of them is lost (R49), the port stream is reassembled in ascending
order of logical lane. DESIGN CHOICE, log entry 89: unsafe. -/
def reassemble (p i : Nat) (n : BitVec 14) (map : List Nat) (ok : Bool) (bs : List Blk) (s : State) : State :=
  s.modLine p fun y =>
    let q := Tbl.get y.deskew i [] ++ [(n, bs)]
    let t := Tbl.put y.deskew i (q.drop (q.length - 3)) []
    if ok && map.all fun j => (ofSet n (Tbl.get t j [])).isSome then
      { y with deskew := map.foldl (fun t j => Tbl.put t j (afterSet n (Tbl.get t j [])) []) t,
               received := passBlks (map.flatMap fun j => (ofSet n (Tbl.get t j [])).getD []) }
    else { y with deskew := t }

end Sys2Proof.Machine
end

