-- ==== Sys2Proof/Machine/Route.lean ====
section
/-! DEFINITION. Route lookup (R156 to R166), the choice among parallel ports (R159), datelines (R161), the
lookup bank of a packet (R402, R403), and the kennel a KTAG names (R186, R187). -/

namespace Sys2Proof.Machine

/-! ## Identities and kennels -/

/-- The fields of an endpoint identity (R12). -/
def eidX (e : Nat) : Nat := e / 2 ^ 11
def eidY (e : Nat) : Nat := e / 2 ^ 7 % 16
def eidL (e : Nat) : Nat := e % 128

/-- Reserved local identities (R12). -/
def eidReserved (e : Nat) : Bool :=
  (72 ≤ eidL e && eidL e ≤ 95) || 114 ≤ eidL e

/-- The endpoint identity with the given fields. -/
def eid (x y l : Nat) : Nat := x * 2 ^ 11 + y * 2 ^ 7 + l

/-- A kennel is live from its KCREATE to the end of its teardown (R187). -/
def Kennel.live (k : Kennel) : Bool := k.st != .free

/-- The live kennel that holds a KTAG (R189). DESIGN CHOICE, log entry 68: unsafe. -/
def liveKennel (s : State) (ktag : W16) : Option Nat :=
  (s.knl.find? fun x => x.2.live && x.2.ktag == ktag).map (·.1)

/-- The kennel that serves packets with a KTAG: one that is CREATED, OPEN or RESETTING (R186).
DEDUCED, log entry 23: unsafe. -/
def servedKennel (s : State) (ktag : W16) : Option Nat :=
  (s.knl.find? fun x => x.2.live && x.2.st != .closing && x.2.ktag == ktag).map (·.1)

/-- The kennel bound to a down port (KBINDPORT), kept as the port's entry. -/
def boundKennel (s : State) (p : Nat) : Option Nat := Tbl.find s.binds p

/-- The tag bound to a down port (R91). -/
def boundTag (s : State) (p : Nat) : Option W16 := (boundKennel s p).map fun k => (s.kennel k).ktag

/-! ## Banks -/

/-- The bank a packet's EPB names for lookups, none when the module does not hold it (R402, R403). -/
def lookupBank (s : State) (epb : Bool) : Option Bank :=
  if epb = s.spg.epb then some s.spg.active
  else if s.spg.drain then s.spg.previous else none

/-! ## Ports -/

/-- The port is in ACTIVE. -/
def State.portUp (s : State) (p : Nat) : Bool := (s.port p).st == .active

/-- The port is quarantined to MGMT (R97, R99), or waits for link keys (R430).
DESIGN CHOICE, log entry 103: unsafe. -/
def State.quarantined (s : State) (p : Nat) : Bool :=
  (s.link p).quar || (s.link p).dup ||
    (s.rdB F.MON_LINKSEC_EN p && isHall (s.role p) && s.rd F.MON_LINKSEC_STATE p != 2)

/-- The reserved cells of an output, over classes (R159); mirror copies count under MGMT (R151). -/
def State.occSum (s : State) (p : Nat) : Nat := (s.outp p).occ.foldl (· + ·) 0 + (s.outp p).mirOcc

/-- The smallest of a list of keys. -/
def minKey (l : List Nat) : Nat := l.foldl min (l.headD 0)

/-- Chooses among candidate ports (R159); `ptr` is the index of the rotating pointer. -/
def choose (s : State) (win : Nat) (ports : List Nat) (adapt : Bool) (ptr : Nat) : Option (Nat × State) :=
  let cs := ports.filter fun p => s.portUp p && !s.quarantined p
  match cs with
  | [] => none
  | c0 :: _ =>
    if adapt && !s.rdB F.DET_CTL_NOADAPT then
      let m := minKey (cs.map s.occSum)
      let ties := cs.filter fun p => s.occSum p == m
      let at0 := Tbl.get s.xbr.choice ptr 0
      let p := (ties.find? fun p => at0 ≤ p).getD (ties.headD c0)
      some (p, { s with xbr := { s.xbr with choice := Tbl.put s.xbr.choice ptr (p + 1) 0 } })
    else some (cs.getD ((win ^^^ (win / 256)) % cs.length) c0, s)

/-! ## Datelines (R161) -/

/-- The dimension of a role: 0 X, 1 Y; none for a role that is not a hall role. -/
def roleDim (r : Nat) : Option Nat := if r = 1 ∨ r = 2 then some 0 else if r = 3 ∨ r = 4 then some 1 else none

/-- The egress VC and DLN of a packet that leaves in direction `d` (0 to 3). -/
def egressVc (s : State) (b : Bank) (inp : Nat) (pkt : Packet) (d : Nat) : Nat × BitVec 2 :=
  let cls := vcClass pkt.vc.toNat
  let inDim := if inp < 144 then roleDim (s.role inp) else none
  let start := if inDim = some (d / 2) then pkt.vc.toNat % 2 = 1 else pkt.dln.getLsbD (d / 2) = true
  if b.rd F.RTE_DIRP_DLINE d != 0 then (2 * cls + 1, pkt.dln ||| BitVec.ofNat 2 (2 ^ (d / 2)))
  else (2 * cls + b2n (decide start), pkt.dln)

/-! ## The lookup (R156) -/

/-- What a lookup answers. -/
inductive RouteRes where
  | none
  | refused                          -- the egress check of R158
  | port (p vc : Nat) (dln : BitVec 2)
  | internal
  deriving DecidableEq, Repr

/-- The route set owned by a KTAG (R163). -/
def ownedSet (s : State) (ktag : W16) : Option Nat :=
  (upto 64).find? fun n => s.rdB F.RTE_RSET_OWN_VALID n && s.rd F.RTE_RSET_OWN_KTAG n == ktag.toNat

/-- Whether route set `n` of a bank holds a port. -/
def setHolds (b : Bank) (n p : Nat) : Bool := bit (b.rd F.RTE_RSET_PORTS_PORTS (5 * n + p / 32)) (p % 32)

/-- The egress check of a down port (R158). DEDUCED, log entry 83: unsafe. -/
def egressOk (s : State) (b : Bank) (pkt : Packet) (p : Nat) : Bool :=
  if b.role p = 0 then
    (pkt.ktag != 0 && boundTag s p == some pkt.ktag) || (pkt.ktag == 0 && vcClass pkt.vc.toNat == 3)
  else true

/-- The ports of a direction. -/
def dirPorts (b : Bank) (d : Nat) : List Nat :=
  let n := b.rd F.RTE_DIRP_COUNT d
  if n = 0 ∨ 16 < n then [] else (upto n).map (· + b.rd F.RTE_DIRP_FIRST d)

/-- A packet bound for a hall direction. DEDUCED, log entry 83: unsafe. -/
def routeHall (s : State) (b : Bank) (inp : Nat) (pkt : Packet) (d : Nat) : RouteRes × State :=
  let (vc, dln) := egressVc s b inp pkt d
  let go := fun (ports : List Nat) (adapt : Bool) =>
    match choose s pkt.win.toNat ports adapt d with
    | some (p, s) => (RouteRes.port p vc dln, s)
    | none => (RouteRes.none, s)
  if pkt.ktag = 0 then
    if vc = 6 ∨ vc = 7 then go ((dirPorts b d).filter fun p => isHall (b.role p)) true else (.none, s)
  else
    match ownedSet s pkt.ktag with
    | none => (.none, s)
    | some n =>
      if b.rd F.RTE_RSET_CTL_VALID n != 0 && bit (b.rd F.RTE_RSET_CTL_VCMASK n) vc then
        go ((dirPorts b d).filter fun p => setHolds b n p && isHall (b.role p))
          (b.rd F.RTE_RSET_CTL_ADAPT n != 0)
      else (.none, s)

/-- The output of a packet that entered at position `inp`, by the tables of bank `b` (R156). -/
def route (s : State) (b : Bank) (inp : Nat) (pkt : Packet) : RouteRes × State :=
  let self := b.rd F.RTE_SELF_SELF
  let dst := pkt.dst.toNat
  if self = 0xFFFF then (.none, s)
  else if eidX dst ≠ eidX self then
    match b.rd F.RTE_XTAB_DIR (eidX dst) with
    | 1 => routeHall s b inp pkt 0
    | 2 => routeHall s b inp pkt 1
    | _ => (.none, s)
  else if eidY dst ≠ eidY self then
    match b.rd F.RTE_YTAB_DIR (eidY dst) with
    | 1 => routeHall s b inp pkt 2
    | 2 => routeHall s b inp pkt 3
    | _ => (.none, s)
  else
    let l := eidL dst
    let kind := b.rd F.RTE_LOCAL_KIND l
    let first := b.rd F.RTE_LOCAL_PORT l
    let cnt := b.rd F.RTE_LOCAL_CNT l
    if kind = 2 then (.internal, s)
    else if kind ≠ 1 then (.none, s)
    else if cnt = 0 then
      if egressOk s b pkt first then (.port first pkt.vc.toNat pkt.dln, s) else (.refused, s)
    else
      match choose s pkt.win.toNat ((upto (cnt + 1)).map (· + first)) true (4 + l) with
      | some (p, s) =>
        if egressOk s b pkt p then (.port p pkt.vc.toNat pkt.dln, s) else (.refused, s)
      | none => (.none, s)

/-- The internal position of a packet addressed to the module (R266, R519). -/
def internalPos (pkt : Packet) : Nat :=
  if opcClass pkt.opc.toNat = some 2 then 144 + pkt.addr.toNat / 2 ^ 35 % 64
  else 208 + pkt.ktag.toNat % 64

end Sys2Proof.Machine
end

