-- ==== Sys2Proof/Machine/Emit.lean ====
section
/-! DEFINITION. Packets the module forms itself: their admission requests (R117, R156, R266, R402, R519),
answers (R93, R107, R444), and the counting of drops (R149, R535). -/

namespace Sys2Proof.Machine

/-! ## Drops -/

/-- Whether a cause is counted against the input (R149). -/
def Cause.atInput : Cause → Bool
  | .safchk | .malformed | .ktag | .noroute | .lifetime | .gen | .flush => true
  | _ => false

/-- Counts a drop by its cause, at the port the cause belongs to (R149); an internal output has no drop counters. -/
def countCause (inp out : Nat) (c : Cause) (s : State) : State :=
  if c = .quarantine then s.count F.LNK_QUARDROP_CNT_COUNT out
  else if c.atInput then
    if inp < 144 then s.count F.OUB_DROP_CNT_COUNT (16 * inp + c.idx) else s.count F.RTE_LOCDROP_CNT_COUNT
  else if out < 144 then s.count F.OUB_DROP_CNT_COUNT (16 * out + c.idx) else s

/-- A drop of a packet formed inside the module counts for its kennel too (R535). -/
def countKennelDrop (inp : Nat) (ktag : W16) (s : State) : State :=
  if 144 ≤ inp then
    match liveKennel s ktag with
    | some k => s.count F.CTR_KNL_COUNT (16 * k + 15)
    | none => s
  else s

/-- Counts a drop of a packet of tag `ktag` that entered at `inp` and was bound for `out` (R149, R535). -/
def countDrop (inp out : Nat) (ktag : W16) (c : Cause) (s : State) : State :=
  countKennelDrop inp ktag (countCause inp out c s)

/-! ## Requests of packets formed inside the module -/

/-- Why a packet formed inside the module was discarded at its lookup. -/
inductive EmitFail where
  | noroute | refused
  deriving DecidableEq, Repr

/-- The crossbar position at which the Retriever or the network interface enters a packet (R266, R519). -/
def localPos (pkt : Packet) : Nat := internalPos pkt

/-- A flow of a whole packet that waits for its admission. -/
def mkFlow (s : State) (inp out evc : Nat) (pkt : Packet) : Flow :=
  { id := s.xbr.nextId, inp := inp, out := out, vc := pkt.vc.toNat, evc := evc,
    hdr := { pkt with payload := [], check := 0 }, total := pkt.size, bytes := pkt.bytes, at' := s.time }

/-- Puts an admission request before the crossbar. -/
def addFlow (f : Flow) (s : State) : State :=
  { s with xbr := { s.xbr with flows := s.xbr.flows ++ [f], nextId := s.xbr.nextId + 1 } }

/-- The packet as it leaves on egress VC `vc` with datelines `dln`. -/
def leaveOn (p : Packet) (vc : Nat) (dln : BitVec 2) : Packet :=
  { p with vc := BitVec.ofNat 3 vc, dln := dln }

/-- Counts a packet the network interface sends for a kennel (R506). -/
def countTx (pkt : Packet) (s : State) : State :=
  match liveKennel s pkt.ktag with
  | some k => (s.count F.CTR_KNL_COUNT (16 * k + 2)).count F.CTR_KNL_COUNT (16 * k + 3) pkt.size
  | none => s

/-- A packet whose EPB names a bank that the module does not hold is discarded (R403). -/
def countOldEpb (s : State) : State := s.count F.SPG_OLDEPB_CNT_COUNT

/-- Twin elimination (R445, R447): whether a twin-marked packet addressed to the module is accepted. -/
def acceptTwin (q : Packet) (s : State) : Bool × State :=
  let isIt := fun (e : TwinEntry) => e.src == q.src && e.win == q.win
  let put := fun (e : TwinEntry) (s : State) =>
    { s with ni := { s.ni with twins := ListOps.update isIt (fun _ => e) s.ni.twins } }
  match s.ni.twins.find? isIt with
  | none =>
    if 4096 ≤ s.ni.twins.length then (false, s.count F.TWN_FULL_CNT_COUNT)
    else
      let e : TwinEntry := { src := q.src, win := q.win, h := q.psn, map := 1 }
      (true, { s with ni := { s.ni with twins := s.ni.twins ++ [e] } })
  | some e =>
    let ahead := (q.psn - e.h).toNat
    let back := (e.h - q.psn).toNat
    if 1 ≤ ahead ∧ ahead ≤ 32767 then
      (true, put { e with h := q.psn, map := (e.map * 2 ^ ahead + 1) % 2 ^ 4096 } s)
    else if back < 4096 then
      if bit e.map back then (false, s.count F.TWN_DUP_CNT_COUNT)
      else (true, put { e with map := setBit e.map back } s)
    else (false, s.count F.TWN_OLD_CNT_COUNT)

/-- Forms the admission request of a packet made inside the module: the check is formed (R94) and the route taken (R156)
in the bank that its EPB names (R402), or the packet leaves on the port its rule names.  Answers why the packet was
discarded, if it was.  A twin-marked packet to the module itself passes the elimination of R445. -/
def emit (pkt : Packet) (forced : Option Nat) (s : State) : Option EmitFail × State :=
  let pkt := pkt.seal
  let inp := localPos pkt
  match forced with
  | some p => (none, countTx pkt (addFlow (mkFlow s inp p pkt.vc.toNat pkt) s))
  | none =>
    match lookupBank s pkt.epb with
    | none => (some .noroute, countDrop inp 0 pkt.ktag .noroute (countOldEpb s))
    | some b =>
      match route s b inp pkt with
      | (.none, s) => (some .noroute, countDrop inp 0 pkt.ktag .noroute s)
      | (.refused, s) => (some .refused, countDrop inp 0 pkt.ktag .noroute s)
      | (.port p vc dln, s) =>
        (none, countTx pkt (addFlow (mkFlow s inp p vc (leaveOn pkt vc dln)) s))
      | (.internal, s) =>
        let f := mkFlow s inp (internalPos pkt) pkt.vc.toNat pkt
        if pkt.twn ∧ pkt.dst.toNat = s.self then
          match acceptTwin pkt s with
          | (true, s) => (none, countTx pkt (addFlow { f with twinAt := some s.time } s))
          | (false, s) => (none, countTx pkt s)
        else (none, countTx pkt (addFlow f s))

/-! ## Tray-mate ports -/

/-- The lowest-numbered ACTIVE port among those a predicate accepts. -/
def lowestActive (s : State) (p : Nat → Bool) : Option Nat :=
  (upto 144).find? fun i => p i && s.portUp i

/-- The lowest-numbered ACTIVE tray-mate port (R249, R443, R453). -/
def trayPort (s : State) : Option Nat := lowestActive s fun i => s.role i == 5

/-- The endpoint identity of the tray-mate: modules 2t and 2t + 1 of a rack (R152). -/
def mateEid (s : State) : Nat :=
  let l := eidL s.self
  eid (eidX s.self) (eidY s.self) (if l % 2 = 0 then l + 1 else l - 1)

/-- Sends both copies of a twin-marked packet on the module's two planes (R443); a plane without an ACTIVE
port sends none.  Answers the failure when neither copy was sent. -/
def emitTwin (pkt : Packet) (s : State) : Option EmitFail × State :=
  if pkt.dst.toNat = mateEid s then
    let a := lowestActive s fun i => s.role i == 5 && i / 4 == 34
    let b := lowestActive s fun i => s.role i == 5 && i / 4 == 35
    match a, b with
    | some p, some q => (none, (emit pkt (some q) (emit pkt (some p) s).2).2)
    | some p, none => (none, (emit pkt (some p) s).2)
    | none, some q => (none, (emit pkt (some q) s).2)
    | none, none => emit pkt none s
  else
    match trayPort s with
    | none => emit pkt none s
    | some q =>
      let (e, s) := emit pkt none s
      (none, (emit pkt (some q) (cond' e.isSome id s)).2)

/-- Sends a packet, twin-marked packets on both planes. -/
def emitAny (pkt : Packet) (forced : Option Nat) (s : State) : Option EmitFail × State :=
  if pkt.twn then emitTwin pkt s else emit pkt forced s

/-! ## Answers (R92, R93, R107, R444) -/

/-- The header of the answer to a packet: identities swapped, tag, generation, window, number and address
copied, a mark echoed. DEDUCED, log entry 83: unsafe. -/
def answerHead (q : Packet) (opc len : Nat) (payload : List Byte) : Packet :=
  { dst := q.src, src := q.dst, ktag := q.ktag, win := q.win, psn := q.psn, addr := q.addr,
    vc := 2, opc := BitVec.ofNat 6 opc, len := BitVec.ofNat 9 len, fen := false,
    cmk := if q.cmk = 1 then 2 else 0, epb := false, dln := 0, twn := q.twn, col := 0, hop := 0,
    gen := q.gen, rsv := 0, payload := payload, check := 0 }

/-- Sends an answer, with the module's EPB (R402). -/
def sendAnswer (pkt : Packet) (s : State) : State := (emitAny { pkt with epb := s.spg.epb } none s).2

/-- ACK with the packet's PSN as base and itself alone in the bitmap. -/
def ackOf (q : Packet) : Packet := answerHead q 0x08 1 (leBytes 8 1 ++ leBytes 8 0)
/-- ERR_RSP with a status code. -/
def errOf (q : Packet) (code : Nat) : Packet := answerHead q 0x0B 1 (leBytes 16 code)
/-- READ_RSP with its data. -/
def readRspOf (q : Packet) (data : List Byte) : Packet := answerHead q 0x09 (data.length / 16) data
/-- ATOMIC_RSP with the old value, zero-extended. -/
def atomRspOf (q : Packet) (old : Nat) : Packet := answerHead q 0x0A 1 (leBytes 8 old ++ leBytes 8 0)

def sendAck (q : Packet) (s : State) : State := sendAnswer (ackOf q) s
def sendErr (q : Packet) (code : Nat) (s : State) : State := sendAnswer (errOf q code) s

/-! ## Status codes (R228) -/

namespace Code
def ok : Nat := 0x00
def cancelled : Nat := 0x01
def cancelLost : Nat := 0x02
def featureNotAccepted : Nat := 0x10
def badOpcode : Nat := 0x11
def badDescriptor : Nat := 0x12
/-- DESIGN CHOICE, log entry 8: safe. -/
def windowFault : Nat := 0x20
def protection : Nat := 0x21
def partialDelivery : Nat := 0x30
def capacityDropped : Nat := 0x31
def residueFail : Nat := 0x32
def checkFail : Nat := 0x33
def kennelReset : Nat := 0x40
def timeout : Nat := 0x41
def notReproducible : Nat := 0x50
def resourceFull : Nat := 0x60
end Code

/-- The error codes of the status table, 0x10 and above. -/
def isErrorCode (c : Nat) : Bool :=
  [0x10, 0x11, 0x12, 0x20, 0x21, 0x30, 0x31, 0x32, 0x33, 0x40, 0x41, 0x50, 0x60].contains c

/-- The status an ERR_RSP gives (R536). -/
def errStatus (b : Nat) : Nat := if isErrorCode b then b else Code.protection

/-! ## The inbox -/

/-- Takes an arrival out of the network interface's inbox. -/
def takeArrival (a : Arrival) (s : State) : State :=
  { s with ni := { s.ni with inbox := s.ni.inbox.erase a } }

end Sys2Proof.Machine
end

