-- ==== Sys2Proof/Machine/Float.lean ====
section
/-! DEFINITION. Numbers: the element and scale formats of R316 and R317 decoded exactly, rounding to nearest even
(R279, R313, R352) and by Fennel (R284, R355, R375), and exact sums, products, quotients and roots. -/

namespace Sys2Proof.Machine

/-! ## Exact values -/

/-- A decoded number: a signed magnitude `m × 2^e`, an infinity, or NaN. -/
inductive Num where
  | fin (neg : Bool) (m : Nat) (e : Int)
  | inf (neg : Bool)
  | nan
  deriving DecidableEq, Repr

/-- What a format does with its largest exponent (R316). -/
inductive Top where
  | ieee        -- infinity and NaN
  | nanOnly     -- E4M3: the all-ones code is NaN
  | none        -- every code is finite
  deriving DecidableEq, Repr

structure Fmt where
  eb : Nat
  mb : Nat
  bias : Nat
  top : Top
  deriving DecidableEq, Repr

def f32 : Fmt := ⟨8, 23, 127, .ieee⟩
def f16 : Fmt := ⟨5, 10, 15, .ieee⟩
def bf16 : Fmt := ⟨8, 7, 127, .ieee⟩
def e4m3 : Fmt := ⟨4, 3, 7, .nanOnly⟩
def e5m2 : Fmt := ⟨5, 2, 15, .ieee⟩
def e3m2 : Fmt := ⟨3, 2, 3, .none⟩
def e2m3 : Fmt := ⟨2, 3, 1, .none⟩
def e2m1 : Fmt := ⟨2, 1, 1, .none⟩

namespace Fmt

/-- Exponent of the smallest subnormal. -/
def lsb (f : Fmt) : Int := 1 - (f.bias : Int) - f.mb

/-- The code of the largest finite magnitude. -/
def maxMag (f : Fmt) : Nat :=
  match f.top with
  | .ieee => (2 ^ f.eb - 1) * 2 ^ f.mb - 1
  | .nanOnly => 2 ^ (f.eb + f.mb) - 2
  | .none => 2 ^ (f.eb + f.mb) - 1

def signBit (f : Fmt) : Nat := 2 ^ (f.eb + f.mb)

/-- The canonical quiet NaN (R279). -/
def qnan (f : Fmt) : Nat :=
  match f.top with
  | .ieee => (2 ^ f.eb - 1) * 2 ^ f.mb + 2 ^ (f.mb - 1)
  | _ => 2 ^ (f.eb + f.mb) - 1

def infMag (f : Fmt) : Nat := (2 ^ f.eb - 1) * 2 ^ f.mb

/-- The number a code stands for. -/
def decode (f : Fmt) (n : Nat) : Num :=
  let s := bit n (f.eb + f.mb)
  let mag := n % f.signBit
  let e := mag / 2 ^ f.mb
  let m := mag % 2 ^ f.mb
  if f.top = .ieee ∧ e = 2 ^ f.eb - 1 then (if m = 0 then .inf s else .nan)
  else if f.top = .nanOnly ∧ mag = 2 ^ (f.eb + f.mb) - 1 then .nan
  else if e = 0 then .fin s m f.lsb
  else .fin s (2 ^ f.mb + m) (e - f.bias - f.mb)

end Fmt

namespace Num

def neg : Num → Num
  | .fin s m e => .fin (!s) m e
  | .inf s => .inf (!s)
  | .nan => .nan

def isNan : Num → Bool
  | .nan => true
  | _ => false

def isZero : Num → Bool
  | .fin _ m _ => m == 0
  | _ => false

/-- The signed integer of a finite number at exponent `x`, which is not above its own. -/
def at' (s : Bool) (m : Nat) (e x : Int) : Int :=
  let v : Int := (m * 2 ^ (e - x).toNat : Nat)
  if s then -v else v

/-- The exact sum; zeros and infinities as IEEE 754 adds them. -/
def add : Num → Num → Num
  | .nan, _ => .nan
  | _, .nan => .nan
  | .inf a, .inf b => if a = b then .inf a else .nan
  | .inf a, _ => .inf a
  | _, .inf b => .inf b
  | .fin s m e, .fin t n d =>
    let x := min e d
    let v := at' s m e x + at' t n d x
    if v = 0 then .fin (s && t && m == 0 && n == 0) 0 x else .fin (decide (v < 0)) v.natAbs x

/-- The exact product. -/
def mul : Num → Num → Num
  | .nan, _ => .nan
  | _, .nan => .nan
  | .inf a, .inf b => .inf (a != b)
  | .inf a, .fin t n _ => if n = 0 then .nan else .inf (a != t)
  | .fin s m _, .inf b => if m = 0 then .nan else .inf (s != b)
  | .fin s m e, .fin t n d => .fin (s != t) (m * n) (e + d)

/-- Whether one number lies below another, with −0 below +0; NaN is never compared. -/
def lt : Num → Num → Bool
  | .inf a, .inf b => a && !b
  | .inf a, .fin _ _ _ => a
  | .fin _ _ _, .inf b => !b
  | .fin s m e, .fin t n d =>
    let x := min e d
    let a := at' s m e x
    let b := at' t n d x
    if m = 0 ∧ n = 0 then s && !t else decide (a < b)
  | _, _ => false

/-- The larger and the smaller of two numbers; NaN wins (R279, R352). -/
def max (a b : Num) : Num := if a.isNan || b.isNan then .nan else if lt a b then b else a
def min (a b : Num) : Num := if a.isNan || b.isNan then .nan else if lt b a then b else a

def scale (k : Int) : Num → Num
  | .fin s m e => .fin s m (e + k)
  | v => v

end Num

/-! ## Rounding -/

/-- A positive rational cut at a format's spacing: it equals `(q + r / den) × 2^x`. -/
structure Cut where
  q : Nat
  r : Nat
  den : Nat
  x : Int
  deriving DecidableEq, Repr

/-- The exponent of the leading bit of `n / d`, both positive. -/
def ratLog2 (n d : Nat) : Int :=
  let k : Int := (Nat.log2 n : Int) - Nat.log2 d
  let below := if 0 ≤ k then n < d * 2 ^ k.toNat else n * 2 ^ (-k).toNat < d
  if below then k - 1 else k

/-- Cuts `n / d × 2^e` to `p` significant bits, or to the spacing `2^lsb` where that is wider. -/
def cut (p : Nat) (lsb : Int) (n d : Nat) (e : Int) : Cut :=
  if n = 0 then ⟨0, 0, 1, lsb⟩
  else
    let x := max lsb (ratLog2 n d + e - (p - 1 : Nat))
    let up := (e - x).toNat
    let dn := (x - e).toNat
    let nn := n * 2 ^ up
    let dd := d * 2 ^ dn
    ⟨nn / dd, nn % dd, dd, x⟩

def Cut.exact (c : Cut) : Bool := c.r == 0

/-- Nearest, ties to even. -/
def Cut.nearest (c : Cut) : Nat :=
  if c.den < 2 * c.r ∨ (c.den = 2 * c.r ∧ c.q % 2 = 1) then c.q + 1 else c.q

/-- The upper neighbour where the draw `w` says so (R284): w × (b − a) < (|v| − a) × 2^32. -/
def Cut.drawn (c : Cut) (w : Nat) : Nat := if w * c.den < c.r * 2 ^ 32 then c.q + 1 else c.q

/-- The cut of a magnitude for a format. -/
def Fmt.cut (f : Fmt) (n d : Nat) (e : Int) : Cut := Machine.cut (f.mb + 1) f.lsb n d e

/-- The magnitude code of `q × 2^x` at a format's spacing; a carry runs into the exponent. -/
def Fmt.mag (f : Fmt) (q : Nat) (x : Int) : Nat := (x + f.bias + f.mb - 1).toNat * 2 ^ f.mb + q

/-- How a value is rounded: to nearest even, or by a draw. -/
inductive Rnd where
  | ne
  | sr (w : Nat)
  deriving DecidableEq, Repr

/-- The magnitude code of a positive rational, which may lie above the largest finite one. -/
def Fmt.round (f : Fmt) (rm : Rnd) (n d : Nat) (e : Int) : Nat :=
  let c := f.cut n d e
  match rm with
  | .ne => f.mag c.nearest c.x
  | .sr w =>
    let a := f.mag c.q c.x
    if f.maxMag < a then a else f.mag (c.drawn w) c.x

/-- A rational rounded to a format with infinities (R283, R284, R352). -/
def Fmt.ofRat (f : Fmt) (rm : Rnd) (s : Bool) (n d : Nat) (e : Int) : Nat :=
  let g := f.round rm n d e
  b2n s * f.signBit + (if f.maxMag < g then f.infMag else g)

/-- A number rounded to a format with infinities; NaN becomes the canonical quiet NaN. -/
def Fmt.encode (f : Fmt) (rm : Rnd) : Num → Nat
  | .nan => f.qnan
  | .inf s => b2n s * f.signBit + f.infMag
  | .fin s m e => if m = 0 then b2n s * f.signBit else f.ofRat rm s m 1 e

/-- A rational saturated to a format's largest finite value, and whether its rounded magnitude exceeded it
(R283, R354). -/
def Fmt.satRat (f : Fmt) (rm : Rnd) (s : Bool) (n d : Nat) (e : Int) : Nat × Bool :=
  let g := f.round rm n d e
  if f.maxMag < g then (b2n s * f.signBit + f.maxMag, true) else (b2n s * f.signBit + g, false)

/-! ## binary32 arithmetic (R279, R313) -/

def num32 (n : Nat) : Num := f32.decode (n % 2 ^ 32)
def to32 (v : Num) : Nat := f32.encode .ne v

def add32 (a b : Nat) : Nat := to32 ((num32 a).add (num32 b))
def sub32 (a b : Nat) : Nat := to32 ((num32 a).add (num32 b).neg)
def mul32 (a b : Nat) : Nat := to32 ((num32 a).mul (num32 b))
def fma32 (a b c : Nat) : Nat := to32 (((num32 a).mul (num32 b)).add (num32 c))
def max32 (a b : Nat) : Nat := to32 ((num32 a).max (num32 b))
def min32 (a b : Nat) : Nat := to32 ((num32 a).min (num32 b))

/-- The integer square root, by bits from the top; `k` bounds the bits of the root. -/
def isqrt : Nat → Nat → Nat → Nat
  | 0, _, r => r
  | k + 1, n, r => let t := r + 2 ^ k; isqrt k n (if t * t ≤ n then t else r)

/-- A root with its remainder kept as a last bit: enough for one rounding to 24 bits. -/
def rootSticky (n : Nat) (e : Int) : Nat × Int :=
  let r := isqrt (Nat.log2 n / 2 + 1) n 0
  (2 * r + (if r * r = n then 0 else 1), e - 1)

/-- Square root, rounded once. -/
def sqrt32 (a : Nat) : Nat :=
  match num32 a with
  | .nan => f32.qnan
  | .inf s => if s then f32.qnan else f32.infMag
  | .fin s m e =>
    if m = 0 then b2n s * f32.signBit
    else if s then f32.qnan
    else
      let (m, e) := if e % 2 = 0 then (m, e) else (2 * m, e - 1)
      let (r, x) := rootSticky (m * 2 ^ 60) (e / 2 - 30)
      f32.ofRat .ne false r 1 x

/-- Reciprocal, rounded once; a zero gives the infinity of its sign. DEDUCED, log entry 29: safe. -/
def rcp32 (a : Nat) : Nat :=
  match num32 a with
  | .nan => f32.qnan
  | .inf s => b2n s * f32.signBit
  | .fin s m e => if m = 0 then b2n s * f32.signBit + f32.infMag else f32.ofRat .ne s 1 m (-e)

/-- Reciprocal square root, rounded once; a zero gives the infinity of its sign. DEDUCED, log entry 29: safe. -/
def rsqrt32 (a : Nat) : Nat :=
  match num32 a with
  | .nan => f32.qnan
  | .inf s => if s then f32.qnan else 0
  | .fin s m e =>
    if m = 0 then b2n s * f32.signBit + f32.infMag
    else if s then f32.qnan
    else
      let (m, e) := if e % 2 = 0 then (m, e) else (2 * m, e - 1)
      let n := 2 ^ 120 / m
      let r := isqrt 62 n 0
      let t := 2 * r + (if r * r * m = 2 ^ 120 then 0 else 1)
      f32.ofRat .ne false t 1 (-(e / 2) - 61)

/-- A 32-bit two's-complement integer. -/
def int32 (n : Nat) : Int := (BitVec.ofNat 32 n).toInt

def i32ToF32 (a : Nat) : Nat :=
  let v := int32 a
  to32 (.fin (decide (v < 0)) v.natAbs 0)

/-- binary32 to int32, nearest even, saturated; NaN gives 0. -/
def f32ToI32 (a : Nat) : Nat :=
  let sat := fun (v : Int) => (BitVec.ofInt 32 (max (-(2 ^ 31)) (min (2 ^ 31 - 1) v))).toNat
  match num32 a with
  | .nan => 0
  | .inf s => sat (if s then -(2 ^ 32) else 2 ^ 32)
  | .fin s m e =>
    let c := cut 256 0 m 1 e
    let v : Int := (c.nearest * 2 ^ c.x.toNat : Nat)
    sat (if s then -v else v)

/-! ## Scales (R317) -/

/-- An E8M0 scale as a power of two, none for NaN. -/
def e8m0 (b : Nat) : Option Int := if b = 255 then none else some ((b : Int) - 127)

/-- A UE5M3 scale, none for NaN. -/
def ue5m3 (b : Nat) : Option Num :=
  if b = 255 then none
  else if b / 8 = 0 then some (.fin false (b % 8) (-17))
  else some (.fin false (8 + b % 8) ((b / 8 : Nat) - 18))

/-! ## Fennel (R375) -/

def rotl32 (n k : Nat) : Nat := (n * 2 ^ k) % 2 ^ 32 + n / 2 ^ (32 - k)

structure Fen where
  a : Nat
  b : Nat
  c : Nat
  d : Nat
  deriving DecidableEq, Repr

def fenQr (x : Fen) : Fen :=
  let half := fun (x : Fen) (r1 r2 : Nat) =>
    let a := (x.a + x.b) % 2 ^ 32
    let d := rotl32 (x.d ^^^ a) r1
    let c := (x.c + d) % 2 ^ 32
    (⟨a, rotl32 (x.b ^^^ c) r2, c, d⟩ : Fen)
  half (half x 16 12) 8 7

def fenRounds : Nat → Fen → Fen → Fen × Fen
  | 0, x, k => (x, k)
  | n + 1, x, k =>
    let x : Fen := ⟨(x.a + k.a) % 2 ^ 32, x.b ^^^ k.b, (x.c + k.c) % 2 ^ 32, x.d ^^^ k.d⟩
    let k' : Fen := ⟨(k.a + 0x9E3779B9) % 2 ^ 32, (k.b + 0xBB67AE85) % 2 ^ 32,
      (k.c + 0x9E3779B9) % 2 ^ 32, (k.d + 0xBB67AE85) % 2 ^ 32⟩
    fenRounds n (fenQr x) k'

/-- Word 0 of Fennel. -/
def fennel (seed step stream index : Nat) : Nat :=
  let k : Fen := ⟨seed % 2 ^ 32, seed / 2 ^ 32 % 2 ^ 32, seed / 2 ^ 64 % 2 ^ 32, seed / 2 ^ 96 % 2 ^ 32⟩
  let (x, k) := fenRounds 10 ⟨index % 2 ^ 32, stream % 2 ^ 32, step % 2 ^ 32, step / 2 ^ 32 % 2 ^ 32⟩ k
  (x.a + k.a) % 2 ^ 32

/-! ## Block scales (R283, R354) -/

/-- The E8M0 scale byte of a block: none of NaN and infinity inside gives floor(log2(amax)) − emax, clamped. -/
def mxScale (emax : Nat) (block : List Num) : Nat :=
  if block.any fun v => match v with | .fin _ _ _ => false | _ => true then 255
  else
    let logs := block.filterMap fun v => match v with
      | .fin _ m e => if m = 0 then none else some ((Nat.log2 m : Int) + e)
      | _ => none
    match logs with
    | [] => 0
    | x :: t => (max (-127) (min 127 (t.foldl max x - emax)) + 127).toNat

end Sys2Proof.Machine
end

