-- ==== Sys2Proof/Machine/Operands.lean ====
section
/-! DEFINITION. The operand forms of the compute instruction set: registers, guards, operand B, line addresses
(R341 to R356), the layouts of tensor operands and of block-scaled data (R308, R318, R353), and the slot words of
a bundle (R340, R344, R349, R352, R357). -/

namespace Sys2Proof.Machine

/-! ## Registers (R343) -/

/-- s0 reads 0. -/
def Core.sreg (x : Core) (i : Nat) : W64 := if i = 0 then 0 else BitVec.ofNat 64 (Tbl.get x.s i 0)

/-- p0 reads 1. -/
def Core.preg (x : Core) (i : Nat) : Bool := i == 0 || x.p.getLsbD i

def zeroLanes : List W32 := List.replicate 512 0

def Core.vreg (x : Core) (i : Nat) : List W32 := Tbl.get x.v i zeroLanes

def Core.xreg (x : Core) (i : Nat) : Nat := Tbl.get x.x i 0

def Core.mreg (x : Core) (i : Nat) : W64 := BitVec.ofNat 64 (Tbl.get x.m i 0)

/-- The fields of an x register (R319). DESIGN CHOICE, log entry 28: unsafe. -/
def xScaleByte (v j : Nat) : Nat := v / 2 ^ (8 * j) % 256
def xTscale (v : Nat) : Nat := v / 2 ^ 256 % 2 ^ 32
def xEb (v : Nat) : Int := (BitVec.ofNat 16 (v / 2 ^ 288)).toInt

/-- Writing the low `n` bits of `v` at bit `lo` of `x`. -/
def putBits (x lo n v : Nat) : Nat := x - (x / 2 ^ lo % 2 ^ n) * 2 ^ lo + (v % 2 ^ n) * 2 ^ lo

/-- The guard of R341. -/
def Core.guard (x : Core) (g : Guard) : Bool := x.preg g.pidx.toNat != g.pneg

/-- Operand B of formats SA and SP: an s register, or IMM sign-extended. -/
def Core.opB (x : Core) (b : BitVec 5) (i : Bool) (imm : W32) : W64 :=
  if i then imm.signExtend 64 else x.sreg b.toNat

/-- A line address: an s register plus an offset, modulo 2^64. -/
def Core.lineAt (x : Core) (r : Nat) (off : W64) : Nat := (x.sreg r + off).toNat

/-! ## Scratchpad (R320) -/

/-- Lines of the scratchpad. -/
def spadLines : Nat := 393216

def Core.line (x : Core) (l : Nat) : List Byte := Tbl.get x.spad l (List.replicate 64 0)

def Core.setLine (x : Core) (l : Nat) (d : List Byte) : Core :=
  { x with spad := Tbl.put x.spad l d (List.replicate 64 0) }

def Core.setLines (x : Core) : Nat → List (List Byte) → Core
  | _, [] => x
  | l, d :: t => (x.setLine l d).setLines (l + 1) t

/-! ## Vector lanes -/

def laneBytes (l : List W32) : List Byte := l.flatMap fun w => leBytes 4 w.toNat

/-- Words of four bytes. -/
def wordsOf : Nat → List Byte → List W32
  | 0, _ => []
  | n + 1, l => BitVec.ofNat 32 (leVal (l.take 4)) :: wordsOf n (l.drop 4)

/-- The 16 lanes of a group. -/
def laneGroup (l : List W32) (g : Nat) : List W32 := (l.drop (16 * g)).take 16

/-- Replaces lanes from `i` on. -/
def putLanes (l : List W32) (i : Nat) (d : List W32) : List W32 := l.take i ++ d ++ l.drop (i + d.length)

/-- Replaces bytes from `i` on. -/
def putBytes (l : List Byte) (i : Nat) (d : List Byte) : List Byte := l.take i ++ d ++ l.drop (i + d.length)

/-- The elements of a register of 16-bit elements: element 2i low, 2i + 1 high (R353). -/
def halves (l : List W32) : List Nat := l.flatMap fun w => [w.toNat % 2 ^ 16, w.toNat / 2 ^ 16]

def joinHalves : List Nat → List W32
  | a :: b :: t => BitVec.ofNat 32 (a + b * 2 ^ 16) :: joinHalves t
  | _ => []

/-! ## Block-scaled layouts (R308, R318) -/

/-- The tensor formats, by format code f of R349. -/
inductive TFmt where
  | f4 | lb4 | e2m3 | e3m2 | e4m3 | e5m2 | bf16 | f16
  deriving DecidableEq, Repr

def TFmt.code : TFmt → Nat
  | .f4 => 0 | .lb4 => 1 | .e2m3 => 2 | .e3m2 => 3 | .e4m3 => 4 | .e5m2 => 5 | .bf16 => 6 | .f16 => 7

def TFmt.ofCode : Nat → TFmt
  | 0 => .f4 | 1 => .lb4 | 2 => .e2m3 | 3 => .e3m2 | 4 => .e4m3 | 5 => .e5m2 | 6 => .bf16 | _ => .f16

def TFmt.elem : TFmt → Fmt
  | .f4 | .lb4 => Machine.e2m1 | .e2m3 => Machine.e2m3 | .e3m2 => Machine.e3m2
  | .e4m3 => Machine.e4m3 | .e5m2 => Machine.e5m2 | .bf16 => Machine.bf16 | .f16 => Machine.f16

/-- Bits of one element. -/
def TFmt.width : TFmt → Nat
  | .f4 | .lb4 => 4 | .e2m3 | .e3m2 => 6 | .e4m3 | .e5m2 => 8 | .bf16 | .f16 => 16

/-- Elements of one block. -/
def TFmt.block : TFmt → Nat
  | .lb4 => 16 | .bf16 | .f16 => 1 | _ => 32

/-- K per tmma (R307). -/
def TFmt.kdim : TFmt → Nat
  | .bf16 | .f16 => 16
  | _ => 32

/-- Engine cycles of a normal tmma. -/
def TFmt.occ : TFmt → Nat
  | .f4 | .lb4 => 1 | .bf16 | .f16 => 4 | _ => 2

/-- Lines of an operand. -/
def TFmt.lines : TFmt → Nat
  | .f4 => 17 | .lb4 => 18 | .e2m3 | .e3m2 => 25 | .e4m3 | .e5m2 => 33 | .bf16 | .f16 => 32

/-- Element `k` of packed little-endian elements of `w` bits. -/
def packedElem (w : Nat) (l : List Byte) (k : Nat) : Nat :=
  let lo := w * k / 8
  leVal ((l.drop lo).take 3) / 2 ^ (w * k % 8) % 2 ^ w

/-- Packs elements of `w` bits, little-endian, into `n` bytes. -/
def packElems (w n : Nat) (l : List Nat) : List Byte :=
  leBytes n ((l.zipIdx).foldl (fun a x => a + x.1 * 2 ^ (w * x.2)) 0)

/-- The scale of an MX or LB4 block, none for NaN. -/
def scaleNum (f : TFmt) (b : Nat) : Option Num :=
  match f with
  | .lb4 => ue5m3 b
  | _ => (e8m0 b).map fun k => .fin false 1 k

/-- One row, or column, of an operand: its blocks' scales and exact element values. -/
def operandRow (f : TFmt) (bytes : List Byte) (r : Nat) : List (Option Num × List Num) :=
  let el := fun (l : List Byte) (k : Nat) => f.elem.decode (packedElem f.width l k)
  match f with
  | .bf16 | .f16 =>
    let l := (bytes.drop (32 * r)).take 32
    (upto 16).map fun k => (some (.fin false 1 0), [el l k])
  | .lb4 =>
    (upto 2).map fun h =>
      let b := 2 * (r % 16) + h
      let at0 := 288 * (r / 16)
      let l := (bytes.drop (at0 + 32 + 8 * b)).take 8
      (scaleNum .lb4 ((bytes.getD (at0 + b) 0).toNat), (upto 16).map (el l))
  | f =>
    let bb := 4 * f.width
    let at0 := (16 + 16 * bb) * (r / 16)
    let l := (bytes.drop (at0 + 16 + bb * (r % 16))).take bb
    [(scaleNum f ((bytes.getD (at0 + r % 16) 0).toNat), (upto 32).map (el l))]

/-! ## Slot words (R340, R341)

A slot word's opcode is in bits [7:0] and its guard in bits [11:8]; the other fields are those of its format. -/

abbrev SlotWord := BitVec 64

def SlotWord.opc (w : SlotWord) : Nat := w.toNat % 256
def SlotWord.guard (w : SlotWord) : Guard := { pidx := w.extractLsb' 8 3, pneg := w.getLsbD 11 }
def SlotWord.noFmt (w : SlotWord) : NoFmt := w.extractLsb' 12 52

def SlotWord.sa (w : SlotWord) : SA :=
  { d := w.extractLsb' 12 5, a := w.extractLsb' 17 5, b := w.extractLsb' 22 5, i := w.getLsbD 27,
    imm := w.extractLsb' 28 32, rsv := w.extractLsb' 60 4 }

def SlotWord.sp (w : SlotWord) : SP :=
  { pd := w.extractLsb' 12 3, a := w.extractLsb' 17 5, b := w.extractLsb' 22 5, i := w.getLsbD 27,
    imm := w.extractLsb' 28 32, rsv := w.extractLsb' 60 4 ++ w.extractLsb' 15 2 }

def SlotWord.sl (w : SlotWord) : SL :=
  { pd := w.extractLsb' 12 3, pa := w.extractLsb' 15 3, na := w.getLsbD 18, pb := w.extractLsb' 19 3,
    nb := w.getLsbD 22, rsv := w.extractLsb' 23 41 }

def SlotWord.sb (w : SlotWord) : SB :=
  { tgt := w.extractLsb' 12 14, a := w.extractLsb' 26 5, rsv := w.extractLsb' 31 33 }

def SlotWord.sx (w : SlotWord) : SX :=
  { d := w.extractLsb' 12 5, a := w.extractLsb' 17 5, h := w.getLsbD 22, imm := w.extractLsb' 28 32,
    rsv := w.extractLsb' 60 4 ++ w.extractLsb' 23 5 }

def SlotWord.tm (w : SlotWord) : TM :=
  { emask := w.extractLsb' 12 4, ls := w.getLsbD 16, acc := w.extractLsb' 17 2, of := w.getLsbD 19,
    ar := w.extractLsb' 20 5, aoff := w.extractLsb' 25 10, le := w.getLsbD 35, leng := w.extractLsb' 36 2,
    ll := w.getLsbD 38, br := w.extractLsb' 39 5, boff := w.extractLsb' 44 10, rsv := w.extractLsb' 54 10 }

def SlotWord.tc (w : SlotWord) : TC :=
  { eng := w.extractLsb' 12 2, acc := w.extractLsb' 14 2, mode := w.getLsbD 16, x := w.extractLsb' 17 4,
    rsv := w.extractLsb' 21 43 }

def SlotWord.ta (w : SlotWord) : TA :=
  { eng := w.extractLsb' 12 2, acc := w.extractLsb' 14 2, vs := w.extractLsb' 16 6, part := w.extractLsb' 22 5,
    rsv := w.extractLsb' 27 37 }

def SlotWord.vr (w : SlotWord) : VR :=
  { e := w.getLsbD 12, d := w.extractLsb' 13 6, a := w.extractLsb' 19 6, b := w.extractLsb' 25 6,
    c := w.extractLsb' 31 6, x := w.extractLsb' 37 4, f := w.getLsbD 41, sr := w.extractLsb' 42 5,
    part := w.extractLsb' 47 5, rsv := w.extractLsb' 52 12 }

def SlotWord.vm (w : SlotWord) : VM :=
  { e := w.getLsbD 12, d := w.extractLsb' 13 6, ar := w.extractLsb' 19 5, loff := w.extractLsb' 24 19,
    g := w.extractLsb' 43 5, nm1 := w.extractLsb' 48 5, rsv := w.extractLsb' 53 11 }

def SlotWord.vs (w : SlotWord) : VS :=
  { e := w.getLsbD 12, v := w.extractLsb' 13 6, s := w.extractLsb' 19 5, lane := w.extractLsb' 24 10,
    field := w.extractLsb' 34 2, xd := w.extractLsb' 36 4, rsv := w.extractLsb' 40 24 }

def SlotWord.ms (w : SlotWord) : MS :=
  { ctr := w.extractLsb' 12 3, entry := w.extractLsb' 15 11, wrap := w.getLsbD 26, vr := w.extractLsb' 27 5,
    line := w.extractLsb' 32 19, nm1 := w.extractLsb' 51 4, rsv := w.extractLsb' 55 9 }

def SlotWord.md (w : SlotWord) : MD :=
  { ctr := w.extractLsb' 12 3, vr := w.extractLsb' 15 5, lr := w.extractLsb' 20 5, nr := w.extractLsb' 25 5,
    rem := w.getLsbD 30, rr := w.extractLsb' 31 5, twin := w.getLsbD 36, rsv := w.extractLsb' 37 27 }

def SlotWord.ma (w : SlotWord) : MA :=
  { ctr := w.extractLsb' 12 3, vr := w.extractLsb' 15 5, opr := w.extractLsb' 20 5, cr := w.extractLsb' 25 5,
    rem := w.getLsbD 30, rr := w.extractLsb' 31 5, aop := w.extractLsb' 36 2, line := w.extractLsb' 38 19,
    rsv := w.extractLsb' 57 7 }

def SlotWord.mn (w : SlotWord) : MN :=
  { dst := w.extractLsb' 12 5, vs := w.extractLsb' 17 6, li := w.extractLsb' 23 5, lr := w.extractLsb' 28 5,
    loff := w.extractLsb' 33 19, rsv := w.extractLsb' 52 12 }

def SlotWord.mw (w : SlotWord) : MW :=
  { widx := w.extractLsb' 12 12, sr := w.extractLsb' 24 5, rem := w.getLsbD 29, rr := w.extractLsb' 30 5,
    ctr := w.extractLsb' 35 3, rsv := w.extractLsb' 38 26 }

def SlotWord.mp (w : SlotWord) : MP :=
  { a := w.extractLsb' 12 5, b := w.extractLsb' 17 5, ctr := w.extractLsb' 22 3, rsv := w.extractLsb' 25 39 }

/-- The S slot's instruction, none for a reserved opcode (R345). -/
def decodeS (c : Nat) (w : SlotWord) : Option Instr :=
  let g := w.guard
  match w.opc with
  | 0x00 => some (.sSlotNop c g w.noFmt)
  | 0x01 => some (.add c g w.sa) | 0x02 => some (.sub c g w.sa) | 0x03 => some (.mul c g w.sa)
  | 0x04 => some (.and c g w.sa) | 0x05 => some (.or c g w.sa) | 0x06 => some (.xor c g w.sa)
  | 0x07 => some (.shl c g w.sa) | 0x08 => some (.shr c g w.sa) | 0x09 => some (.sra c g w.sa)
  | 0x0A => some (.min c g w.sa) | 0x0B => some (.max c g w.sa)
  | 0x0C => some (.minu c g w.sa) | 0x0D => some (.maxu c g w.sa)
  | 0x0E => some (.li c g w.sa) | 0x0F => some (.lih c g w.sa)
  | 0x10 => some (.cmpEq c g w.sp) | 0x11 => some (.cmpNe c g w.sp) | 0x12 => some (.cmpLt c g w.sp)
  | 0x13 => some (.cmpGe c g w.sp) | 0x14 => some (.cmpLtu c g w.sp) | 0x15 => some (.cmpGeu c g w.sp)
  | 0x18 => some (.pand c g w.sl) | 0x19 => some (.por c g w.sl) | 0x1A => some (.pxor c g w.sl)
  | 0x20 => some (.br c g w.sb) | 0x21 => some (.bdec c g w.sb) | 0x22 => some (.endProg c g w.noFmt)
  | 0x28 => some (.rdcyc c g w.sx) | 0x29 => some (.rdstep c g w.sx) | 0x2A => some (.rdseed c g w.sx)
  | 0x2B => some (.stepadd c g w.sx) | 0x2C => some (.stepset c g w.sx)
  | _ => none

/-- The T slot's instruction (R349). -/
def decodeT (c : Nat) (w : SlotWord) : Option Instr :=
  let g := w.guard
  match w.opc with
  | 0x00 => some (.tnop c g w.noFmt) | 0x01 => some (.tclr c g w.tc) | 0x02 => some (.tadd c g w.ta)
  | 0x10 => some (.tmmaF4 c g w.tm) | 0x11 => some (.tmmaLb4 c g w.tm)
  | 0x12 => some (.tmmaE2m3 c g w.tm) | 0x13 => some (.tmmaE3m2 c g w.tm)
  | 0x14 => some (.tmmaE4m3 c g w.tm) | 0x15 => some (.tmmaE5m2 c g w.tm)
  | 0x16 => some (.tmmaBf16 c g w.tm) | 0x17 => some (.tmmaF16 c g w.tm)
  | _ => none

/-- The V slot's instruction (R352). -/
def decodeV (c : Nat) (w : SlotWord) : Option Instr :=
  let g := w.guard
  match w.opc with
  | 0x00 => some (.vnop c g w.noFmt)
  | 0x01 => some (.vaddF32 c g w.vr) | 0x02 => some (.vsubF32 c g w.vr) | 0x03 => some (.vmulF32 c g w.vr)
  | 0x04 => some (.vfmaF32 c g w.vr) | 0x05 => some (.vmaxF32 c g w.vr) | 0x06 => some (.vminF32 c g w.vr)
  | 0x08 => some (.vaddBf16 c g w.vr) | 0x09 => some (.vmulBf16 c g w.vr) | 0x0A => some (.vfmaBf16 c g w.vr)
  | 0x0C => some (.vsqrtF32 c g w.vr) | 0x0D => some (.vrcpF32 c g w.vr) | 0x0E => some (.vrsqrtF32 c g w.vr)
  | 0x10 => some (.vaddI32 c g w.vr) | 0x11 => some (.vsubI32 c g w.vr) | 0x12 => some (.vand c g w.vr)
  | 0x13 => some (.vor c g w.vr) | 0x14 => some (.vxor c g w.vr) | 0x15 => some (.vshlI32 c g w.vr)
  | 0x16 => some (.vshrI32 c g w.vr) | 0x17 => some (.vsraI32 c g w.vr)
  | 0x18 => some (.vld c g w.vm) | 0x19 => some (.vst c g w.vm)
  | 0x1A => some (.xld c g w.vm) | 0x1B => some (.xst c g w.vm)
  | 0x1C => some (.xset c g w.vs) | 0x1D => some (.vbcast c g w.vs) | 0x1E => some (.vmovs c g w.vs)
  | 0x20 => some (.vtrd c g w.vr) | 0x21 => some (.vtrdRaw c g w.vr)
  | 0x24 => some (.vcvtF32Bf16 c g w.vr) | 0x25 => some (.vpkBf16 c g w.vr)
  | 0x26 => some (.vcvtF32F16 c g w.vr) | 0x27 => some (.vpkF16 c g w.vr)
  | 0x28 => some (.vcvtF32I32 c g w.vr) | 0x29 => some (.vcvtI32F32 c g w.vr)
  | 0x30 => some (.vqscaleF4 c g w.vr) | 0x31 => some (.vqscaleLb4 c g w.vr)
  | 0x32 => some (.vqscaleE2m3 c g w.vr) | 0x33 => some (.vqscaleE3m2 c g w.vr)
  | 0x34 => some (.vqscaleE4m3 c g w.vr) | 0x35 => some (.vqscaleE5m2 c g w.vr)
  | 0x38 => some (.vpackF4 c g w.vr) | 0x39 => some (.vpackLb4 c g w.vr)
  | 0x3A => some (.vpackE2m3 c g w.vr) | 0x3B => some (.vpackE3m2 c g w.vr)
  | 0x3C => some (.vpackE4m3 c g w.vr) | 0x3D => some (.vpackE5m2 c g w.vr)
  | 0x40 => some (.vunpkF4 c g w.vr) | 0x41 => some (.vunpkLb4 c g w.vr)
  | 0x42 => some (.vunpkE2m3 c g w.vr) | 0x43 => some (.vunpkE3m2 c g w.vr)
  | 0x44 => some (.vunpkE4m3 c g w.vr) | 0x45 => some (.vunpkE5m2 c g w.vr)
  | _ => none

/-- The M slot's instruction (R357). -/
def decodeM (c : Nat) (w : SlotWord) : Option Instr :=
  let g := w.guard
  match w.opc with
  | 0x00 => some (.mnop c g w.noFmt) | 0x01 => some (.msp c g w.ms) | 0x02 => some (.mld c g w.md)
  | 0x03 => some (.mst c g w.md) | 0x04 => some (.matom c g w.ma) | 0x05 => some (.msend c g w.mn)
  | 0x06 => some (.whs c g w.mw) | 0x07 => some (.waitw c g w.mw) | 0x08 => some (.waitm c g w.mw)
  | 0x09 => some (.post c g w.mp)
  | _ => none

/-- The four instructions of a bundle, S slot in bits [63:0] (R340); none when a slot has a reserved opcode. -/
def decodeBundle (c : Nat) (b : Nat) : Option (List Instr) :=
  let w := fun i => BitVec.ofNat 64 (b / 2 ^ (64 * i))
  match decodeS c (w 0), decodeT c (w 1), decodeV c (w 2), decodeM c (w 3) with
  | some i, some j, some k, some l => some [i, j, k, l]
  | _, _, _, _ => none

end Sys2Proof.Machine
end

