-- ==== Sys2Proof/Machine/Hbm.lean ====
section
/-! DEFINITION. How a block stands in HBM: AES-256-XTS (R243, R244) and the Reed-Solomon code over GF(2^16) (R245). -/

namespace Sys2Proof.Machine

/-! ## AES-256 (FIPS 197, which IEEE 1619 names)

A state is 16 bytes, column after column. -/

/-- The product in GF(2^8), whose polynomial is x^8 + x^4 + x^3 + x + 1. -/
def gf8Mul (a b : Nat) : Nat :=
  ((upto 8).foldl (fun (x : Nat × Nat) i =>
    (if bit b i then x.1 ^^^ x.2 else x.1, if 128 ≤ x.2 then (2 * x.2) ^^^ 0x11B else 2 * x.2)) (0, a)).1

/-- The inverse in GF(2^8), which is the 254th power; 0 for 0. -/
def gf8Inv (a : Nat) : Nat :=
  ((upto 7).foldl (fun (x : Nat × Nat) _ => let q := gf8Mul x.2 x.2; (gf8Mul x.1 q, q)) (1, a)).1

/-- A byte turned left by `n`. -/
def rotByte (a n : Nat) : Nat := (a * 2 ^ n) % 256 + a / 2 ^ (8 - n)

def sbox (a : Nat) : Nat :=
  let b := gf8Inv a
  b ^^^ rotByte b 1 ^^^ rotByte b 2 ^^^ rotByte b 3 ^^^ rotByte b 4 ^^^ 0x63

def invSbox (a : Nat) : Nat := gf8Inv (rotByte a 1 ^^^ rotByte a 3 ^^^ rotByte a 6 ^^^ 0x05)

def xorBytes (a b : List Nat) : List Nat := a.zipWith (· ^^^ ·) b

/-- Row `r` of the state turned left by `r` places, or by `4 - r` to undo it. -/
def shiftRows (turn : Nat) (x : List Nat) : List Nat :=
  (upto 16).map fun i => x.getD ((i + 4 * (turn * (i % 4))) % 16) 0

/-- Every column times the circulant matrix whose first row is `m`. -/
def mixColumns (m : List Nat) (x : List Nat) : List Nat :=
  (upto 16).map fun i => (upto 4).foldl (fun v j =>
    v ^^^ gf8Mul (m.getD ((4 + j - i % 4) % 4) 0) (x.getD (i / 4 * 4 + j) 0)) 0

/-- The 60 words of the key schedule; `w` holds them newest first. -/
def aesWords : Nat → Nat → Nat → List (List Nat) → List (List Nat)
  | 0, _, _, w => w
  | n + 1, i, rcon, w =>
    let t := w.headD []
    let t :=
      if i % 8 = 0 then xorBytes ((t.drop 1 ++ t.take 1).map sbox) [rcon, 0, 0, 0]
      else if i % 8 = 4 then t.map sbox
      else t
    aesWords n (i + 1) (if i % 8 = 0 then gf8Mul 2 rcon else rcon) (xorBytes (w.getD 7 []) t :: w)

/-- The 15 round keys of a 32-byte key. -/
def aesKeys (key : List Nat) : List (List Nat) :=
  let w := (aesWords 52 8 1 ((upto 8).map fun i => (key.drop (4 * i)).take 4).reverse).reverse
  (upto 15).map fun r => ((w.drop (4 * r)).take 4).flatten

def aesEncrypt (key x : List Nat) : List Nat :=
  let ks := aesKeys key
  let x := xorBytes x (ks.headD [])
  let x := ((ks.drop 1).take 13).foldl (fun x k =>
    xorBytes (mixColumns [2, 3, 1, 1] (shiftRows 1 (x.map sbox))) k) x
  xorBytes (shiftRows 1 (x.map sbox)) (ks.getD 14 [])

def aesDecrypt (key x : List Nat) : List Nat :=
  let ks := (aesKeys key).reverse
  let x := (shiftRows 3 (xorBytes x (ks.headD []))).map invSbox
  let x := ((ks.drop 1).take 13).foldl (fun x k =>
    (shiftRows 3 (mixColumns [14, 11, 13, 9] (xorBytes x k))).map invSbox) x
  xorBytes x (ks.getD 14 [])

/-! ## XTS (R243, R244) -/

def natBytes (l : List Byte) : List Nat := l.map (·.toNat)

/-- A tweak times α: a 128-bit little-endian number doubled. -/
def tweakStep (t : Nat) : Nat := if 2 ^ 127 ≤ t then (2 * t % 2 ^ 128) ^^^ 0x87 else 2 * t

/-- The mask of 16-byte unit `j` of block `b`: the tweak value is PA[38:6] under Key2, times α for each unit before. -/
def unitMask (slot : List Byte) (b j : Nat) : List Nat :=
  let t := aesEncrypt (natBytes ((slot.drop 32).take 32)) (natBytes (leBytes 16 b))
  natBytes (leBytes 16 ((upto j).foldl (fun t _ => tweakStep t) (leVal (t.map (BitVec.ofNat 8 ·)))))

/-- Unit `j` of block `b`, encrypted under a key store slot's 64 bytes: Key1 is bytes 0 to 31, Key2 bytes 32 to 63. -/
def encryptUnit (slot : List Byte) (b j : Nat) (p : List Byte) : List Byte :=
  let m := unitMask slot b j
  (xorBytes (aesEncrypt (natBytes (slot.take 32)) (xorBytes (natBytes p) m)) m).map (BitVec.ofNat 8 ·)

def decryptUnit (slot : List Byte) (b j : Nat) (c : List Byte) : List Byte :=
  let m := unitMask slot b j
  (xorBytes (aesDecrypt (natBytes (slot.take 32)) (xorBytes (natBytes c) m)) m).map (BitVec.ofNat 8 ·)

/-- The four units of a block. -/
def onUnits (f : Nat → List Byte → List Byte) (d : List Byte) : List Byte :=
  (upto 4).flatMap fun j => f j ((d.drop (16 * j)).take 16)

def encryptBlock (slot : List Byte) (b : Nat) (d : List Byte) : List Byte := onUnits (encryptUnit slot b) d
def decryptBlock (slot : List Byte) (b : Nat) (d : List Byte) : List Byte := onUnits (decryptUnit slot b) d

/-! ## The error code (R245)

A block's message is two symbols of PA[38:6], which are not stored, and 32 data symbols; four check symbols follow.  The
roots of the generator are 1, α, α^2 and α^3 for α = x; a symbol is two bytes, the first the less significant one; the
symbol of PA's upper bits comes first, and the message's first symbol has the highest power. -/

/-- The product in GF(2^16), whose polynomial is x^16 + x^12 + x^3 + x + 1. -/
def gf16Mul (a b : Nat) : Nat :=
  ((upto 16).foldl (fun (x : Nat × Nat) i =>
    (if bit b i then x.1 ^^^ x.2 else x.1, if 2 ^ 15 ≤ x.2 then (2 * x.2) ^^^ 0x1100B else 2 * x.2)) (0, a)).1

def gf16Pow : Nat → Nat → Nat
  | _, 0 => 1
  | a, n + 1 => gf16Mul a (gf16Pow a n)

/-- The generator polynomial's coefficients below x^4, highest first. DESIGN CHOICE, log entry 93: unsafe. -/
def checkGenerator : List Nat :=
  let g := (upto 4).foldl (fun (g : List Nat) j =>
    (g ++ [0]).zipWith (· ^^^ ·) (0 :: g.map (gf16Mul (gf16Pow 2 j)))) [1]
  g.drop 1

/-- The four check symbols of a message. -/
def checkSymbols (msg : List Nat) : List Nat :=
  msg.foldl (fun r m =>
    let k := m ^^^ r.headD 0
    (r.drop 1 ++ [0]).zipWith (fun a c => a ^^^ gf16Mul k c) checkGenerator) [0, 0, 0, 0]

/-- The message of block `b` with ciphertext `c`; PA[38:6] has 33 bits and two symbols hold 32, so PA[38] is added to the
lowest bit of the upper one. DESIGN CHOICE, log entry 93: unsafe. -/
def blockMessage (b : Nat) (c : List Byte) : List Nat :=
  [b / 2 ^ 16 % 2 ^ 16 ^^^ b / 2 ^ 32 % 2, b % 2 ^ 16] ++ (upto 32).map fun i => field c (2 * i) 2

/-- What the stack stores for a block: 64 ciphertext bytes and 8 check bytes. -/
def storedBytes (b : Nat) (c : List Byte) : List Byte := c ++ (checkSymbols (blockMessage b c)).flatMap (leBytes 2)

/-- The power of x at which a symbol stands: data symbols 0 to 31, check symbols 32 to 35, and the symbols of PA as 36
and 37. DESIGN CHOICE, log entry 93: unsafe. -/
def symPower (i : Nat) : Nat := if i < 36 then 35 - i else 73 - i

/-- How a block comes out of the code. -/
inductive Decoded where
  | good
  | corrected (sym val : Nat)
  | uncorrectable
  deriving DecidableEq, Repr

/-- The syndromes of a received block: the code is linear, so they are those of its errors alone. -/
def syndromes (errs : List (Nat × Nat)) : List Nat :=
  (upto 4).map fun j => errs.foldl (fun v e => v ^^^ gf16Mul e.2 (gf16Pow (gf16Pow 2 j) (symPower e.1))) 0

/-- Decodes a received block from the symbols in error, each with what it differs by: any one stored symbol is
corrected; an error in the symbols of PA, which is a block of another place, is uncorrectable. -/
def decodeErrs (errs : List (Nat × Nat)) : Decoded :=
  match syndromes errs with
  | [s0, s1, s2, s3] =>
    if s0 = 0 ∧ s1 = 0 ∧ s2 = 0 ∧ s3 = 0 then .good
    else
      match (upto 36).find? fun i =>
          let x := gf16Pow 2 (symPower i)
          s0 != 0 && s1 == gf16Mul s0 x && s2 == gf16Mul s1 x && s3 == gf16Mul s2 x with
      | some i => .corrected i s0
      | none => .uncorrectable
  | _ => .uncorrectable

/-- The errors left once a symbol is corrected. -/
def correctErr (i v : Nat) (errs : List (Nat × Nat)) : List (Nat × Nat) :=
  let old := (errs.find? fun e => e.1 == i).elim 0 (·.2)
  let rest := errs.filter fun e => e.1 != i
  if old ^^^ v = 0 then rest else (i, old ^^^ v) :: rest

/-- Ciphertext bytes with errors of their data symbols in them. -/
def withErrs (c : List Byte) (errs : List (Nat × Nat)) : List Byte :=
  (c.zipIdx).map fun x =>
    let e := (errs.find? fun e => e.1 == x.2 / 2).elim 0 (·.2)
    x.1 ^^^ BitVec.ofNat 8 (e / 2 ^ (8 * (x.2 % 2)))

end Sys2Proof.Machine
end

