-- ==== Sys2Proof/Machine/PoolOps.lean ====
section
/-! DEFINITION. The pool: bytes, page tables, access checks, atomics, stores with their mirror writes, and the
Scent log's records (R234 to R251, R387 to R390). -/

namespace Sys2Proof.Machine

/-! ## Bytes

A byte that nothing has written reads 0 (log entry 6). -/

/-- The byte at a physical address. DESIGN CHOICE, log entry 6: unsafe. -/
def Pool.byte (p : Pool) (a : Nat) : Byte := Tbl.get p.mem a 0

/-- Stores a byte; the list stays in its canonical form. DESIGN CHOICE, log entry 6: unsafe. -/
def Pool.setByte (p : Pool) (a : Nat) (b : Byte) : Pool := { p with mem := Tbl.put p.mem a b 0 }

/-- Stores bytes from `a` on. -/
def Pool.setBytes (p : Pool) : Nat → List Byte → Pool
  | _, [] => p
  | a, b :: l => (p.setByte a b).setBytes (a + 1) l

/-- `n` bytes from `a` on. -/
def Pool.getBytes (p : Pool) (a n : Nat) : List Byte := (upto n).map fun i => p.byte (a + i)

/-- The canonical form of the memory: addresses strictly rising, and no listed byte that an unlisted address would read
as. -/
def Pool.wf (p : Pool) : Bool := Tbl.sorted p.mem && p.mem.all fun c => c.2 != 0

/-! ## Translation (R236, R237) -/

def Pte.v (e : Nat) : Bool := bit e 0
def Pte.w (e : Nat) : Bool := bit e 1
def Pte.m (e : Nat) : Bool := bit e 2
def Pte.mt (e : Nat) : Bool := bit e 3
def Pte.stale (e : Nat) : Bool := bit e 4
def Pte.ppn (e : Nat) : Nat := bits e 25 8
def Pte.mgen (e : Nat) : Nat := bits e 63 32

/-- An entry in the form R237 demands. -/
def Pte.formOk (e : Nat) : Bool := bits e 7 5 == 0 && bits e 31 26 == 0 && Pte.ppn e ≤ 196607

/-- A level-1 entry with only V and L2BASE. -/
def L1e.formOk (e : Nat) : Bool := bits e 14 1 == 0 && bits e 63 39 == 0

/-- The address of the level-2 table that a level-1 entry names (R236). -/
def L1e.base (e : Nat) : Nat := bits e 38 15 * 2 ^ 15

/-- The 8-byte little-endian word at a physical address (R11). -/
def Pool.word (p : Pool) (a : Nat) : Nat := leVal (p.getBytes a 8)

/-- The kennel's level-1 entry for a page, at its root; 0 without a root, and beyond the table's 8,192 entries, where a VA
with VA[47:46] other than 0 is unmapped (R236). -/
def entry1 (s : State) (k page : Nat) : Nat :=
  match (s.kennel k).root with
  | some r => if page / 4096 < 8192 then s.pool.word (r + 8 * (page / 4096)) else 0
  | none => 0

/-- The address of the level-2 entry for a page, when its table is present. -/
def entryAddr (s : State) (k page : Nat) : Option Nat :=
  let e := entry1 s k page
  if bit e 0 && L1e.formOk e then some (L1e.base e + 8 * (page % 4096)) else none

/-- The level-2 entry for a page as it stands, 0 where there is no table. -/
def entry2 (s : State) (k page : Nat) : Nat := (entryAddr s k page).elim 0 s.pool.word

/-- The level-2 entry that maps a page of a kennel, valid and well formed. -/
def pageEntry (s : State) (k page : Nat) : Option Nat :=
  let e := entry2 s k page
  if Pte.v e && Pte.formOk e then some e else none

/-- Whether the walk for a page meets an entry that R237 treats as not valid for its form. -/
def badFormat (s : State) (k page : Nat) : Bool :=
  !L1e.formOk (entry1 s k page) || !Pte.formOk (entry2 s k page)

/-- The words of the `n`-entry table at `a` that are not 0, each with its index. -/
def Pool.entries (p : Pool) (a n : Nat) : List (Nat × Nat) :=
  (((p.mem.filter fun c => a ≤ c.1 && c.1 < a + 8 * n).map fun c => (c.1 - a) / 8).eraseDups).map fun i =>
    (i, p.word (a + 8 * i))

/-- The level-1 entries of the table at a root that are not 0, each with its index. -/
def rootEntries (s : State) (root : Option Nat) : List (Nat × Nat) :=
  match root with
  | some r => s.pool.entries r 8192
  | none => []

/-- The level-1 entries of a kennel that are not 0. -/
def l1Entries (s : State) (k : Nat) : List (Nat × Nat) := rootEntries s (s.kennel k).root

/-- The level-2 entries of a kennel that are not 0, each with its page. -/
def l2Entries (s : State) (k : Nat) : List (Nat × Nat) :=
  (l1Entries s k).flatMap fun e =>
    if bit e.2 0 then (s.pool.entries (L1e.base e.2) 4096).map fun w => (4096 * e.1 + w.1, w.2) else []

/-- The kennel that holds a physical page. -/
def holderOf (s : State) (ppn : Nat) : Option Nat :=
  ((s.knl.filter fun x => x.2.live).find? fun x =>
    (l2Entries s x.1).any fun e => Pte.v e.2 && Pte.ppn e.2 == ppn).map (·.1)

/-- The pages that `n` bytes from `va` touch. -/
def pagesOf (va n : Nat) : List Nat :=
  if n = 0 then [] else (upto ((va + n - 1) / 2 ^ 21 - va / 2 ^ 21 + 1)).map (· + va / 2 ^ 21)

/-- The physical address of a virtual one, when its page is mapped. -/
def physAddr (s : State) (k va : Nat) : Option Nat :=
  (pageEntry s k (va / 2 ^ 21)).map fun e => Pte.ppn e * 2 ^ 21 + va % 2 ^ 21

/-- The 64-byte blocks, PA[38:6], that `n` bytes from `va` cover. -/
def blocksOf (s : State) (k va n : Nat) : List Nat :=
  if n = 0 then [] else
  (upto ((va + n - 1) / 64 - va / 64 + 1)).filterMap fun i => (physAddr s k ((va / 64 + i) * 64)).map (· / 64)

/-! ## Checks (R241) -/

def PoolOp.isAtomic : PoolOp → Bool
  | .read _ | .write _ => false
  | _ => true

def PoolOp.isWrite : PoolOp → Bool
  | .read _ => false
  | _ => true

/-- Bytes an access touches. -/
def PoolOp.len : PoolOp → Nat
  | .read n => n
  | .write d => d.length
  | .faddI32 _ | .faddF32 _ => 4
  | .faddI64 _ | .cas _ _ => 8

/-- Alignment an access must have. -/
def PoolOp.align : PoolOp → Nat
  | .read _ | .write _ => 16
  | .faddI32 _ | .faddF32 _ => 4
  | .faddI64 _ | .cas _ _ => 8

/-- The tests of R241 before an access is translated. -/
def refusedEarly (s : State) (k va : Nat) (op : PoolOp) : Option Nat :=
  let kn := s.kennel k
  if !s.hasPool then some Code.featureNotAccepted
  else if !kn.feature 1 || (op.isAtomic && !kn.feature 2) then some Code.featureNotAccepted
  else if s.cryptoErr || s.dieOut then some Code.checkFail
  else if va % op.align ≠ 0 then some Code.badDescriptor
  else none

/-- The tests of R241 on the access's pages; `mirror` marks a mirror write of the tray-mate. -/
def refusedPages (s : State) (k va : Nat) (op : PoolOp) (mirror : Bool) : Option Nat :=
  let ps := pagesOf va op.len
  if ps.any fun p => (pageEntry s k p).isNone then some Code.protection
  else if op.isWrite && ps.any fun p => !Pte.w ((pageEntry s k p).getD 0) then some Code.protection
  else if op.isWrite && !mirror && ps.any fun p => Pte.mt ((pageEntry s k p).getD 0) then
    some Code.protection
  else match op with
    | .faddF32 _ => if (s.kennel k).repro then some Code.notReproducible else none
    | _ => none

/-- The first failing test of R241 before the memory is read. -/
def poolCheck (s : State) (k va : Nat) (op : PoolOp) (mirror : Bool) : Option Nat :=
  refusedEarly s k va op <|> refusedPages s k va op mirror

/-- Raises the page-table-format source when an access is translated and its walk meets a malformed entry (R237). -/
def walkRaise (k va : Nat) (op : PoolOp) (s : State) : State :=
  cond' ((refusedEarly s k va op).isNone && (pagesOf va op.len).any (badFormat s k)) (raise 721) s

/-- Raises it for ranges that a unit of the module translates (R237). -/
def walkRanges (k : Nat) (rs : List (Nat × Nat)) (s : State) : State :=
  cond' (rs.any fun r => (pagesOf r.1 r.2).any (badFormat s k)) (raise 721) s

/-- A block on a stack out of service. -/
def blockLost (s : State) (b : Nat) : Bool := !bit (s.rd F.POL_STS_STKUP) (b / 4 % 8)

/-- The stored symbols of a block that are in error. -/
def Pool.errsOf (p : Pool) (b : Nat) : List (Nat × Nat) :=
  (p.errs.filter fun x => x.1 / 64 == b).map fun x => (x.1 % 64, x.2.toNat)

/-- A block that the code finds uncorrectable (R245). -/
def Pool.isBad (p : Pool) (b : Nat) : Bool :=
  let es := p.errsOf b
  !es.isEmpty && decodeErrs es == .uncorrectable

/-- A block that cannot be read: uncorrectable, or on a stack out of service (R234, R246). -/
def blockBad (s : State) (b : Nat) : Bool := s.pool.isBad b || blockLost s b

/-- Records an uncorrectable read (R246). -/
def logUncorrectable (b : Nat) (s : State) : State :=
  raise 722 (((s.count F.POL_UE_CNT_COUNT).wr F.POL_ECCLOG_BLOCK b 1).wr F.POL_ECCLOG_VALID 1 1)

/-- Records a corrected block (R246). -/
def logCorrected (b : Nat) (s : State) : State :=
  ((s.count F.POL_CE_CNT_COUNT).wr F.POL_ECCLOG_BLOCK b 0).wr F.POL_ECCLOG_VALID 1 0

/-! ## Reading and writing through a translation -/

/-- `n` bytes of the kennel's window; an unmapped byte reads 0, which the checks rule out. -/
def readVa (s : State) (k va n : Nat) : List Byte :=
  (upto n).map fun i => match physAddr s k (va + i) with
    | some a => s.pool.byte a
    | none => 0

/-- Writes bytes of the kennel's window; the code of a block covered whole is formed anew, so the block is good again
(R244, R246). -/
def writeVa (k va : Nat) (d : List Byte) (s : State) : State :=
  let pool := (d.zipIdx).foldl (fun p x => match physAddr s k (va + x.2) with
    | some a => p.setByte a x.1
    | none => p) s.pool
  let whole := (blocksOf s k va d.length).filter fun b =>
    !((va % 64 ≠ 0 && some b == (physAddr s k (va / 64 * 64)).map (· / 64)) ||
      ((va + d.length) % 64 ≠ 0 && some b == (physAddr s k ((va + d.length) / 64 * 64)).map (· / 64)))
  { s with pool := { pool with errs := pool.errs.filter fun x => !whole.contains (x.1 / 64) } }

/-! ## What the stacks hold (R243 to R246)

The memory is kept decrypted: a page is written with zeros under its kennel's key before it is used, and that key stays
until the page is freed, so what a block stores is a function of its bytes. -/

/-- The 64 bytes of the key store slot under which a block is encrypted. DESIGN CHOICE, log entry 7: unsafe. -/
def keyOf (s : State) (b : Nat) : List Byte :=
  (((holderOf s (b / 2 ^ 15)).bind fun k => (s.kennel k).key).bind (Tbl.find s.klp.keys)).getD (List.replicate 64 0)

/-- The ciphertext of a block. DESIGN CHOICE, log entry 7: unsafe. -/
def cipherOf (s : State) (b : Nat) : List Byte := encryptBlock (keyOf s b) b (s.pool.getBytes (64 * b) 64)

/-- The 72 bytes that the stack holds for a block, as they were written (R245). -/
def storedBlock (s : State) (b : Nat) : List Byte := storedBytes b (cipherOf s b)

/-- Symbols of stored blocks change by themselves. DESIGN CHOICE, log entry 94: safe. -/
def disturb (fs : List Flip) (s : State) : State :=
  { s with pool := { s.pool with errs := fs.foldl (fun e f =>
    let i := 64 * f.block + f.sym % 38
    Tbl.put e i (Tbl.get e i 0 ^^^ f.mask) 0) s.pool.errs } }

/-- A block stands as a codeword again; errors that the code does not show stay in its data. -/
def restore (b : Nat) (left : List (Nat × Nat)) (s : State) : State :=
  let pool := { s.pool with errs := s.pool.errs.filter fun x => x.1 / 64 != b }
  if left.any fun e => e.1 < 32 then
    { s with pool := pool.setBytes (64 * b) (decryptBlock (keyOf s b) b (withErrs (cipherOf s b) left)) }
  else { s with pool := pool }

/-- Reads a block through its code (R246): whether its data came out.  A corrected block is written back, counted and
logged; an uncorrectable one is counted, logged and raises its source; one on a lost stack cannot be read (R234). -/
def readBlock (b : Nat) (s : State) : Bool × State :=
  let es := s.pool.errsOf b
  if blockLost s b then (false, s)
  else if es.isEmpty then (true, s)
  else match decodeErrs es with
    | .good => (true, restore b es s)
    | .corrected i v => (true, logCorrected b (restore b (correctErr i v es) s))
    | .uncorrectable => (false, logUncorrectable b s)

/-- Reads several blocks: whether every one came out. -/
def readAll (bs : List Nat) (s : State) : Bool × State :=
  bs.foldl (fun a b => let (ok, s) := readBlock b a.2; (a.1 && ok, s)) (true, s)

/-- The blocks whose bytes an access must read: each block of a READ or an atomic, and each block that a WRITE covers
only in part. -/
def readBlocks (s : State) (k va : Nat) (op : PoolOp) : List Nat :=
  match op with
  | .write d =>
    let part := (if va % 64 ≠ 0 then [va / 64] else []) ++
      (if (va + d.length) % 64 ≠ 0 ∧ ((va + d.length) / 64 ≠ va / 64 ∨ va % 64 = 0) then
        [(va + d.length) / 64] else [])
    part.filterMap fun vb => (physAddr s k (vb * 64)).map (· / 64)
  | _ => blocksOf s k va op.len

/-- The memory's test of an access that passed its checks (R241, test 8): the status of one that fails. -/
def memCheck (k va : Nat) (op : PoolOp) (s : State) : Option Nat × State :=
  if (blocksOf s k va op.len).any (blockLost s) then (some Code.checkFail, s)
  else
    let (ok, s) := readAll (readBlocks s k va op) s
    (if ok then none else some Code.checkFail, s)

/-- Every test of R241, in order, on an access that is served as it is checked. -/
def fullCheck (k va : Nat) (op : PoolOp) (s : State) : Option Nat × State :=
  match poolCheck s k va op false with
  | some code => (some code, walkRaise k va op s)
  | none => memCheck k va op s

/-- The corrected blocks among `bs` are not written back yet: the state `t` after their reading keeps what the stacks held
before, in `s`, and the write-backs wait (R373). -/
def holdBack (bs : List Nat) (s t : State) : State :=
  let fixed := bs.filter fun b => s.pool.errsOf b != t.pool.errsOf b
  { t with pool := { t.pool with mem := s.pool.mem, errs := s.pool.errs, fixes := s.pool.fixes ++ fixed } }

/-- The write-backs that have waited are made (R246, R373). -/
def writeBack (s : State) : State :=
  s.pool.fixes.foldl (fun s b =>
    let es := s.pool.errsOf b
    match decodeErrs es with
    | .corrected i v => if es.isEmpty then s else restore b (correctErr i v es) s
    | _ => s) { s with pool := { s.pool with fixes := [] } }

/-- The pages of a write that are mirrored and in step (R249, R251). -/
def mirrorPages (s : State) (k va n : Nat) : List Nat :=
  (pagesOf va n).filter fun p =>
    match pageEntry s k p with
    | some e => Pte.m e && !Pte.stale e
    | none => false

/-! ## Commands, programs and accesses that wait on the pool -/

def isCmd (k q : Nat) (seq : W32) (c : Cmd) : Bool := c.k == k && c.q == q && c.seq == seq

def findCmd (s : State) (k q : Nat) (seq : W32) : Option Cmd := s.cmds.find? (isCmd k q seq)

def modCmd (k q : Nat) (seq : W32) (f : Cmd → Cmd) (s : State) : State :=
  { s with cmds := ListOps.update (isCmd k q seq) f s.cmds }

/-- The first failure detected sets a command's status (R229). -/
def Cmd.fail (c : Cmd) (code : Nat) : Cmd := if c.status = 0 then { c with status := code } else c

def modColl (id : Nat) (f : Coll → Coll) (s : State) : State :=
  { s with rtv := { s.rtv with colls := ListOps.update (fun c => c.id == id) f s.rtv.colls } }

/-- Changes a move-engine transfer of a core. -/
def modMove (c id : Nat) (f : Move → Move) (s : State) : State :=
  s.modCore c fun x => { x with moves := ListOps.update (fun m => m.id == id) f x.moves }

/-- Data of a transfer reaches the core: lines of a load by their place in the transfer, or an atomic's old value in
bytes 0–7 of its line, with the line's other bytes 0 (R357, R359). -/
def landMove (c id off : Nat) (d : List Byte) (s : State) : State :=
  s.modCore c fun x =>
    match x.moves.find? fun m => m.id == id with
    | none => x
    | some m =>
      let more := fun (m : Move) => { m with outst := m.outst - 1, landed := m.landed + d.length }
      let x := { x with moves := ListOps.update (fun m => m.id == id) more x.moves }
      let put := fun (x : Core) (l : Nat) (b : List Byte) =>
        { x with spad := Tbl.put x.spad l b (List.replicate 64 0) }
      match m.op with
      | .load _ line _ _ =>
        (upto (d.length / 64)).foldl (fun x i => put x (line + off / 64 + i) ((d.drop (64 * i)).take 64)) x
      | .atom _ _ _ _ _ line => put x line (d.take 8 ++ List.replicate 56 0)
      | _ => x

/-- The place of a local access in its transfer. -/
def moveOffset (s : State) (c id va : Nat) : Nat :=
  match (s.core c).moves.find? fun m => m.id == id with
  | some m => match m.op with
    | .load v _ _ _ => va - v
    | _ => 0
  | none => 0

/-! ## Packets before the windows -/

/-- The request header of a packet of a kennel on a class's pre-dateline channel. -/
def requestHead (s : State) (k opc vc dst addr len : Nat) (payload : List Byte) : Packet :=
  let kn := s.kennel k
  { dst := BitVec.ofNat 16 dst, src := BitVec.ofNat 16 s.self, ktag := kn.ktag, win := 0, psn := 0,
    addr := BitVec.ofNat 48 addr, vc := BitVec.ofNat 3 vc, opc := BitVec.ofNat 6 opc,
    len := BitVec.ofNat 9 len, fen := false, cmk := 0, epb := s.spg.epb, dln := 0, twn := false, col := 0,
    hop := 0, gen := kn.gen, rsv := 0, payload := payload, check := 0 }

/-- Puts a packet before the network interface's windows. -/
def enqueue (pkt : Packet) (o : Owner) (port : Option Nat) (s : State) : State :=
  { s with ni := { s.ni with queue := s.ni.queue ++ [⟨s.ni.nextQ, pkt, o, port⟩], nextQ := s.ni.nextQ + 1 } }

/-! ## The module's own messages (R520) -/

/-- A MGMT_MSG of the module itself, with KTAG 0 on VC 6. -/
def moduleMsg (s : State) (dst addr : Nat) (payload : List Byte) : Packet :=
  { dst := BitVec.ofNat 16 dst, src := BitVec.ofNat 16 s.self, ktag := 0, win := 0, psn := 0,
    addr := BitVec.ofNat 48 addr, vc := 6, opc := 0x20, len := BitVec.ofNat 9 (payload.length / 16), fen := false,
    cmk := 0, epb := s.spg.epb, dln := 0, twn := false, col := 0, hop := 0, gen := 0, rsv := 0, payload := payload,
    check := 0 }

/-! ## Resynchronisation (R457) -/

def resyncAddr : Nat := 0xFFFFFFFFFC00

/-- The resync complete: KTAG, VA and MGEN of the page. -/
def sendResyncComplete (r : Resync) (s : State) : State :=
  let e := (pageEntry s r.k r.page).getD 0
  let b := leBytes 8 (s.kennel r.k).ktag.toNat ++ leBytes 8 (r.page * 2 ^ 21) ++ leBytes 16 (Pte.mgen e)
  match trayPort s with
  | some p => enqueue (moduleMsg s (mateEid s) resyncAddr b) .module (some p) s
  | none => { s with tray := { s.tray with resync := none } }.wr F.TWN_RSYNC_FAIL 1

/-- One copy write of a resynchronisation has been answered. -/
def resyncCopied (id : Nat) (s : State) : State :=
  match s.tray.resync with
  | some r =>
    if r.id = id then
      let r := { r with copied := r.copied + 1 }
      let s := { s with tray := { s.tray with resync := some r } }
      if r.copied = 32768 then sendResyncComplete r s else s
    else s
  | none => s

/-! ## Data that a command moves through the pool (R210, R252, R254) -/

/-- The new access number. -/
def newAcc (a : PoolAcc) (s : State) : State :=
  { s with pool := { s.pool with accs := s.pool.accs ++ [{ a with id := s.pool.nextAcc, at' := s.time }],
                                 nextAcc := s.pool.nextAcc + 1 } }

/-- Asks the pool for a command's next piece of at most 4,096 bytes, after the checks of R241.
DEDUCED, log entry 19: safe. -/
def askPiece (c : Cmd) (va off : Nat) (op : PoolOp) (upd : Cmd → Cmd) (s : State) : State :=
  match poolCheck s c.k va op false with
  | some code => modCmd c.k c.q c.seq (fun c => c.fail code) (walkRaise c.k va op s)
  | none =>
    newAcc { id := 0, k := c.k, va := va, op := op, asker := .cmd c.k c.q c.seq off }
      (modCmd c.k c.q c.seq (fun c => upd { c with outst := c.outst + 1 }) s)

/-- The address and length of the range that two ranges share, in one window. DESIGN CHOICE, log entry 20: unsafe. -/
def overlap (a b n : Nat) : Nat × Nat := (max a b, min (a + n) (b + n) - max a b)

/-- The bytes that a COPY writes from offset `off` on: those within the overlap of two local ranges are undefined.
DESIGN CHOICE, log entry 20: unsafe. -/
def copyBytes (c : Cmd) (off : Nat) (d : List Byte) (s : State) : List Byte × State :=
  let sa := field c.desc 16 6
  let da := field c.desc 24 6
  let (oa, on) := if bit (field c.desc 36 1) 0 then overlap sa da (field c.desc 40 8) else (0, 0)
  let shared := fun (i : Nat) => oa ≤ da + off + i && da + off + i < oa + on
  let (u, s) := s.freeBytes ((upto d.length).filter shared).length
  (((d.zipIdx).foldl (fun (a : List Byte × List Byte) x =>
    if shared x.2 then (a.1 ++ [a.2.headD 0], a.2.drop 1) else (a.1 ++ [x.1], a.2)) ([], u)).1, s)

/-- The bytes of a FILL. -/
def patternBytes (p : List Byte) (n : Nat) : List Byte := (upto n).map fun i => p.getD (i % 8) 0

/-- A COPY reads its next local piece. -/
def readPiece (c : Cmd) (s : State) : State :=
  let n := min 4096 (field c.desc 40 8 - c.rd)
  askPiece c (field c.desc 16 6 + c.rd) c.rd (.read n) (fun c => { c with rd := c.rd + n }) s

/-- A COPY writes a piece at hand to the local pool. -/
def writePiece (c : Cmd) (s : State) : State :=
  match c.buf with
  | [] => s
  | (off, d) :: rest =>
    let (d, s) := copyBytes c off d s
    askPiece c (field c.desc 24 6 + off) off (.write d) (fun c => { c with buf := rest, wr := c.wr + d.length }) s

/-- A FILL writes its next local piece. -/
def fillPiece (c : Cmd) (s : State) : State :=
  let n := min 4096 (field c.desc 40 8 - c.wr)
  askPiece c (field c.desc 16 6 + c.wr) c.wr (.write (patternBytes ((c.desc.drop 32).take 8) n))
    (fun c => { c with wr := c.wr + n }) s

/-- The next access to the local pool of a command that moves data: a COPY within the pool reads its whole source before it
writes, one to a remote end reads a piece when the one before has left, and one from a remote end writes what has come.
DEDUCED, log entry 19: safe. -/
def moveOn (k q : Nat) (seq : W32) (s : State) : State :=
  match findCmd s k q seq with
  | none => s
  | some c =>
    let len := field c.desc 40 8
    let near := bit (field c.desc 36 1) 0
    let into := bit (field c.desc 36 1) 1
    if c.done ∨ (c.status ≠ 0 ∧ !(c.cancelled && !near)) then s
    else if c.opc = 0x03 then
      if near && into then (if c.outst ≠ 0 then s else if c.rd < len then readPiece c s else writePiece c s)
      else if near then (if c.rd = c.wr ∧ c.rd < len then readPiece c s else s)
      else if into then writePiece c s
      else s
    else if c.opc = 0x04 ∧ bit (field c.desc 26 1) 0 ∧ c.outst = 0 ∧ c.wr < len then fillPiece c s
    else s

/-! ## The end of an access -/

/-- The local part, and with it the answer, of an access that nothing waits for any longer. -/
def finishAcc (a : PoolAcc) (s : State) : State :=
  let s := { s with pool := { s.pool with accs := s.pool.accs.filter fun x => x.id != a.id } }
  match a.asker with
  | .fabric pkt _ =>
    match a.op with
    | .read n => sendAnswer (readRspOf pkt (readVa s a.k a.va n)) s
    | .write _ => sendAck pkt s
    | _ => sendAnswer (atomRspOf pkt a.old) s
  | .cmd k q seq off =>
    moveOn k q seq (modCmd k q seq (fun c =>
      let c := { c with outst := c.outst - 1 }
      match a.op with
      | .read n => { c with buf := Tbl.set c.buf off (readVa s a.k a.va n) }
      | .write d => { c with bytes := c.bytes + d.length }
      | _ => { c with cnt0 := a.old }) s)
  | .retr id blk =>
    match a.op with
    | .read n => modColl id (fun c => { c with pool := Tbl.set c.pool blk (readVa s a.k a.va n) }) s
    | _ => modColl id (fun c => { c with outst := Tbl.put c.outst blk (Tbl.get c.outst blk 0 - 1) 0 }) s
  | .core c id =>
    match a.op with
    | .read n => landMove c id (moveOffset s c id a.va) (readVa s a.k a.va n) s
    | .write _ => modMove c id (fun m => { m with outst := m.outst - 1 }) s
    | _ => landMove c id 0 (leBytes 8 a.old) s
  | .resync id => resyncCopied id s
  | .unit => s

/-- Answers an access once its local part is complete and no mirror write is awaited (R251). -/
def settleAcc (id : Nat) (s : State) : State :=
  match s.pool.accs.find? fun a => a.id == id with
  | some a => if a.served && a.mirrors == 0 then finishAcc a s else s
  | none => s

def modAcc (id : Nat) (f : PoolAcc → PoolAcc) (s : State) : State :=
  { s with pool := { s.pool with accs := ListOps.update (fun a => a.id == id) f s.pool.accs } }

/-- One mirror write of an access has been answered, or its page marked stale. -/
def mirrorDone (id : Nat) (s : State) : State :=
  settleAcc id (modAcc id (fun a => { a with mirrors := a.mirrors - 1 }) s)

/-! ## Stale pages (R251) -/

/-- Writes a page table word. -/
def setWord (a e : Nat) (s : State) : State := { s with pool := s.pool.setBytes a (leBytes 8 e) }

/-- Writes a page's level-2 entry, where its table is present. -/
def setEntry (k page e : Nat) (s : State) : State :=
  match entryAddr s k page with
  | some a => setWord a e s
  | none => s

/-- Ends a resynchronisation of the page, with FAIL set (R457). -/
def resyncFail (k page : Nat) (s : State) : State :=
  match s.tray.resync with
  | some r =>
    if r.k = k ∧ r.page = page then
      ({ s with tray := { s.tray with resync := none } }).wr F.TWN_RSYNC_FAIL 1
    else s
  | none => s

/-- No mirror write is sent for a stale page and none is awaited: one that still waits to be sent is withdrawn, and a write
whose mirror write is without its answer need not wait for it any longer (R251). -/
def dropMirrors (k page : Nat) (s : State) : State :=
  let tag := (s.kennel k).ktag
  let mine := fun (o : Owner) (p : Packet) =>
    match o with
    | .mirror _ => p.ktag == tag && p.addr.toNat / 2 ^ 21 == page
    | _ => false
  let gone := ((s.ni.queue.filter fun q => mine q.owner q.pkt).map (·.owner)) ++
    ((s.ni.outst.filter fun o => mine o.owner o.pkt).map (·.owner))
  let s := { s with ni := { s.ni with
    queue := s.ni.queue.filter fun q => !mine q.owner q.pkt,
    outst := ListOps.update (fun o => mine o.owner o.pkt) (fun o => { o with owner := .module }) s.ni.outst } }
  gone.foldl (fun s o => match o with
    | .mirror acc => mirrorDone acc s
    | _ => s) s

/-- Marks a page stale: STALE, MGEN + 1, the counter and the source (R251). -/
def markStale (k page : Nat) (s : State) : State :=
  match pageEntry s k page with
  | none => s
  | some e =>
    if Pte.stale e then s
    else
      let e := (setBit e 4) % 2 ^ 32 + ((Pte.mgen e + 1) % 2 ^ 32) * 2 ^ 32
      dropMirrors k page
        (resyncFail k page (raise 723 ((setEntry k page e s).count F.POL_MIRFAIL_CNT_COUNT)))

/-! ## Mirror writes (R249) -/

/-- The WRITEs of up to 4,096 bytes that carry a range. -/
def cutData : Nat → Nat → List Byte → List (Nat × List Byte)
  | 0, _, _ => []
  | n + 1, va, d => if d.isEmpty then [] else (va, d.take 4096) :: cutData n (va + 4096) (d.drop 4096)

/-- Sends the mirror writes of a store to mirrored pages, for access `id`, once the bytes stand in memory: one
WRITE per page and per 4,096 bytes, widened to the aligned 16 bytes that hold an atomic's result.  A write that cannot be sent marks its page stale at once (R251).  Answers how many are awaited. -/
def sendMirrors (id k va : Nat) (d : List Byte) (s : State) : Nat × State :=
  (mirrorPages s k va d.length).foldl (fun acc p =>
    let lo := max va (p * 2 ^ 21) / 16 * 16
    let hi := ceilDiv (min (va + d.length) ((p + 1) * 2 ^ 21)) 16 * 16
    let part := readVa acc.2 k lo (hi - lo)
    match trayPort acc.2, acc.2.self == 0xFFFF with
    | some port, false =>
      (cutData (part.length / 4096 + 1) lo part).foldl (fun acc x =>
        (acc.1 + 1, enqueue (requestHead acc.2 k 0x01 0 (mateEid acc.2) x.1 (x.2.length / 16) x.2)
          (.mirror id) (some port) acc.2)) acc
    | _, _ => (acc.1, markStale k p acc.2)) (0, s)

/-- A store of a unit of the module: the bytes are written, mirrored where their pages are, and the asker goes on once
every mirror write is answered (R249, R251). -/
def storeVa (k va : Nat) (d : List Byte) (asker : Asker) (s : State) : State :=
  let id := s.pool.nextAcc
  let s := writeVa k va d (newAcc { id := id, k := k, va := va, op := .write d, asker := asker } s)
  let (n, s) := sendMirrors id k va d s
  settleAcc id (modAcc id (fun a => { a with served := true, mirrors := n }) s)

/-- A checked store, whose bytes count for the kennel (R506). -/
def unitStore (k va : Nat) (d : List Byte) (asker : Asker) (s : State) : State :=
  storeVa k va d asker (s.count F.CTR_KNL_COUNT (16 * k + 7) d.length)

/-! ## The Scent log (R387 to R390) -/

def State.scent (s : State) (k : Nat) : Option Scent := Tbl.find s.scents k

def setScent (k : Nat) (x : Option Scent) (s : State) : State :=
  { s with scents := match x with
      | some x => Tbl.set s.scents k x
      | none => Tbl.erase s.scents k }

/-- The 48 bytes of a SHA-384 digest. -/
def digestOf (b : List Byte) : List Byte := (Config.sha384 b ++ List.replicate 48 0).take 48

/-- The tests that the memory and the translation make of an access of the module itself to a kennel's ring
(R234, R237, R246).  With the compute die out of service the log goes on as before.
DESIGN CHOICE, log entry 95: unsafe. -/
def ringCheck (k va : Nat) (op : PoolOp) (s : State) : Option Nat × State :=
  if s.dieOut then (none, s)
  else match refusedPages s k va op false with
    | some code => (some code, walkRanges k [(va, op.len)] s)
    | none => memCheck k va op s

/-- A store of the module itself to a kennel's ring; one that a test fails is not made.
DESIGN CHOICE, log entry 105: unsafe. -/
def ringStore (k va : Nat) (d : List Byte) (s : State) : State :=
  match ringCheck k va (.write d) s with
  | (some _, s) => s
  | (none, s) => storeVa k va d .unit s

/-- The ring appears full (R388). -/
def Scent.appearsFull (x : Scent) : Bool := 2 ^ x.log2 ≤ x.written - x.consumed

/-- CONSUMED is read when the ring appears full, and only then (R388); one that cannot be read stays as it was. -/
def reread (k : Nat) (x : Scent) (s : State) : Scent × State :=
  if !x.appearsFull then (x, s)
  else match ringCheck k (x.va + 8) (.read 8) s with
    | (some _, s) => (x, s)
    | (none, s) => ({ x with consumed := leVal (readVa s k (x.va + 8) 8) }, s)

/-- Writes one record in its slot and then WRITTEN (R388, R389); a mirrored page's writes go to the tray-mate (R249). -/
def scentPut (k : Nat) (x : Scent) (rec' : List Byte) (s : State) : State :=
  let slot := x.va + 128 + 128 * (x.written % 2 ^ x.log2)
  let s := ringStore k slot rec' s
  let s := ringStore k x.va (leBytes 8 (x.written + 1)) s
  let (x, s) := reread k { x with written := x.written + 1, eno := x.eno + 1 } s
  setScent k (some x) s

/-- A record that finds no room is discarded and counted (R388). -/
def scentLose (k : Nat) (x : Scent) (s : State) : State :=
  (setScent k (some { x with lost := x.lost + 1, eno := x.eno + 1 }) s).count F.DET_SCLOST_CNT_COUNT k

/-- The 128 bytes of a record (R389). -/
def scentRecord (typ flags aux : Nat) (seq : W32) (eno now val : Nat) (arg dig : List Byte) : List Byte :=
  leBytes 1 typ ++ leBytes 1 flags ++ leBytes 2 aux ++ leBytes 4 seq.toNat ++ leBytes 8 eno ++
  leBytes 8 now ++ leBytes 8 val ++ (arg ++ leBytes 16 0).take 16 ++ (dig ++ leBytes 48 0).take 48 ++
  leBytes 32 0

/-- Logs an event of a kennel (R389).  In drop mode a full ring discards the record and counts it; a LOST
record goes before the next one that finds room.  With the compute die out of service the log goes on as before.  In hold mode a full ring holds what would log, so a record
that no hold can stop waits for no room and is discarded as in drop mode. DESIGN CHOICE, log entry 95: unsafe. -/
def scentLog (k typ flags aux : Nat) (seq : W32) (val : Nat) (arg : List Byte) (data : Option (List Byte))
    (s : State) : State :=
  match s.scent k with
  | none => s
  | some x =>
    if !(bit x.mask typ || typ == 7) then s
    else
      let (x, s) := reread k x s
      if x.appearsFull then scentLose k x s
      else
        let s := if x.lost = 0 then setScent k (some x) s
          else scentPut k { x with lost := 0 } (scentRecord 0x0F 0 0 0 x.eno s.nowNs x.lost [] []) s
        let x := (s.scent k).getD x
        if x.appearsFull then scentLose k x s
        else scentPut k x (scentRecord typ flags aux seq x.eno s.nowNs val arg ((data.map digestOf).getD [])) s

/-- In hold mode, a full ring holds the kennel's fabric accesses and its commands (R388). -/
def scentHolds (s : State) (k : Nat) : Bool :=
  match s.scent k with
  | some x => x.mode == 2 && x.appearsFull
  | none => false

end Sys2Proof.Machine
end

