-- ==== Sys2Proof/Machine/LinkKeys.lean ====
section
/-! DEFINITION. The state of encrypted hall links: key messages and the units of a
direction (R430, R431). -/

namespace Sys2Proof.Machine

/-! ## Key messages (R430) -/

def keyAddr : Nat := 0xFFFFFFFFFD00
def tagAddr : Nat := 0xFFFFFFFFFE00

def State.linkSec (s : State) (p : Nat) : Option LinkSec := Tbl.find s.klp.links p

def setLinkSec (p : Nat) (k : LinkSec) (s : State) : State :=
  { s with klp := { s.klp with links := Tbl.set s.klp.links p k } }

/-- The fragments of message `m`: a head of message number, total bytes, offset and 0, then up to 4,080 bytes. -/
def keyFragments (m : Nat) (msg : List Byte) : List (List Byte) :=
  (upto (ceilDiv msg.length 4080)).map fun i =>
    let d := (msg.drop (4080 * i)).take 4080
    leBytes 4 m ++ leBytes 4 msg.length ++ leBytes 4 (4080 * i) ++ leBytes 4 0 ++ d ++
      List.replicate (16 * ceilDiv d.length 16 - d.length) 0

/-- Sends a message to the far end of a port, on that port. -/
def sendFar (p addr : Nat) (payload : List Byte) (s : State) : State :=
  match (s.port p).ident with
  | some f => enqueue (moduleMsg s f.eid.toNat addr payload) .module (some p) s
  | none => s

def sendKeyMsg (p m : Nat) (msg : List Byte) (s : State) : State :=
  (keyFragments m msg).foldl (fun s b => sendFar p keyAddr b s) s

/-- Bytes of a nonce, an ML-KEM-1024 encapsulation key or ciphertext, and an ECDH P-384 share. -/
def keyHead : Nat := 48 + 1568 + 97

/-- A start unit, at least 65,536 units beyond those sent so far. DESIGN CHOICE, log entry 51: unsafe. -/
def newStart (k : LinkSec) (s : State) : Nat × State :=
  let (w, s) := s.free
  (k.txSent + 65536 + w.toNat % 2 ^ 32, s)

/-- A failed exchange or tag (R430, R431). -/
def linkAuthFail (p : Nat) (s : State) : State := raise (432 + p) (s.count F.MON_LINKAUTH_CNT_COUNT p)

/-- A failed exchange leaves the port at MGMT only. DESIGN CHOICE, log entry 51: unsafe. -/
def exchangeFails (p : Nat) (k : LinkSec) (s : State) : State :=
  linkAuthFail p ((setLinkSec p { k with msgs := 4 } s).wr F.MON_LINKSEC_STATE 3 p)

/-- Message 1, by which the end with the lower UID opens an exchange: its nonce, and the keys of secrets it draws; with
the crypto island in its error state the exchange fails (R429). DESIGN CHOICE, log entry 45: unsafe. -/
def openExchange (p : Nat) (k : LinkSec) (s : State) : State :=
  let k := { k with inTotal := 0, inFrags := [] }
  if s.cryptoErr then exchangeFails p k s
  else if k.initiator then
    let (nonce, s) := s.freeBytes 48
    let (b, s) := s.freeBytes 112
    let m := nonce ++ Config.kemKey (b.take 64) ++ Config.ecdhShare (b.drop 64)
    sendKeyMsg p 1 m (setLinkSec p { k with msgs := 1, secret := b, script := m } s)
  else setLinkSec p { k with msgs := 0 } s

/-- Kelpie's monitor serves the exchange. -/
def monitorRuns (s : State) : Bool := s.klp.mode == .running || s.klp.mode == .monitor

/-- The start of the exchange as a port enters ACTIVE. -/
def linksecStart (p : Nat) (s : State) : State :=
  let on := s.rdB F.MON_LINKSEC_EN p && isHall (s.role p)
  let s := s.wr F.MON_LINKSEC_STATE (b2n on) p
  if on then
    let low := (s.port p).ident.any fun i => decide (Config.uid.toNat < i.uid.toNat)
    let k : LinkSec := { initiator := low }
    if monitorRuns s then openExchange p k s else setLinkSec p k s
  else { s with klp := { s.klp with links := Tbl.erase s.klp.links p } }

/-! ## Units (R431, R432) -/

/-- The link slot holds keys. -/
def LinkSec.keyed (k : LinkSec) : Bool := k.slot.isSome || k.txKeys.isSome || k.rxKeys.isSome

/-- A link slot zeroised (R428, R431). -/
def LinkSec.zeroised (k : LinkSec) : LinkSec := { k with secret := [], slot := none, txKeys := none, rxKeys := none }

/-- Keys are in force in both directions. -/
def markSecure (p : Nat) (k : LinkSec) (s : State) : State :=
  if k.txKeys.isSome && k.rxKeys.isSome && s.rd F.MON_LINKSEC_STATE p == 1 then s.wr F.MON_LINKSEC_STATE 2 p else s

/-- The XOR of two tags. -/
def xorTags (a b : List Byte) : List Byte := a.zipWith (· ^^^ ·) b

/-- The tag of unit `n` of a direction: the IV is the salt and the unit number from the start unit on, the additional data
the slot head, the plaintext the payload (R431). DESIGN CHOICE, log entry 51: unsafe. -/
def unitTag (keys : List Byte × List Byte × Nat) (n : Nat) (slot : List Byte) : List Byte :=
  Config.gcmTag keys.1 (keys.2.1 ++ leBytes 8 (n - keys.2.2)) (slot.take 3) (slot.drop 3)

/-- The new keys take effect with the next unit sent: its start unit has been reached. -/
def LinkSec.switchesTx (k : LinkSec) : Bool := k.slot.isSome && k.txNext.any fun n => n ≤ k.txSent

def LinkSec.switchTx (k : LinkSec) : LinkSec :=
  if k.switchesTx then
    { k with txKeys := k.slot.map fun x => (x.tx, x.txSalt, k.txSent), txNext := none, txRec := 0 } else k

/-- This end sends a new unit, given by the bytes of its slot. DESIGN CHOICE, log entry 7: unsafe. -/
def LinkSec.sendUnit (slot : List Byte) (k : LinkSec) : LinkSec :=
  match k.txKeys with
  | some x => { k with txSent := k.txSent + 1, txCount := k.txCount + 1,
                       txXor := xorTags k.txXor (unitTag x k.txSent slot) }
  | none => { k with txSent := k.txSent + 1 }

/-- The far end's new keys take effect with the next unit accepted, and its record numbering restarts; the units not yet
checked belong to records under the keys before. -/
def LinkSec.switchRx (k : LinkSec) : LinkSec :=
  if k.slot.isSome && k.rxNext.any fun n => n ≤ k.rxGot then
    { k with rxKeys := k.slot.map fun x => (x.rx, x.rxSalt, k.rxGot), rxNext := none, rxRec := 0, rxTags := [],
             rxOld := if k.rxTags.isEmpty then none else some (k.rxRec, k.rxTags) } else k

/-- This end accepts a unit. -/
def LinkSec.acceptUnit (slot : List Byte) (k : LinkSec) : LinkSec :=
  match k.rxKeys with
  | some x => { k with rxGot := k.rxGot + 1, rxTags := k.rxTags ++ [unitTag x k.rxGot slot] }
  | none => { k with rxGot := k.rxGot + 1 }

/-- The record being sent closes and its LINKTAG is sent (R431). -/
def closeRecord (p : Nat) (k : LinkSec) (s : State) : State :=
  sendFar p tagAddr (leBytes 8 k.txRec ++ leBytes 8 k.txCount ++ k.txXor)
    (setLinkSec p { k with txRec := k.txRec + 1, txCount := 0, txXor := List.replicate 16 0 } s)

/-- The unit number at which the initiator opens a new exchange by itself. DESIGN CHOICE, log entry 51: unsafe. -/
def rekeyAt : Nat := 2 ^ 39

/-- A new exchange before a unit number reaches 2^40 (R432). DESIGN CHOICE, log entry 51: unsafe. -/
def rekeyDue (p : Nat) (s : State) : State :=
  match s.linkSec p with
  | none => s
  | some k =>
    let due := k.txKeys.any (fun x => k.txSent == x.2.2 + rekeyAt) || k.rxKeys.any fun x => k.rxGot == x.2.2 + rekeyAt
    if due && k.initiator && monitorRuns s then openExchange p k s else s

/-- A unit is sent on a port: new keys take effect at their start unit, which closes the record under the keys before, and
a record closes at its 256th unit (R431, R432). -/
def countTxUnit (p : Nat) (slot : List Byte) (s : State) : State :=
  match s.linkSec p with
  | none => s
  | some k =>
    let s := if k.switchesTx && k.txCount != 0 then closeRecord p k s else s
    let k := (((s.linkSec p).getD k).switchTx).sendUnit slot
    let s := markSecure p k (setLinkSec p k s)
    rekeyDue p (if 256 ≤ k.txCount then closeRecord p k s else s)

/-- A unit is accepted on a port. -/
def countRxUnit (p : Nat) (slot : List Byte) (s : State) : State :=
  match s.linkSec p with
  | none => s
  | some k =>
    let k := k.switchRx.acceptUnit slot
    rekeyDue p (markSecure p k (setLinkSec p k s))

end Sys2Proof.Machine
end

