-- ==== Sys2Proof/Machine/CollOps.lean ====
section
/-! DEFINITION. What the Retriever holds of a collective: formats and commands (R269 to R271), staged data, entries
and chunks (R275 to R277, R288), and its report (R300, R301). -/

namespace Sys2Proof.Machine

/-! ## Formats (R213, R269, R270, R278) -/

def isMx (f : Nat) : Bool := f == 3 || f == 4

/-- Bytes of an element; an MXFP8 element has one byte beside its share of the scales. -/
def elemBytes (f : Nat) : Nat :=
  match f with
  | 0 => 4 | 1 => 2 | 2 => 2 | 5 => 4 | 6 => 8 | _ => 1

def blockElems (f : Nat) : Nat :=
  match f with
  | 0 => 1024 | 1 => 2048 | 2 => 2048 | 5 => 1024 | 6 => 512 | _ => 3584

def blockBytes (f : Nat) : Nat := if isMx f then 3696 else 4096

/-- Bytes of `n` elements. -/
def bytesOf (f n : Nat) : Nat := if isMx f then ceilDiv n 512 * 528 else n * elemBytes f

/-- Elements in `n` bytes. -/
def elemsIn (f n : Nat) : Nat := if isMx f then n / 528 * 512 else n / elemBytes f

/-- Bytes of a value of the accumulation format of an input format. -/
def accBytes (f : Nat) : Nat := if f = 5 then 8 else if f = 6 then 16 else 4

/-! ## The commands (R261, R262, R271, R288) -/

def Coll.isVar (c : Coll) : Bool := c.opc == 0x08 || c.opc == 0x0A
def Coll.isBcast (c : Coll) : Bool := c.opc == 0x07 || c.opc == 0x08
def Coll.isReduce (c : Coll) : Bool := c.opc == 0x09 || c.opc == 0x0A
def Coll.isUpdate (c : Coll) : Bool := c.opc == 0x0C

/-- Stage 0 is module-level. -/
def Coll.mod0 (c : Coll) : Bool := (c.stages.head?).any fun t => t.level != 0

/-- Stage-0 accelerators or modules, the pool apart. -/
def Coll.count0 (c : Coll) : Nat := ((c.stages.head?).map fun t => t.members.length).getD 0

/-- M0 (R261). -/
def Coll.m0 (c : Coll) : Nat := c.count0 + b2n c.self_

/-- This module's ordinal in a module-level stage 0. -/
def Coll.me0 (c : Coll) : Option Nat := (c.stages.head?).bind fun t => t.me

/-- This module is the root of a module-level stage 0 and not the top lead. -/
def Coll.farRoot (c : Coll) : Bool := c.mod0 && c.inTop && !c.topLead && c.me0 == some c.root

/-- Entries of a member's full contribution. -/
def Coll.cap (c : Coll) : Nat := elemsIn c.inF c.len

/-- Bytes of a block of the result. -/
def Coll.outBlk (c : Coll) : Nat := if c.isBcast then 4096 else bytesOf c.outF (blockElems c.inF)

/-- Bytes of a block in the accumulation format. -/
def Coll.accBlk (c : Coll) : Nat := accBytes c.inF * blockElems c.inF

/-- Bytes of `n` entries of the result. -/
def Coll.outLen (c : Coll) (n : Nat) : Nat := if c.isBcast then 4 * n else bytesOf c.outF n

/-- Staging blocks per chunk (R288). -/
def Coll.kBlocks (c : Coll) : Nat := 2 ^ (c.chunk - 12)

/-! ## Collectives in flight -/

def findColl (s : State) (id : Nat) : Option Coll := s.rtv.colls.find? fun c => c.id == id

/-- A collective in flight. -/
def Coll.flying (c : Coll) : Bool := c.admitted && !c.isOver

/-- Whether this module writes the result at DADDR (R271). -/
def Coll.writesDaddr (c : Coll) : Bool :=
  if c.isReduce then (c.topLead && (c.root == 0xFFFF || c.me0 == some c.root)) || c.farRoot
  else if c.isUpdate then true
  else if c.mod0 then
    !(c.isBcast && ((c.root == 0xFFFF && c.topLead) || (c.inTop && c.me0 == some c.root)))
  else c.self_

/-! ## Staged data (R275 to R277) -/

/-- A key of a stage and a block. -/
def sbKey (st blk : Nat) : Nat := st * 2 ^ 20 + blk

/-- A staged piece's key. -/
def pieceKey (st m blk p : Nat) : Nat := ((128 * st + m) * 2 ^ 20 + blk) * 4 + p

/-- The declarations' place among the blocks. -/
def declBlk : Nat := 2 ^ 20

/-- What a member of a stage has staged of a block. -/
def Coll.input (c : Coll) (st m blk : Nat) : List Byte :=
  (upto 4).flatMap fun p => Tbl.get c.staged (pieceKey st m blk p) []

/-- Entries a member declared, at most the capacity; the capacity where no declaration is sent (R275, R276). -/
def Coll.entriesOf (c : Coll) (st m : Nat) : Option Nat :=
  if c.isVar then (Tbl.find c.decl (128 * st + m)).map (min c.cap) else some c.cap

/-- Entries of `n` that lie in a block. -/
def entriesIn (f n blk : Nat) : Nat := min (blockElems f) (n - blockElems f * blk)

/-- Bytes of the inputs of a stage: input format from stage-0 members of a rack, accumulation format from modules. -/
def Coll.inputBytes (c : Coll) (st n : Nat) : Nat :=
  if c.isBcast then 4 * n
  else if st = 0 ∧ !c.mod0 then bytesOf c.inF n else accBytes c.inF * n

/-- A member's block is complete (R275): declared, and its part of the member's data staged. -/
def Coll.inputDone (c : Coll) (st m blk : Nat) : Bool :=
  match c.entriesOf st m with
  | none => false
  | some n => c.inputBytes st (entriesIn c.inF n blk) ≤ (c.input st m blk).length

/-- The largest of options, none when one is missing. -/
def maxAll : List (Option Nat) → Option Nat
  | [] => some 0
  | none :: _ => none
  | some a :: t => (maxAll t).map (max a)

/-- The entries that a stage's result holds (R277). -/
def Coll.entriesUp (c : Coll) : Nat → Option Nat
  | 0 =>
    match c.stages.head? with
    | none => none
    | some t =>
      if t.level = 0 then
        maxAll (((upto t.members.length).map fun m => c.entriesOf 0 m) ++ (if c.self_ then [some c.cap] else []))
      else match t.me with
        | some (i + 1) => maxAll [some c.cap, c.entriesOf 0 i]
        | _ => some c.cap
  | st + 1 =>
    match c.stages[st + 1]?.bind fun t => t.me with
    | some (i + 1) => maxAll [c.entriesUp st, c.entriesOf (st + 1) i]
    | _ => c.entriesUp st

/-- The last stage this module takes part in. -/
def Coll.lastStage (c : Coll) : Nat := c.stages.length - 1

/-- The entries of the data that passes this module. -/
def Coll.entries (c : Coll) : Option Nat :=
  if !c.isVar then some c.cap
  else if c.isReduce then c.entriesUp c.lastStage
  else if c.topLead then
    (if c.root = 0xFFFF ∨ (c.mod0 ∧ c.me0 = some c.root) then some c.cap else c.entriesOf 0 c.root)
  else if c.farRoot then some c.cap
  else c.downDecl

/-- The entries of the result that this module spreads. -/
def Coll.outEntries (c : Coll) : Option Nat := if c.isReduce ∧ c.farRoot ∧ c.isVar then c.downDecl else c.entries

/-- Blocks of the present data phase. -/
def Coll.blocks (c : Coll) : Option Nat :=
  if c.phase = 2 then some (ceilDiv c.len (blockBytes c.outF))
  else (maxAll [c.entries, if c.isReduce ∧ c.farRoot then c.outEntries else some 0]).map fun n =>
    ceilDiv n (blockElems c.inF)

def Coll.chunks (c : Coll) : Option Nat := c.blocks.map fun n => ceilDiv n c.kBlocks

/-- The blocks of a chunk among `n`. -/
def Coll.chunkBlocks (c : Coll) (n ch : Nat) : List Nat :=
  (upto (min c.kBlocks (n - ch * c.kBlocks))).map (· + ch * c.kBlocks)

/-- The bytes of a result block that this module holds. -/
def Coll.result (c : Coll) (blk : Nat) : List Byte := (upto 4).flatMap fun p => Tbl.get c.down (4 * blk + p) []

/-- Bytes of a result block. -/
def Coll.resultLen (c : Coll) (n blk : Nat) : Nat := c.outLen (entriesIn c.inF n blk)

/-! ## The ADDR of a collective packet (R265) -/

structure CollAddr where
  group : Nat
  stg : Nat
  cseq : Nat
  off : Nat
  deriving DecidableEq, Repr

def collAddrOf (p : Packet) : CollAddr :=
  let a := p.addr.toNat
  { group := bits a 47 35, stg := bits a 34 33, cseq := bits a 32 29, off := bits a 28 0 }

/-- Entries dropped from stage-0 members (R276). -/
def Coll.dropped (c : Coll) (m : Nat) : Nat :=
  if c.isVar && !c.mod0 && m < c.count0 then (Tbl.get c.decl m 0) - c.cap else 0

def Coll.droppedAll (c : Coll) : Nat := (upto c.count0).foldl (fun n m => n + c.dropped m) 0

/-! ## The report (R300, R301) -/

/-- Bytes per member that the module moved: those of the chunks done, of a variable size up to the last of its entries.
DEDUCED, log entry 85: unsafe. -/
def Coll.moved (c : Coll) : Nat :=
  let whole := c.doneAll * c.kBlocks * blockBytes c.inF
  if c.isVar then
    let n := c.entries.getD 0
    min whole (if c.isBcast then 4 * n else bytesOf c.inF n)
  else min c.len whole

def popCount (n w : Nat) : Nat := ((upto w).filter (bit n)).length

/-- COUNT1 of a collective's record (R300). -/
def Coll.count1 (c : Coll) (status : Nat) : Nat :=
  if status = Code.partialDelivery then popCount c.unreached 128
  else if c.isVar then c.droppedAll else c.doneAll

/-- SATN: the elements saturated in the result (R279). -/
def Coll.satn (c : Coll) : Nat := c.sats.foldl (fun n x => n + x.2) 0

/-- COUNTN: the entries of the result blocks whose every delivery has been answered. -/
def Coll.delivered (c : Coll) : Nat :=
  let n := c.outEntries.getD 0
  min n ((c.spread.filter fun b => Tbl.get c.outst b 0 == 0).foldl (fun a b => a + entriesIn c.inF n b) 0)

/-- The report on a collective that ends with a status. -/
def Coll.report (c : Coll) (status : Nat) : List Byte :=
  leBytes 1 status ++ leBytes 1 (b2n (c.rechk != 0) + 2 * b2n (c.satn != 0) + 4 * b2n c.uplate) ++
  leBytes 1 (match c.cseq with | some t => t | none => 128) ++ [0] ++ leBytes 2 c.m0 ++ leBytes 2 c.rechk ++
  leBytes 16 c.late ++ leBytes 16 c.unreached ++ leBytes 18 c.ports ++ leBytes 6 0 ++
  leBytes 4 (Tbl.get c.skips 1 0) ++ leBytes 4 (Tbl.get c.skips 2 0) ++
  leBytes 8 (if c.isVar then c.delivered else 0) ++ leBytes 8 c.satn ++ leBytes 8 0 ++
  (if c.isVar then (upto c.m0).flatMap fun m => leBytes 8 (c.dropped m) else [])

/-- Before the record of its command is written with a status, a collective's report is, and the collective leaves the
Retriever; a report that fails a check is a failure of the command (R241). DESIGN CHOICE, log entry 105: unsafe. -/
def closeColl (id status : Nat) (s : State) : State :=
  match findColl s id with
  | none => s
  | some c =>
    let s := modCmd c.k c.q c.seq (fun m => { m with cnt0 := c.moved, cnt1 := c.count1 status }) s
    let d := c.report status
    let s := if c.raddr = 0 then s
      else match fullCheck c.k (c.raddr + 32) (.write d) s with
        | (none, s) => unitStore c.k (c.raddr + 32) d .unit s
        | (some code, s) => modCmd c.k c.q c.seq (fun m => m.fail code) s
    { s with rtv := { s.rtv with colls := s.rtv.colls.filter fun x => x.id != id } }

end Sys2Proof.Machine
end

