-- ==== Sys2Proof/Machine/Windows.lean ====
section
/-! DEFINITION. The windows of the network interface: slots, overflow windows, and how pairs take and leave them (R178,
R179). -/

namespace Sys2Proof.Machine

/-! ## Windows (R178, R179) -/

/-- A window: a slot, or the overflow window of a kennel; 4,096 stands for the module's own packets. -/
inductive Wid where
  | slot (i : Nat)
  | ovf (k : Nat)
  deriving DecidableEq, Repr

def State.win (s : State) : Wid → Window
  | .slot i => s.window i
  | .ovf k => Tbl.get s.ni.ovf k {}

def State.setWin (s : State) (w : Wid) (x : Window) : State :=
  match w with
  | .slot i => s.setWindow i x
  | .ovf k => { s with ni := { s.ni with ovf := Tbl.set s.ni.ovf k x } }

def State.modWin (s : State) (w : Wid) (f : Window → Window) : State := s.setWin w (f (s.win w))

/-- The packets outstanding in a window. -/
def State.outOf (s : State) (w : Wid) : List Outst :=
  s.ni.outst.filter fun o =>
    match w with
    | .slot i => !o.ovf && o.pkt.win.toNat == i
    | .ovf k => o.ovf && o.kennel == k

/-- The window of an outstanding packet. -/
def Outst.wid (o : Outst) : Wid := if o.ovf then .ovf o.kennel else .slot o.pkt.win.toNat

/-- The slot of a pair. -/
def slotOfPair (s : State) (pair : W16 × Nat) : Option Nat :=
  (s.ni.slots.find? fun w => w.2.pair == some pair).map (·.1)

/-- The lowest free slot . DESIGN CHOICE, log entry 14: unsafe. -/
def freeSlot (s : State) : Option Nat :=
  ((upto (s.ni.slots.length + 1)).find? fun i => (s.window i).pair.isNone).filter (· < 65536)

/-- A pair takes a slot afresh: its numbering and the pacing of twin copies go on, its rate and tokens start again
(R178, R182, R446). -/
def takeSlot (i : Nat) (pair : W16 × Nat) (s : State) : State :=
  s.modWin (.slot i) fun w => { pair := some pair, psn := w.psn, stamp := s.clock, twins := w.twins }

/-- A kennel's overflow window starts afresh in the same way at its first pair. -/
def takeOverflow (k : Nat) (s : State) : State :=
  s.modWin (.ovf k) fun w =>
    if w.pair.isSome then w else { pair := some (0, k), psn := w.psn, stamp := s.clock }

/-- A pair of an overflow window has nothing outstanding. -/
def pairIdle (s : State) (pair : W16 × Nat) : Bool :=
  !(s.ni.outst.any fun o => o.ovf && o.pkt.dst == pair.1 && o.kennel == pair.2)

/-- Pairs with nothing outstanding leave the overflow windows for free slots in the order they joined; `n` bounds them
(R179). -/
def promote : Nat → State → State
  | 0, s => s
  | n + 1, s =>
    match s.ni.ovfPairs.find? (pairIdle s), freeSlot s with
    | some pair, some i =>
      promote n (takeSlot i pair { s with ni := { s.ni with ovfPairs := s.ni.ovfPairs.erase pair } })
    | _, _ => s

/-- Every pair that may leave an overflow window does so. -/
def promoteAll (s : State) : State := promote s.ni.ovfPairs.length s

end Sys2Proof.Machine
end

