-- ==== Sys2Proof/Machine/XbrOps.lean ====
section
/-! DEFINITION. How commands, programs and collectives end on a lost packet (R229, R297, R362, R536), and the
packets of the switch core: discarding, receive staging and credits (R85, R127), the flush of a port (R140,
R141), reserved cells (R124). -/

namespace Sys2Proof.Machine

/-! ## Commands -/

/-- A command whose effects are complete or that ends early once nothing is outstanding. -/
def Cmd.settle (c : Cmd) : Cmd :=
  let len := field c.desc 40 8
  let moved :=
    match c.opc with
    | 0x03 => c.rd == len && c.wr == len
    | 0x04 => c.wr == len
    | 0x02 => c.rd == 1
    | 0x05 => c.rd == 1
    | _ => false
  let early := 0x02 ≤ c.opc && c.opc ≤ 0x05 && (c.status != 0 || c.cancelled)
  if c.outst = 0 ∧ (moved || early) then { c with done := true } else c

/-- A command fails with a code (R229); it starts nothing new. -/
def failCmd (k q : Nat) (seq : W32) (code : Nat) (s : State) : State :=
  modCmd k q seq (fun c => (c.fail code).settle) s

/-! ## Programs -/

/-- A core leaves its program and returns to IDLE (R337); results in flight and lines on their way to it still arrive
(R324, R347). -/
def Core.release (x : Core) : Core :=
  { x with st := .idle, prog := none, moves := [], waiting := none, ended := none, jumps := [], lidx := 0, held := true }

def findProg (s : State) (pid : Nat) : Option Prog := s.isl.progs.find? fun p => p.id == pid

def modProg (pid : Nat) (f : Prog → Prog) (s : State) : State :=
  { s with isl := { s.isl with progs := ListOps.update (fun p => p.id == pid) f s.isl.progs } }

/-- The cycles from T0 that a program has run (R337). -/
def Prog.ran (p : Prog) (cyc : Nat) : Nat :=
  match p.t0 with
  | some t => if p.running then cyc - t else 0
  | none => 0

/-- A program leaves the island: its cores return to IDLE, and its compute time is counted (R337, R507). -/
def dropProg (p : Prog) (count : Nat) (s : State) : State :=
  let s := p.cores.foldl (fun s c => s.modCore c Core.release) s
  ({ s with isl := { s.isl with progs := s.isl.progs.filter fun x => x.id != p.id } } : State).count F.CTR_KNL_COUNT
    (16 * p.k + 11) count

/-! ## Collectives -/

/-- An early packet of a collective (R268). -/
def Coll.ownEarly (c : Coll) (tag : W16) (a : Arrival) : Bool :=
  let ad := collAddrOf a.pkt
  a.pkt.ktag == tag && ad.group == c.group && some ad.cseq == c.cseq

/-- A collective ends at this module (R295): it sends nothing further, a program of its own leaves its cores (R229), its
staging is freed with the early packets that stand there for it, and its command may complete. -/
def endColl (id code : Nat) (s : State) : State :=
  match s.rtv.colls.find? fun c => c.id == id with
  | none => s
  | some c =>
    if c.isOver then s
    else
      let code := if c.status = 0 then code else c.status
      let s := match c.prog.bind (findProg s) with
        | some p => dropProg p (p.ran s.cyc.toNat) s
        | none => s
      let s := modColl id (fun c =>
        { c with status := code, isOver := true, overAt := some s.time, prog := none, reserve := 0, staged := [], own := [], pool := [] }) s
      let mine := fun (q : Queued) =>
        match q.owner with
        | .coll i _ _ => i == id
        | _ => false
      let waits := fun (a : PoolAcc) =>
        match a.asker with
        | .retr i _ => i == id && !a.served
        | _ => false
      let s := { s with
        ni := { s.ni with queue := s.ni.queue.filter fun q => !mine q },
        pool := { s.pool with accs := s.pool.accs.filter fun a => !waits a },
        rtv := { s.rtv with early := s.rtv.early.filter fun a => !c.ownEarly (s.kennel c.k).ktag a } }
      let s := modCmd c.k c.q c.seq (fun m => { m.fail code with done := true }) s
      s.modKennel c.k fun x => { x with queues := x.queues.map fun y =>
        if y.1 = c.q && !c.admitted then (y.1, { y.2 with collWait := false }) else y }

/-- A check of R285 that ends the collective. -/
def checkFailed (id : Nat) (s : State) : State :=
  endColl id Code.checkFail (raise 725 (s.count F.RTV_CHKFAIL_CNT_COUNT))

/-- A collective ends with a code; a CHECK_FAIL is counted and raised (R286). -/
def failColl (id code : Nat) (s : State) : State :=
  if code = Code.checkFail then checkFailed id s else endColl id code s

/-! Members as the packets of a collective name them: a stage-0 member by its ordinal, the member with ordinal i of
stage s in the down chain by 1024 + 128 s + i, the successor of an up phase by 4096 + s. -/

def chainMember (s i : Nat) : Nat := 1024 + 128 * s + i
def upMember (s : Nat) : Nat := 4096 + s

/-- The stage-0 ordinal that a member's name stands for, when it is of stage 0: in a module-level stage 0 that of a chain's
member, or of the one that the up phase sends to. -/
def Coll.stage0 (c : Coll) (member : Nat) : Option Nat :=
  if member < 1024 then some member
  else if member < 1024 + 128 then some (member - 1024)
  else if member = upMember 0 then some (if c.isBcast then c.count0 - 1 else c.me0.getD 0 + 1)
  else none

/-- A member that the module cannot send to: the port its copy was lost through is recorded, and a stage-0 member as
unreached (R297, R300); a chain's member is skipped and its copy goes to the next one (R298); without the successor of its
up phase the collective ends.  The partial delivery is a failure detected here (R299, R300). -/
def unreach (id member blk : Nat) (port : Option Nat) (s : State) : State :=
  let mine := fun (q : Queued) =>
    match q.owner with
    | .coll i m _ => i == id && m == member
    | _ => false
  let blks := blk :: (s.ni.queue.filter mine).filterMap fun q =>
    match q.owner with
    | .coll _ _ b => some b
    | _ => none
  let s := { s with ni := { s.ni with queue := s.ni.queue.filter fun q => !mine q } }
  let s := modColl id (fun c =>
    { c with outst := blks.foldl (fun t b => Tbl.put t b (Tbl.get t b 0 - 1) 0) c.outst,
             status := if c.status = 0 then Code.partialDelivery else c.status,
             unreached := match c.stage0 member with | some i => setBit c.unreached i | none => c.unreached,
             ports := match port with | some p => setBit c.ports p | none => c.ports }) s
  if 4096 ≤ member then endColl id Code.partialDelivery s
  else if 1024 ≤ member then
    let st := (member - 1024) / 128
    let i := (member - 1024) % 128
    modColl id (fun c =>
      let more := (blks.eraseDups.map fun b => (st, i + 1, b)).filter fun r => !c.redone.contains r
      { c with skips := Tbl.put c.skips st (setBit (Tbl.get c.skips st 0) i) 0, redo := c.redo ++ more,
               redone := c.redone ++ more }) s
  else s

/-! ## Programs -/

/-- Ends a program with a status: its cores return to IDLE, and its LAUNCH completes, or the program phase of
its UPDATE ends (R274, R337, R362). -/
def endProg (pid code count : Nat) (s : State) : State :=
  match findProg s pid with
  | none => s
  | some p =>
    let s := dropProg p count s
    match p.update with
    | some id =>
      if code = 0 then modColl id (fun c => { c with prog := none, phase := 2, done := 0, rechecked := [], pool := [], asked := [] }) s
      else endColl id code (modColl id (fun c => { c with prog := none }) s)
    | none =>
      modCmd p.k p.q p.seq (fun c => { c.fail code with cnt0 := count, done := true, prog := none }) s

/-- A program fails: every core stops at its next bundle boundary, what it has outstanding is discarded, and
it completes with the first failure's status (R362). -/
def failProg (pid code : Nat) (s : State) : State :=
  match findProg s pid with
  | none => s
  | some p => endProg pid code (p.ran s.cyc.toNat) s

/-- The program of a core fails (R362). -/
def failCore (c code : Nat) (s : State) : State :=
  match (s.core c).prog with
  | some pid => failProg pid code s
  | none => s

/-- A transfer of a core fails, and its program with it (R362); the transfer of a program that has ended is discarded. -/
def failMove (c id code : Nat) (s : State) : State :=
  if (s.core c).moves.any fun m => m.id == id then failCore c code s else s

/-! ## A packet that leaves its window without an answer (R536) -/

/-- Whether an outstanding packet is the one with this header (R180). -/
def sameRequest (p : Packet) (o : Outst) : Bool :=
  o.pkt.opc == p.opc && o.pkt.dst == p.dst && o.pkt.ktag == p.ktag && o.pkt.win == p.win && o.pkt.psn == p.psn

/-- A resync complete that the tray-mate does not acknowledge ends its resynchronisation with FAIL (R457). -/
def moduleLost (p : Packet) (s : State) : State :=
  if isFunction p resyncAddr && s.tray.resync.isSome then
    { s with tray := { s.tray with resync := none } }.wr F.TWN_RSYNC_FAIL 1
  else s

/-- What the loss of a packet means for its owner. -/
def ownerLost (o : Outst) (code : Nat) (port : Option Nat) (s : State) : State :=
  match o.owner with
  | .cmd k q seq _ => modCmd k q seq (fun c => (({ c with outst := c.outst - 1 } : Cmd).fail code).settle) s
  | .move c id _ => failMove c id code s
  | .coll id member blk => unreach id member blk port s
  | .mirror acc => mirrorDone acc (markStale o.kennel (o.pkt.addr.toNat / 2 ^ 21) s)
  | .module => moduleLost o.pkt s
  | .answer => s

/-- Withdraws a packet from its window; its owner fails once no twin copy of it is left (R536). -/
def withdraw (p : Packet) (code : Nat) (port : Option Nat) (s : State) : State :=
  match s.ni.outst.find? (sameRequest p) with
  | none => s
  | some o =>
    if 1 < o.copies then
      let out := ListOps.update (sameRequest p) (fun o => { o with copies := o.copies - 1 }) s.ni.outst
      { s with ni := { s.ni with outst := out } }
    else
      promoteAll (ownerLost o code port
        { s with ni := { s.ni with outst := s.ni.outst.filter fun x => !sameRequest p x } })

/-! ## Receive staging and credits (R85) -/

def Link.vc (l : Link) (v : Nat) : RxVc := Tbl.get l.rx v {}
def Link.setVc (l : Link) (v : Nat) (x : RxVc) : Link := { l with rx := Tbl.put l.rx v x {} }

/-- Bytes `[lo, hi)` of a channel's stream leave receive staging; a unit whose last byte leaves returns its
credit. -/
def Link.leave (l : Link) (v lo hi : Nat) : Link :=
  let x := l.vc v
  let us := x.units.map fun u => { u with rem := u.rem - (min hi u.hi - max lo u.lo) }
  let gone := (us.filter fun u => u.rem == 0).length
  { (l.setVc v { x with units := us.filter fun u => u.rem != 0 }) with
    outTot := ListOps.modify l.outTot v fun t => t + BitVec.ofNat 12 gone }

/-- The bytes of a packet that have arrived leave its input's staging. -/
def unstage (f : Flow) (lo hi : Nat) (s : State) : State :=
  if f.inp < 144 ∧ f.mirror.isNone then s.modLink f.inp fun l => l.leave f.vc (f.off + lo) (f.off + hi) else s

/-! ## Reserved cells (R124) -/

/-- Cells of a packet (R118). -/
def cellsOf (n : Nat) : Nat := ceilDiv n 256

/-- Cells an output buffer holds (R124). -/
def bufferCells (s : State) (p : Nat) : Nat := if isHall (s.role p) then 6144 else 2048

/-- The class a packet is buffered under: mirror copies have their own queue. -/
def Flow.cls (f : Flow) : Nat := vcClass f.evc

def Outp.reserved (o : Outp) : Nat := o.occ.foldl (· + ·) 0 + o.mirOcc

/-- Frees `n` cells of a packet's reservation. -/
def freeCells (f : Flow) (n : Nat) (s : State) : State :=
  if f.out < 144 then
    s.modOutp f.out fun o =>
      if f.mirror.isSome then { o with mirOcc := o.mirOcc - n }
      else { o with occ := ListOps.modify o.occ f.cls (· - n) }
  else
    let free := Tbl.put s.xbr.intFree f.out (Tbl.get s.xbr.intFree f.out 1024 + n) 1024
    { s with xbr := { s.xbr with intFree := free } }

/-- Cells of a packet's reservation that are not free yet: those whose bytes have not all been sent. -/
def Flow.heldCells (f : Flow) : Nat := cellsOf f.total - f.sent / 256

/-! ## Discarding -/

def modFlow (id : Nat) (g : Flow → Flow) (s : State) : State :=
  { s with xbr := { s.xbr with flows := ListOps.update (fun f => f.id == id) g s.xbr.flows } }

def findFlow (s : State) (id : Nat) : Option Flow := s.xbr.flows.find? fun f => f.id == id

/-- The packet's later bytes are discarded as they arrive, once its check is made (R95).
DESIGN CHOICE, log entry 13: unsafe. -/
def dropStream (f : Flow) (s : State) : State :=
  if f.inp < 144 then
    s.modLink f.inp fun l =>
      let x := l.vc f.vc
      if x.flow = some f.id then l.setVc f.vc { x with flow := none, junk := f.bytes }
      else l.setVc f.vc { x with also := x.also.filter fun i => i != f.id }
  else s

/-- Everything of a packet that is still in its input's staging leaves it. -/
def unstageRest (f : Flow) (s : State) : State :=
  if f.cells.isEmpty then unstage f 0 f.bytes.length s
  else (f.cells.zipIdx).foldl (fun s c =>
    if c.1.st = .waiting then
      unstage f (min (256 * c.2) f.bytes.length) (min (256 * (c.2 + 1)) f.bytes.length) s
    else s) s

/-- Removes a packet from the switch core: its cells leave staging, its reservation is freed. -/
def removeFlow (f : Flow) (s : State) : State :=
  let s := dropStream f (unstageRest f s)
  let s := if f.admitted then freeCells f f.heldCells s else s
  let s := if f.out < 144 then
      s.modOutp f.out fun o => { o with cur := o.cur.map fun c => if c = some f.id then none else c }
    else s
  { s with xbr := { s.xbr with flows := s.xbr.flows.filter fun x => x.id != f.id } }

/-- The unsent rest of a started packet becomes zero bytes up to LEN with the original check (R141, R168), after its
header, which the module holds whole; of a check that has not arrived nothing is known. -/
def cutFlow (f : Flow) (s : State) : State :=
  let s := dropStream f (unstageRest f s)
  let (chk, s) :=
    if f.bytes.length = f.total then (f.bytes.drop (f.total - 4), s) else s.freeBytes 4
  let n := max 24 f.sent
  let bytes := ((f.hdr.header ++ f.bytes.drop 24).take n ++ List.replicate (f.total - 4 - n) 0).take (f.total - 4) ++ chk
  modFlow f.id (fun f =>
    { f with cutShort := true, bytes := bytes, cells := f.cells.map fun c => { c with st := .released } }) s

/-- The status that the loss of a packet of the module's own gives its owner (R536). -/
def causeStatus (c : Cause) : Nat := if c = .noroute then Code.protection else Code.windowFault

/-- The cases of R536: a request of the module itself, none of which has left, that found no route, was answered DROP at
its admission, or was ended by R168; an answer is no request of a window. -/
def withdrawn (f : Flow) (c : Cause) : Bool :=
  144 ≤ f.inp && f.mirror.isNone && f.sent == 0 && opcClass f.hdr.opc.toNat != some 1 &&
    (c == .noroute || c == .lifetime || !f.admitted)

/-- Counts the discarding of a packet; the kennel's count is of packets none of which has left, and of no copies
(R149, R535). -/
def countFlow (f : Flow) (c : Cause) (s : State) : State :=
  if f.sent = 0 ∧ f.mirror.isNone then countDrop f.inp f.out f.hdr.ktag c s else countCause f.inp f.out c s

/-- Discards a packet for a cause: it is counted, and one the module itself sent is withdrawn (R127, R536). -/
def dropFlow (f : Flow) (c : Cause) (s : State) : State :=
  let s := countFlow f c (removeFlow f s)
  if withdrawn f c then
    withdraw f.hdr (causeStatus c) (if f.out < 144 then some f.out else none) s
  else s

/-! ## Flush (R140, R141) -/

/-- The flush of a port as an output: every packet queued to it, admitted for it or held for it; one whose rest has
become zero bytes has been counted already. -/
def flushOut (p : Nat) (s : State) : State :=
  let fs := s.xbr.flows.filter fun f => f.out == p && (f.admitted || f.held)
  let s := fs.foldl (fun s f => if f.cutShort then removeFlow f s else dropFlow f .portdown s) s
  s.modOutp p fun o =>
    { o with occ := [0, 0, 0, 0], mirOcc := 0, deficit := [0, 0, 0, 0], entered := false,
             cur := List.replicate 8 none }

/-- The flush of a port as an input: every packet from it that has not arrived whole.  One that has started at
an output goes on with zero bytes, any other is discarded; each counts as FLUSH, but for an ingress copy that is not made
yet. -/
def flushIn (p : Nat) (s : State) : State :=
  let fs := s.xbr.flows.filter fun f => f.inp == p && f.bytes.length < f.total
  fs.foldl (fun s f =>
    if f.started then countFlow f .flush (cutFlow f s)
    else if f.mirIn then removeFlow f s
    else dropFlow f .flush s) s

/-- How many bytes of each packet wait in a channel's staging before the packets are parsed; `n` bounds their number. -/
def stagedPackets : Nat → List Byte → List Nat
  | 0, _ => []
  | n + 1, l =>
    if l.isEmpty then []
    else
      let size := (Packet.ofHeader (l ++ List.replicate 24 0)).size
      min size l.length :: stagedPackets n (l.drop size)

/-- A packet of which `n` bytes wait in staging is lost: they count as received, the packet too when its header is whole
(R150), and then as FLUSH. -/
def countStaged (p n : Nat) (s : State) : State :=
  let s := if 24 ≤ n then s.count F.OUB_RXPKT_CNT_COUNT p else s
  countCause p p .flush (s.count F.OUB_RXBYTE_CNT_COUNT p n)

/-- The packets that the link state holds when the port leaves ACTIVE are lost: each one in staging that no header has
been taken of counts as FLUSH, each one in the replay buffer whose last byte is not acknowledged as PORTDOWN (R82, R141,
R149). DESIGN CHOICE, log entry 91: unsafe. -/
def countLost (p : Nat) (s : State) : State :=
  let s := (upto 8).foldl (fun s v =>
    let l := ((s.link p).vc v).bytes
    (stagedPackets l.length l).foldl (fun s n => countStaged p n s) s) s
  ((s.link p).replay.flatMap fun u => u.ends.filterMap (·.2)).foldl (fun s inp => countCause inp p .portdown s) s

/-- The link state that leaving ACTIVE leaves (R82): sequence numbers, credits and staging start again; the
stream offsets run on. -/
def Link.cleared (l : Link) : Link :=
  { quar := l.quar, dup := l.dup, last := l.last,
    rx := l.rx.map fun x => (x.1, { off := x.2.off : RxVc }) }

/-- Everything a port's leaving ACTIVE means for the link and the switch core (R82, R140, R141). -/
def flushPort (p : Nat) (s : State) : State :=
  (countLost p (flushOut p (flushIn p s))).modLink p Link.cleared

end Sys2Proof.Machine
end

