-- ==== Sys2Proof/Machine/LaneOps.lean ====
section
/-! DEFINITION. The bring-up states of a port and its width changes: what entering and leaving each state does
(R38 to R59), with the comparisons at the entry to ACTIVE (R97 to R99) and the step of the time base (R378). -/

namespace Sys2Proof.Machine

/-! ## Lanes of a port -/

/-- The four lanes of port `p`. -/
def lanesOf (p : Nat) : List Nat := (upto 4).map (· + 4 * p)

/-- Changes every lane of a port. -/
def State.modLanes (s : State) (p : Nat) (f : Lane → Lane) : State :=
  (lanesOf p).foldl (fun s l => s.modLane l f) s

/-- The logical number of a lane: the LANE field last received on it, and its own number before one came (R34). -/
def logical (s : State) (l : Nat) : Nat :=
  let x := s.lane l
  if x.seen then x.farLane.toNat else l % 4

/-- Number of bits set in a map of four lanes. -/
def mapCount (m : Nat) : Nat := (upto 4).foldl (fun n i => n + b2n (bit m i)) 0

/-- The widest of 4, 2 and 1 that `n` lanes fill (R48). -/
def fitWidth (n : Nat) : Nat := if 4 ≤ n then 4 else if 2 ≤ n then 2 else n

/-- The `w` lowest-numbered lanes of a map. -/
def lowestLanes (w m : Nat) : Nat :=
  ((upto 4).filter (bit m)).take w |>.foldl (fun a i => a + 2 ^ i) 0

/-- The logical lanes of port `p` whose receivers satisfy a predicate. -/
def logicalMap (s : State) (p : Nat) (f : Lane → Bool) : Nat :=
  (lanesOf p).foldl (fun m l => if f (s.lane l) then setBit m (logical s l) else m) 0

/-- A lane is in the active map of its port: by its own number until MARKLOCK is complete, by its logical number from
CAPX on (R34). -/
def laneActive (s : State) (l : Nat) : Bool :=
  let x := s.port (l / 4)
  if x.st = .marklock then x.tx.getLsbD (l % 4) else x.map.getLsbD (logical s l)

/-- A lane that can carry codewords. -/
def Lane.healthy (x : Lane) : Bool := !x.lost && !x.excluded && !x.asleep && !x.entering && !x.exiting

/-- The receiver passes blocks on: no codeword set includes a lost lane (R49). -/
def passing (s : State) (p : Nat) : Bool :=
  (lanesOf p).all fun l => !((rxMap (s.port p)).getLsbD (logical s l) && (s.lane l).lost)

/-! ## Events -/

/-- Sets one bit of an event register. -/
def event (f : Fld) (p : Nat) (s : State) : State := s.wr f 1 p

/-- A link event restarts a sweep in progress (R101). -/
def linkEvent (s : State) : State :=
  if s.sweep.busy then
    { s with sweep := { s.sweep with pos := 0, events := min (s.sweep.events + 1) 255 } }
  else s

/-! ## Leaving ACTIVE (R82, R140, R141) -/

/-- A port that is in ACTIVE leaves it. -/
def leaveActive (p : Nat) (s : State) : State :=
  if s.portUp p then
    let s := flushPort p (linkEvent (event F.LNE_EVT_DOWN p s))
    s.modPort p fun x => { x with st := .off, chg := none, paused := false, sleepWait := none }
  else s

/-- What a port keeps when it starts a bring-up or goes to OFF. -/
def Port.restart (x : Port) (st : PSt) (rung : Nat) : Port :=
  { x with st := st, rung := rung, width := 0, map := 0, tx := 0, capFar := false, farAck := false, farStep := false,
           acksSent := 0, stepSent := false, chg := none, paused := false, sleepWait := none }

/-- Locks and training progress of a lane that starts again; what it last reported of skew, polarity and far
lane stays. -/
def Lane.restart (x : Lane) : Lane :=
  { x with bitLock := false, markLock := false, entering := false, exiting := false, ready := false,
           lost := false, ucRun := 0, lastSeq := none, missed := 0, rdyRun := 0, seen := false, status := 0,
           early := 0, sync := false, prbs := [] }

/-- OFF: transmitters at electrical idle (R38, R64).  A port that the safe state or EPO_N holds in OFF keeps its lane
state for reading (R70). DESIGN CHOICE, log entry 101: unsafe. -/
def enterOff (p : Nat) (s : State) : State :=
  if (s.port p).forced then s
  else
    (((leaveActive p s).setLine p {}).modPort p fun x =>
      { x.restart .off x.rung with climbing := false, testing := false, fails := 0, worked := none,
                                   hold := false, retained := 0 }).modLanes p
      fun x => { x.restart with asleep := false }

/-- OFF held until module reset (R70, R468): lane state is kept for reading. -/
def forceOff (p : Nat) (s : State) : State :=
  ((leaveActive p s).setLine p {}).modPort p fun x => { x.restart .off x.rung with forced := true }

/-- DETECT at a rung; lanes outside the retained width sleep on (R58), and no lane stays excluded (R53). -/
def enterDetect (p rung : Nat) (s : State) : State :=
  let s := (leaveActive p s).setLine p {}
  let ret := (s.port p).retained
  let s := s.modPort p fun x => x.restart .detect rung
  (upto 4).foldl (fun s i => s.modLane (4 * p + i) fun x =>
    if ret ≠ 0 ∧ !ret.getLsbD i then { x with excluded := false }
    else { x.restart with asleep := false, excluded := false }) s

/-- A bring-up starts: a ceiling that CEILCLR has cleared is 3 from now on (R64).
DESIGN CHOICE, log entry 101: unsafe. -/
def Port.begin (x : Port) : Port := if x.ceilClr then { x with ceil := 3, ceilClr := false } else x

/-- The main path from DETECT at rung 0 (R39). -/
def mainPath (p : Nat) (s : State) : State :=
  (enterDetect p 0 s).modPort p fun x =>
    { x.begin with climbing := true, testing := false, fails := 0, worked := none, hold := false, prevSame := false }

/-- A come-up without climbing at a rung (R43). -/
def comeUpAgain (p rung : Nat) (s : State) : State :=
  if (s.port p).forced then s
  else
    (enterDetect p rung s).modPort p fun x =>
      { x.begin with climbing := false, testing := false, fails := 0, hold := false, prevSame := true }

/-- TRAIN: the active lanes are all four, or those of the retained width.  No LANE field has been received yet, so
LANEMAP shows them by their physical numbers until CAPX. DESIGN CHOICE, log entry 90: unsafe. -/
def enterTrain (p : Nat) (s : State) : State :=
  let s := s.modPort p fun x =>
    let m := if x.retained = 0 then 0xF else x.retained
    { x.restart .train x.rung with width := mapCount m.toNat, map := m, tx := m }
  (upto 4).foldl (fun s i => s.modLane (4 * p + i) fun x =>
    if (s.port p).map.getLsbD i then x.restart else x) s

/-! ## Failed attempts (R42 to R44) -/

/-- An attempt at the port's rung has failed.  Toward TEST the port trains once more at the rung and then goes back to
DETECT at it, without end, NOLINK or fallback.
DESIGN CHOICE, log entry 90: unsafe. DESIGN CHOICE, log entry 101: unsafe. -/
def attemptFailed (p : Nat) (s : State) : State :=
  let s := (event F.LNE_EVT_STEPFAIL p s).modPort p fun x => { x with stepFails := min (x.stepFails + 1) 15 }
  let x := s.port p
  if x.testing then
    if x.fails = 0 then enterTrain p (s.modPort p fun x => { x with fails := 1 })
    else (enterDetect p x.rung s).modPort p fun x => { x with fails := 0 }
  else if x.climbing then
    if x.fails = 0 then enterTrain p (s.modPort p fun x => { x with fails := 1 })
    else
      match x.worked with
      | none =>
        (enterDetect p 0 (event F.LNE_EVT_NOLINK p s)).modPort p fun x => { x with fails := 0, hold := true }
      | some r => (comeUpAgain p r (event F.LNE_EVT_FALLBACK p s)).modPort p fun x => { x with ceil := r }
  else if x.fails = 0 then (enterDetect p x.rung s).modPort p fun x => { x with fails := 1 }
  else mainPath p s

/-! ## Entering ACTIVE -/

/-- The plan's entry matches what the far end reports (R97). -/
def wiringMatches (s : State) (p : Nat) : Bool :=
  let e := Tbl.get s.spg.active.wiring p {}
  match (s.port p).ident with
  | some i => e.kind != 0xFF && e.uid == i.uid && e.port == i.port && e.cart == i.cart
  | none => false

/-- The comparison of R97; none is made before the first commit. DESIGN CHOICE, log entry 40: unsafe. -/
def wiringCompare (p : Nat) (s : State) : State :=
  if !s.spg.plan then s
  else if wiringMatches s p then s.modLink p fun l => { l with quar := false }
  else raise (144 + p) ((event F.LNK_EVT_QUAR p s).modLink p fun l => { l with quar := true })

/-- Two ports report the same UID and PORT. -/
def sameFar (s : State) (p q : Nat) : Bool :=
  match (s.port p).ident, (s.port q).ident with
  | some i, some j => j.uid == i.uid && j.port == i.port
  | _, _ => false

/-- A port that reports the identity of another ACTIVE port is quarantined (R99), or that one, when it entered ACTIVE at
the same time and has the higher number. -/
def dupCheck (p : Nat) (s : State) : State :=
  match (upto 144).filter fun q => q != p && s.portUp q && sameFar s p q with
  | [] => s
  | qs =>
    let v := if qs.all fun q => p < q && (s.port q).upAt == s.time then qs.headD p else p
    raise (288 + v) ((event F.LNK_EVT_QUAR v s).modLink v fun l => { l with dup := true })

/-- The far end reports another identity than at the previous entry to ACTIVE (R98).  IDCHG is set after a come-up
without climbing only, the case that R98 names. DESIGN CHOICE, log entry 91: unsafe. -/
def identCheck (p : Nat) (s : State) : State :=
  let x := s.port p
  let s :=
    match x.prevSame, x.prevId, x.ident with
    | true, some a, some b =>
      if a.uid = b.uid ∧ a.port = b.port ∧ a.cart = b.cart then s
      else linkEvent (event F.LNK_EVT_IDCHG p s)
    | _, _, _ => s
  s.modPort p fun x => { x with prevId := x.ident }

/-- The allotments LNK_CRED gives, in credits (R111). -/
def allotment (s : State) (p v : Nat) : Nat :=
  let g := if isHall (s.role p) then 64 else 16
  g * (match v with
    | 0 => s.rd F.LNK_CRED_VC0 p | 1 => s.rd F.LNK_CRED_VC1 p | 2 => s.rd F.LNK_CRED_VC2 p
    | 3 => s.rd F.LNK_CRED_VC3 p | 4 => s.rd F.LNK_CRED_VC4 p | 5 => s.rd F.LNK_CRED_VC5 p
    | 6 => s.rd F.LNK_CRED_VC6 p | _ => s.rd F.LNK_CRED_VC7 p)

/-- What every step of the time base means for DET_TSTS (R380, R383). -/
def stepped (s : State) : State :=
  let s := { s with det := { s.det with good := 0 } }
  ((s.wr F.DET_TSTS_STEPPED 1).wr F.DET_TSTS_ALIGNED 0).wr F.DET_TSTS_LOCKED 0

/-- The time base takes the pair recorded at the parent port (R378), in ninths of a picosecond. -/
def timeStep (p : Nat) (s : State) : State :=
  if s.rd F.DET_TSRC_PORT = p ∧ !s.rdB F.DET_TSRC_ROOT then
    match s.det.pair with
    | some (q, stamp, arrival) =>
      if q = p then stepped { s with time := stamp * 9000 + (s.time - arrival * 9) } else s
    | none => s
  else s

/-- The port enters ACTIVE and the link layer opens (R39, R40, R77, R78, R85). -/
def enterActive (p : Nat) (s : State) : State :=
  let s := s.modPort p fun x =>
    { x with st := .active, stepFails := 0, climbing := false, fails := 0, worked := none, hold := false,
             retained := 0, order := s.activeCount, upAt := s.time }
  let s := { s with activeCount := s.activeCount + 1 }
  let s := s.modLanes p fun x => { x with ucRun := 0 }
  let tot := (upto 8).map fun v => BitVec.ofNat 12 (allotment s p v)
  let s := s.modLink p fun l =>
    { l.cleared with dup := false, outTot := tot, needIdle := true }
  let s := s.wr F.DET_LINKDLY_VALID 0 p
  linksecStart p (timeStep p (dupCheck p (wiringCompare p (identCheck p (linkEvent (event F.LNE_EVT_UP p s))))))

/-- MARKLOCK is complete: CAPX at this rung (R41). -/
def enterCapx (p : Nat) (s : State) : State :=
  let s := s.modPort p fun x =>
    { x with st := .capx, capFar := false, farAck := false, farStep := false, acksSent := 0, stepSent := false }
  { s with det := { s.det with pair := s.det.pair.filter fun x => x.1 != p } }

/-- The target rung at CAPX (R39). -/
def targetRung (s : State) (p : Nat) : Nat :=
  let x := s.port p
  let top := ([1, 2, 3].foldl (fun (acc : Nat × Bool) i =>
    let r := x.rung + i
    if acc.2 && r ≤ 3 && x.farRungs.getLsbD r then (r, true) else (acc.1, false)) (x.rung, true)).1
  min (s.rd F.LNE_PCTL_MAXRUNG p) (min top x.ceil)

/-- The port needs a step: only on the main path, below its target. -/
def wantsStep (s : State) (p : Nat) : Bool :=
  let x := s.port p
  x.climbing && !x.testing && x.rung < targetRung s p

/-! ## Width changes (R49 to R59) -/

/-- Codeword sets ahead of a switch index: 32 for a fallback (R49); 2 µs for a restore or sleep (R54, R57), a
set taking one codeword time. -/
def setsAhead (k : WKind) (rung : Nat) : Nat :=
  match k with
  | .fallback => 32
  | _ => ceilDiv 20000 (2048 / 2 ^ rung)

/-- The physical lanes of `mask` as logical lanes. -/
def toLogical (s : State) (p mask : Nat) : Nat :=
  (upto 4).foldl (fun m i => if bit mask i then setBit m (logical s (4 * p + i)) else m) 0

/-- The physical lanes whose receivers hold the logical lanes of a map. -/
def toPhysical (s : State) (p m : Nat) : Nat :=
  (upto 4).foldl (fun a i => if bit m (logical s (4 * p + i)) then setBit a i else a) 0

/-- Lanes are paired by number, LANE j of either end with logical lane j (R34), but where physical lanes sleep: then a
lane is the physical one, its transmitter and its receiver. DESIGN CHOICE, log entry 100: unsafe. -/
def byNumber (s : State) (p : Nat) (k : WKind) : Bool := k != .sleep && (s.port p).tx == (s.port p).map

/-- This end's transmit lanes for a logical map. DESIGN CHOICE, log entry 100: unsafe. -/
def txLanes (s : State) (p : Nat) (k : WKind) (m : Nat) : BitVec 4 :=
  BitVec.ofNat 4 (if byNumber s p k then m else toPhysical s p m)

/-- The map of the far end's WIDTH block in this end's logical lanes. DESIGN CHOICE, log entry 100: unsafe. -/
def farMap (s : State) (p : Nat) (k : WKind) (m : Nat) : Nat := if byNumber s p k then m else toLogical s p m

/-- Sends the WIDTH block of a change on the lanes of its new map that carry codewords; those that rejoin carry none
yet. DESIGN CHOICE, log entry 89: unsafe. -/
def sendWidth (p : Nat) (c : WChange) (ack : Bool) (s : State) : State :=
  sendLocal p (c.tx &&& (s.port p).tx).toNat (widthBlk
    { ack := ack, up := c.kind == .restore, sleep := c.kind == .sleep, width := c.width, map := c.map,
      switch := c.txAt }) s

/-- Starts a width change at this end, with a WIDTH block that asks for it or acknowledges the far end's. -/
def startChange (p : Nat) (k : WKind) (w m : Nat) (rx : Option (BitVec 14)) (s : State) : State :=
  let x := s.port p
  let c : WChange := { kind := k, width := w, map := BitVec.ofNat 4 m,
                       txAt := x.setIdx + BitVec.ofNat 14 (setsAhead k x.rung), rxAt := rx,
                       sentAck := rx.isSome, oldWidth := x.width, oldMap := x.map, tx := txLanes s p k m }
  sendWidth p c rx.isSome (s.modPort p fun x => { x with chg := some c, paused := rx.isSome && k != .fallback })

/-- Deep sleep is requested for a physical lane. -/
def sleepAsked (s : State) (l : Nat) : Bool := bit (s.rd F.LNE_PCTL_SLEEPREQ (l / 4)) (l % 4)

/-- A lane outside the active map that may rejoin. -/
def mayRejoin (s : State) (l : Nat) : Bool :=
  let x := s.lane l
  x.ready && !x.excluded && !x.asleep && !x.entering && !sleepAsked s l

/-- The lanes a port could run on: healthy ones of its active map, with those ready to rejoin. -/
def usable (s : State) (p : Nat) (withReady : Bool) : Nat :=
  let act := logicalMap s p fun x => x.healthy
  let act := act &&& (s.port p).map.toNat
  if withReady then
    (lanesOf p).foldl (fun m l => if mayRejoin s l then setBit m (logical s l) else m) act
  else act

/-- A fallback to the lanes of the active map that are not lost (R48, R49), or, when none is left, the port leaves
ACTIVE and comes up again (R52). -/
def fallbackNow (p : Nat) (s : State) : State :=
  let m := usable s p false
  let w := fitWidth (mapCount m)
  if m = 0 then comeUpAgain p (s.port p).rung s else startChange p .fallback w (lowestLanes w m) none s

/-- A fallback where an active lane is lost. -/
def fallback (p : Nat) (s : State) : State :=
  if usable s p false = (s.port p).map.toNat then s else fallbackNow p s

/-- Times of a lane's losses that lie within one second of now (R53). -/
def recentLosses (now : Nat) (l : List Nat) : List Nat := l.filter fun t => now < t + 9000000000000

/-- Records the loss of a lane; the fourth within one second excludes it (R53). -/
def recordLoss (l : Nat) (s : State) : State :=
  let ts := s.clock :: recentLosses s.clock (s.lane l).lossTimes
  let s := s.modLane l fun x => { x.restart with seen := x.seen, lost := true, lossTimes := ts }
  if 4 ≤ ts.length then
    raise (l / 4) ((event F.LNE_EVT_FLAP (l / 4) s).modLane l fun x => { x with excluded := true })
  else s

/-- A lane drops its locks and begins again with training. -/
def Lane.unlock (x : Lane) : Lane :=
  { x with bitLock := false, markLock := false, ready := false, lastSeq := none, missed := 0, rdyRun := 0 }

/-- A restore in progress is abandoned: the port goes on at the width it had (R55). -/
def abandonRestore (p : Nat) (c : WChange) (s : State) : State :=
  s.modPort p fun x => { x with chg := none, paused := false, width := c.oldWidth, map := c.oldMap }

/-- A lane of an ACTIVE port is lost (R47, R52, R53, R55, R59).  A restore is abandoned by the loss of an active or a
rejoining lane, any other change in progress completes first; a lane that retrains in the background is not
ready and not lost once more, and a sleeping one has nothing to lose. -/
def laneDown (l : Nat) (s : State) : State :=
  let p := l / 4
  let x := s.lane l
  let rejoins := (s.port p).chg.any fun c => c.kind == .restore && c.map.getLsbD (logical s l)
  if x.asleep || x.entering then s
  else if (x.lost || x.exiting) && !rejoins then s.modLane l Lane.unlock
  else
    let was := laneActive s l
    let s := recordLoss l s
    if usable s p false = 0 then comeUpAgain p (s.port p).rung s
    else
      match (s.port p).chg with
      | none => if was then fallback p s else s
      | some c =>
        if c.kind = .restore ∧ (was || rejoins) then fallbackNow p (abandonRestore p c s) else s

/-- Bit lock or marker lock of a lane drops: on an ACTIVE port the lane is lost; before ACTIVE and in TEST its locks are
gone, and the state's own exits, its timeout and the entry to ACTIVE decide (R47, R67). -/
def laneLost (l : Nat) (s : State) : State :=
  match (s.port (l / 4)).st with
  | .active => laneDown l s
  | .marklock | .capx | .step | .test => s.modLane l Lane.unlock
  | _ => s

/-- Starts a restore when the lanes ready to rejoin widen the port (R54). -/
def tryRestore (p : Nat) (s : State) : State :=
  let x := s.port p
  if x.st = .active ∧ x.chg.isNone then
    let m := usable s p true
    let w := fitWidth (mapCount m)
    if x.width < w then startChange p .restore w (lowestLanes w m) none s else s
  else s

/-- A replay starts: every unacknowledged unit is resent after one IDLE, and the replay counts as one retry (R80). -/
def replayNow (p : Nat) (timeout : Bool) (s : State) : State :=
  let s := (event F.LNK_EVT_RETRY p s).count F.LNK_RETRY_CNT_COUNT p
  let s := s.modLink p fun l =>
    { l with resend := l.replay.length, needIdle := true, retries := l.retries + 1,
             replayAt := some (s.time, timeout) }
  if 8 ≤ (s.link p).retries then
    comeUpAgain p (s.port p).rung ((event F.LNK_EVT_RESET p s).count F.LNK_RESET_CNT_COUNT p)
  else s

/-- A NAK or a timeout starts a replay; both in the same cycle start one (R80). -/
def startReplay (p : Nat) (timeout : Bool) (s : State) : State :=
  if (s.link p).replayAt == some (s.time, !timeout) then s else replayNow p timeout s

/-- The receiver enters RESYNC; from the framed state it sends NAK and waits (R75, R79). -/
def Link.resync (l : Link) : Link :=
  if l.framed then { l with framed := false, nakWait := true, sepSeen := false, nakOut := true } else l

/-! ## Deep sleep (R56 to R59) -/

/-- The port goes to SLEEP, its lanes into deep sleep (R58). -/
def enterSleep (p : Nat) (s : State) : State :=
  ((leaveActive p s).modPort p fun x => { x.restart .sleep x.rung with retained := 0 }).modLanes p
    fun y => { y.restart with entering := !y.asleep, asleep := y.asleep }

/-- WIDTH with width 0 and SLEEP set, in the next codeword set. -/
def sendSleep (p : Nat) (s : State) : State :=
  let x := s.port p
  codewordSet p (sendLocal p x.tx.toNat
    (widthBlk { ack := false, up := false, sleep := true, width := 0, map := 0, switch := x.setIdx }) s)

/-- Lanes whose bits are clear wake, and lanes whose bits are set and that carry nothing go to sleep at once (R57). -/
def wakeAndSleep (p mask : Nat) (s : State) : State :=
  (upto 4).foldl (fun s i =>
    let l := 4 * p + i
    let y := s.lane l
    if !bit mask i && (y.asleep || y.entering) then
      s.modLane l fun y => { y with asleep := false, entering := false, exiting := true, precode := 0 }
    else if bit mask i && !laneActive s l && !y.asleep && !y.entering then
      s.modLane l fun y => { y.restart with seen := y.seen, entering := true }
    else s) s

/-- Applies a sleep mask that leaves 4, 2, 1 or 0 lanes awake and differs from the mask `old` before it.  In a
come-up with a retained width the lanes left awake are the new retained width; only bits cleared start DETECT again,
and with no lane left awake the port goes back to SLEEP.
DESIGN CHOICE, log entry 90: unsafe. DESIGN CHOICE, log entry 101: unsafe. -/
def applySleep (p old mask : Nat) (s : State) : State :=
  let x := s.port p
  let awake := 15 - mask % 16
  let cleared := old &&& awake != 0
  let retain := fun (s : State) => s.modPort p fun x => { x with retained := BitVec.ofNat 4 awake }
  match x.st with
  | .active =>
    if awake = 0 then enterSleep p (sendSleep p s)
    else
      let s := wakeAndSleep p mask s
      let m := usable s p false &&& toLogical s p awake
      if m = x.map.toNat ∨ m = 0 then s
      else
        let w := fitWidth (mapCount m)
        startChange p .sleep w (lowestLanes w m) none s
  | .sleep => if awake != 0 && cleared then comeUpAgain p x.rung (retain s) else s
  | .detect | .train | .bitlock | .marklock | .capx =>
    if x.retained = 0 ∨ x.testing then s
    else if awake = 0 then enterSleep p (s.setLine p {})
    else if cleared then comeUpAgain p x.rung (retain s)
    else retain s
  | _ => s

/-- A write of SLEEPREQ (R57, R58, R59): ignored by a module that has not accepted feature bit 17 (R406), for a mask
that leaves three lanes awake, and for one that would put lanes to sleep toward a far end that did not advertise
deep sleep. -/
def sleepRequest (p mask : Nat) (s : State) : State :=
  let x := s.port p
  let old := s.rd F.LNE_PCTL_SLEEPREQ p
  let newly := (upto 4).any fun i =>
    let y := s.lane (4 * p + i)
    bit mask i && !y.asleep && !y.entering
  if !s.feature 17 then s
  else if mapCount (15 - mask % 16) = 3 then s
  else if x.st = .active ∧ newly ∧ !x.farCaps.getLsbD 0 then s
  else
    let s := s.wr F.LNE_PCTL_SLEEPREQ mask p
    if x.st = .active ∧ x.chg.isSome then
      s.modPort p fun x => { x with sleepWait := some (BitVec.ofNat 4 mask) }
    else applySleep p old mask s

/-! ## Completing a change -/

/-- After a sleep change the lanes that have left the map sleep, and those asked to that are not in it (R57). -/
def sleepLanes (p : Nat) (c : WChange) (s : State) : State :=
  (lanesOf p).foldl (fun s l =>
    let lg := logical s l
    let y := s.lane l
    if !c.map.getLsbD lg && (c.oldMap.getLsbD lg || sleepAsked s l) && !y.asleep && !y.entering then
      s.modLane l fun y => { y.restart with seen := y.seen, entering := true }
    else s) s

/-- A lane that joins the active map: it held both locks in both directions before the restore began (R53), also where
it slept here at the far end's request. DESIGN CHOICE, log entry 102: unsafe. -/
def Lane.rejoin (x : Lane) : Lane :=
  { x with lost := false, ready := false, exiting := false, asleep := false, entering := false, bitLock := true,
           markLock := true, missed := 0, ucRun := 0 }

/-- Both switch indices are reached: the port runs at the new width on the new map. -/
def completeChange (p : Nat) (c : WChange) (s : State) : State :=
  let s := linkEvent (s.modPort p fun x =>
    { x with chg := none, paused := false, width := c.width, map := c.map, tx := c.tx })
  let s := (lanesOf p).foldl (fun s l =>
    let lg := logical s l
    if c.map.getLsbD lg && !c.oldMap.getLsbD lg then
      s.modLane l Lane.rejoin
    else s) s
  let s := match c.kind with
    | .fallback =>
      let s := (if c.width < c.oldWidth then event F.LNE_EVT_WDOWN p s else s).modLink p Link.resync
      if (s.link p).replay.isEmpty then s else startReplay p false s
    | .restore => (event F.LNE_EVT_WUP p s).modLink p Link.resync
    | .sleep => sleepLanes p c (s.modLink p Link.resync)
  let s := s.modLink p fun l => { l with needIdle := true }
  if !s.portUp p then s
  else
    let s := match (s.port p).sleepWait with
      | some m => applySleep p m.toNat m.toNat (s.modPort p fun x => { x with sleepWait := none })
      | none => s
    if !s.portUp p then s
    else tryRestore p (if (s.port p).chg.isNone then fallback p s else s)

end Sys2Proof.Machine
end

