-- ==== Sys2Proof/Machine/KennelOps.lean ====
section
/-! DEFINITION. Whistles (R217 to R221), completion records (R220, R223 to R227), and the reset and teardown of
a kennel (R193 to R197). -/

namespace Sys2Proof.Machine

/-! ## Whistles -/

def State.whistle (s : State) (k w : Nat) : W64 := BitVec.ofNat 64 (Tbl.get (s.kennel k).wh w 0)

/-- A WAIT of the kennel whose threshold the whistle has reached completes (R209, R217). -/
def wakeWaits (k w : Nat) (v : W64) (s : State) : State :=
  let met := fun (c : Cmd) => c.k == k && c.opc == 0x01 && !c.done && field c.desc 2 2 % 4096 == w &&
    field c.desc 6 6 ≤ v.toNat
  { s with cmds := ListOps.update met (fun c => { c with done := true }) s.cmds }

/-- A whistle's value changes. -/
def whSet (k w : Nat) (v : W64) (s : State) : State :=
  wakeWaits k w v (s.modKennel k fun x => { x with wh := Tbl.put x.wh w v.toNat 0 })

/-- An add, modulo 2^64 (R218). -/
def whAdd (k w : Nat) (v : W64) (s : State) : State :=
  (whSet k w (s.whistle k w + v) s).count F.CTR_KNL_COUNT (16 * k + 12)

/-! ## Ranks (R154, R155) -/

/-- The endpoint identity a rank names, or the status of a rank that names none. -/
def rankEid (s : State) (k r : Nat) : Nat × Nat :=
  let x := s.kennel k
  if x.rankN ≤ r then (Code.badDescriptor, 0)
  else
    let e := Tbl.get x.ranks r 0
    if bit e 16 then (0, e % 2 ^ 16) else (Code.protection, 0)

/-! ## Descriptor fields (R205) -/

def Cmd.fence (c : Cmd) : Bool := bit (field c.desc 1 1) 0
def Cmd.quiet (c : Cmd) : Bool := bit (field c.desc 1 1) 2
def Cmd.sigw (c : Cmd) : Nat := field c.desc 4 2
def Cmd.incr (c : Cmd) : Nat := field c.desc 12 4

/-- The signal a command gives on completion with a status (R206). -/
def Cmd.signal (c : Cmd) (status : Nat) : Option (Nat × Nat) :=
  if bit c.sigw 15 && (status = 0 || bit c.sigw 14) then some (c.sigw % 4096, c.incr) else none

/-! ## The completion ring -/

def Kennel.ringFull (x : Kennel) : Bool := 2 ^ x.cqLog ≤ (x.ctail - x.chead).toNat

/-- The 32 bytes of a record without its PHASE bit, which its place in the ring gives (R224). -/
def recordBytes (status opc q : Nat) (seq : W32) (c0 c1 now : Nat) : List Byte :=
  leBytes 1 status ++ leBytes 1 opc ++ leBytes 1 q ++ [0] ++ leBytes 4 seq.toNat ++ leBytes 8 c0 ++
  leBytes 8 c1 ++ leBytes 8 now

/-- The record with bit 7 of byte 2 set as bit n of its index gives. -/
def withPhase (r : List Byte) (index : Nat) (log2 : Nat) : List Byte :=
  ListOps.modify r 2 fun b => BitVec.ofNat 8 (b.toNat % 128 + 128 * b2n (bit index log2))

/-- The whistle add after a record (R220).  With the compute die out of service an add that misses the cache is
dropped (R471); which whistles the cache holds is open. -/
def applyAdd (k : Nat) (a : Option (Nat × Nat)) (s : State) : State :=
  match a with
  | none => s
  | some (w, v) =>
    if s.dieOut then
      let (hit, s) := s.freeB
      if hit then whAdd k w (BitVec.ofNat 64 v) s else s
    else whAdd k w (BitVec.ofNat 64 v) s

/-- Places one record and its add; the ring has room (R220). DEDUCED, log entry 84: unsafe. -/
def putRecord (k : Nat) (h : Held) (s : State) : State :=
  let record := if h.move.isSome then h.record.take 24 ++ leBytes 8 s.nowNs else h.record
  let s :=
    if h.quietDrop || (s.dieOut && s.part != .s) then s
    else s.modKennel k fun x =>
      let i := x.ctail.toNat
      { x with recs := Tbl.set x.recs (i % 2 ^ x.cqLog) (withPhase record i x.cqLog), ctail := x.ctail + 1 }
  let s := match h.move with
    | some (c, id) => modMove c id (fun m => { m with outst := m.outst - 1 }) s
    | none => s
  applyAdd k h.add s

/-- Writes a record, or holds it with its add while the ring is full (R226). -/
def postRecord (k : Nat) (h : Held) (s : State) : State :=
  let x := s.kennel k
  if !x.held.isEmpty || x.ringFull then s.modKennel k fun x => { x with held := x.held ++ [h] }
  else putRecord k h s

/-- Writes the held records for which the ring has room, in order; `n` bounds how many are tried. -/
def drainHeld (k : Nat) : Nat → State → State
  | 0, s => s
  | n + 1, s =>
    let x := s.kennel k
    match x.held with
    | [] => s
    | h :: rest =>
      if x.ringFull then s
      else drainHeld k n (putRecord k h (s.setKennel k { x with held := rest }))

/-- The record of a command that completes with a status (R224, R227). -/
def Cmd.held (c : Cmd) (status now : Nat) : Held :=
  { record := recordBytes status c.opc c.q c.seq c.cnt0 c.cnt1 now,
    quietDrop := c.quiet && status == 0, add := c.signal status }

/-- A command completes: it leaves the issued commands, its record is written and its whistle added. -/
def finishCmd (c : Cmd) (status : Nat) (s : State) : State :=
  let s := { s with cmds := s.cmds.filter fun x => !isCmd c.k c.q c.seq x }
  let ok := status = 0 ∨ status = Code.capacityDropped
  let s := s.count F.CTR_KNL_COUNT (16 * c.k + (if ok then 0 else 1))
  postRecord c.k (c.held status s.nowNs) s

/-- A core that a reset, a scrub or KGRANTCORE stops goes to level 0 at once (R491). -/
def Core.halted (x : Core) : Core := { x.release with level := 0, held := false }

/-! ## Reset (R193) -/

/-- What a reset does with a record: one that finds no room is dropped and counted, and its add is made all the same
(R226). -/
def placeOrLose (k : Nat) (h : Held) (s : State) : State :=
  if h.quietDrop || !(s.kennel k).ringFull then putRecord k h s
  else applyAdd k h.add (s.modKennel k fun x => { x with lost := x.lost + 1 })

/-- A command with the counts of its record: the bytes and packets of a COPY or FILL (R224).
DEDUCED, log entry 84: unsafe. -/
def Cmd.counted (c : Cmd) : Cmd := if c.opc = 0x03 ∨ c.opc = 0x04 then { c with cnt0 := c.bytes, cnt1 := c.pkts } else c

/-- A running program stops at the bundle boundary; the cycles that it ran are its command's COUNT0 (R193, R224).
DEDUCED, log entry 84: unsafe. -/
def stopProg (p : Prog) (s : State) : State :=
  let n := p.ran s.cyc.toNat
  let s := p.cores.foldl (fun s c => s.modCore c Core.halted) s
  let s := { s with isl := { s.isl with progs := s.isl.progs.filter fun x => x.id != p.id } }
  let s := s.count F.CTR_KNL_COUNT (16 * p.k + 11) n
  if p.update.isNone then modCmd p.k p.q p.seq (fun c => { c with cnt0 := n }) s else s

/-- Whether some command of a list is still to complete. -/
def stillOpen (s : State) (k : Nat) (l : List (Nat × W32)) : Bool :=
  l.any fun t => (findCmd s k t.1 t.2).isSome || (Tbl.find (s.kennel k).queues t.1).any fun x => x.skip.contains t.2

/-- Whether a command's effects are complete. -/
def isDone (s : State) (c : Cmd) : Bool :=
  c.done || c.settle.done ||
    (match c.opc with
      | 0x0D => !stillOpen s c.k c.targets
      | 0x0F => !stillOpen s c.k c.targets
      | 0x0E => c.rd == 1 && c.outst == 0
      | _ => false)

/-- The status of a complete command's record. -/
def Cmd.finalStatus (c : Cmd) : Nat :=
  if c.status ≠ 0 then c.status else if c.cancelLost then Code.cancelLost else Code.ok

/-- A command completes with KENNEL_RESET, a collective after its report (R301); one that was complete, or had failed, in the
state `s0` at the reset's start keeps its own status (R229, R296). -/
def resetCmd (s0 : State) (c : Cmd) (s : State) : State :=
  let code := if c.status ≠ 0 || isDone s0 c then c.finalStatus else Code.kennelReset
  let s := match c.coll with
    | some id => closeColl id code s
    | none => s
  let c := ((findCmd s c.k c.q c.seq).getD c).counted
  let s := { s with cmds := s.cmds.filter fun x => !isCmd c.k c.q c.seq x }
  let s := s.count F.CTR_KNL_COUNT (16 * c.k + 1)
  placeOrLose c.k (c.held code s.nowNs) s

/-- The records that a full ring holds when a reset comes: each is placed or lost, in order. -/
def resetHeld (k : Nat) (s : State) : State :=
  let hs := (s.kennel k).held
  hs.foldl (fun s h => placeOrLose k h s) (s.modKennel k fun x => { x with held := [] })

/-- Commands of a kennel in the order of queue and sequence number (R225). -/
def kennelCmds (s : State) (k : Nat) : List Cmd :=
  (upto 16).flatMap fun q => s.cmds.filter fun c => c.k == k && c.q == q

/-- A freed window slot: only its PSN counter and the pacing of twin copies go on (R178, R446). -/
def Window.freed (w : Window) : Window := { psn := w.psn, twins := w.twins }

/-- Closes the windows of a kennel and frees their slots; packets outstanding in them are forgotten, and a page
whose mirror or copy write was among them is stale (R193, R251). -/
def closeWindows (k : Nat) (s : State) : State :=
  let mine := fun (o : Outst) => o.kennel == k
  let gone := s.ni.outst.filter mine
  let tag := (s.kennel k).ktag
  let queued := s.ni.queue.filter fun q => q.pkt.ktag == tag
  let s := { s with ni := { s.ni with
    outst := s.ni.outst.filter fun o => !mine o,
    queue := s.ni.queue.filter fun q => q.pkt.ktag != tag,
    slots := s.ni.slots.map fun w => if w.2.pair.any fun x => x.2 == k then (w.1, w.2.freed) else w,
    ovf := s.ni.ovf.map fun w => if w.1 = k then (w.1, w.2.freed) else w, ovfPairs := s.ni.ovfPairs.filter fun x => x.2 != k } }
  let lose := fun (s : State) (o : Owner) (va : Nat) =>
    match o with
    | .mirror acc => mirrorDone acc (markStale k (va / 2 ^ 21) s)
    | _ => s
  let s := (gone.foldl (fun s o => lose s o.owner o.pkt.addr.toNat) (promoteAll s))
  queued.foldl (fun s q => lose s q.owner q.pkt.addr.toNat) s

/-- Steps 1 to 3 of a reset; `KENNEL_RESET_END` is step 4. -/
def startReset (k : Nat) (s : State) : State :=
  let s0 := s
  let s := s.modKennel k fun x =>
    { x with st := .resetting,
             queues := x.queues.map fun q =>
               (q.1, { q.2 with head := q.2.tail, ahead := [], skip := [], collWait := false }) }
  let s := (s.isl.progs.filter fun p => p.k == k).foldl (fun s p => stopProg p s) s
  let s := { s with rtv := { s.rtv with
    early := s.rtv.early.filter fun a => a.pkt.ktag != (s.kennel k).ktag } }
  let s := { s with det := { s.det with barriers := s.det.barriers.filter fun b => b.k != k } }
  let s := resetHeld k s
  let s := (kennelCmds s k).foldl (fun s c => resetCmd s0 c s) s
  let s := { s with rtv := { s.rtv with colls := s.rtv.colls.filter fun c => c.k != k } }
  let s := s.count F.CTR_KNL_COUNT (16 * k + 14)
  closeWindows k s

/-- A kennel-fatal source names kennel `k` (R195). -/
def kennelFatal (k : Nat) (s : State) : State :=
  let mark := fun (s : State) => s.modKennel k fun x => { x with fatal := true }
  match (s.kennel k).st with
  | .open => startReset k (mark s)
  | .created => mark s
  | .resetting => mark s
  | _ => s

/-! ## Teardown (R196) -/

/-- The cores a kennel holds. -/
def heldCores (s : State) (k : Nat) : List Nat :=
  (upto 32).filter fun c => s.rdB F.CMP_OWN_VALID c && s.rd F.CMP_OWN_KENNEL c == k

/-- A core is released from its kennel and scrubbed (R329). -/
def scrubCore (c : Nat) (s : State) : State :=
  let s := (s.wr F.CMP_OWN_VALID 0 c).wr F.CMP_OWN_KENNEL 0 c
  let s := s.modCore c fun x => { x.halted with st := .scrub }
  s.wr F.CMP_SCRUB_BUSY (setBit (s.rd F.CMP_SCRUB_BUSY) c)

/-- A key slot is zeroised (R196, R428). -/
def zeroKey (slot : Nat) (s : State) : State := { s with klp := { s.klp with keys := Tbl.erase s.klp.keys slot } }

/-- The start of a teardown: the reset steps, and what R196 takes away at once. -/
def startTeardown (k : Nat) (s : State) : State :=
  let s := startReset k s
  let s := match (s.kennel k).key with
    | some slot => zeroKey slot s
    | none => s
  let s := (heldCores s k).foldl (fun s c => scrubCore c s) s
  let tag := (s.kennel k).ktag.toNat
  let s := (upto 64).foldl (fun s n =>
    if s.rdB F.RTE_RSET_OWN_VALID n && s.rd F.RTE_RSET_OWN_KTAG n == tag then
      (s.wr F.RTE_RSET_OWN_VALID 0 n).wr F.RTE_RSET_OWN_KTAG 0 n
    else s) s
  let s := { s with rtv := { s.rtv with next := s.rtv.next.filter fun x => x.1 / 8192 != k } }
  let s := { s with binds := s.binds.filter fun b => b.2 != k, scents := Tbl.erase s.scents k }
  let s := (upto 16).foldl (fun s i => s.wr F.CTR_KNL_COUNT 0 (16 * k + i)) s
  s.modKennel k fun x => { x with st := .closing }

end Sys2Proof.Machine
end

