-- ==== Sys2Proof/Machine/Hound.lean ====
section
/-! DEFINITION. Hound's actions (R466 to R475, R287, R471) and how a command ends: every action that its sticky
bits called for is taken before the next command. -/

namespace Sys2Proof.Machine

/-! ## The compute die out of service (R471) -/

/-- Programs stop with CHECK_FAIL, and with them LAUNCH and UPDATE; collectives that touch the pool end. -/
def dieOutAction (s : State) : State :=
  let s := s.wr F.HND_STS_DIEOUT 1
  let s := s.isl.progs.foldl (fun s p => endProg p.id Code.checkFail (p.ran s.cyc.toNat) s) s
  let s := (s.cmds.filter fun c => c.opc == 0x06).foldl (fun s c =>
    modCmd c.k c.q c.seq (fun c => { c.fail Code.checkFail with done := true }) s) s
  (s.rtv.colls.filter fun c => c.self_ || c.root == 0xFFFF || c.opc == 0x0C ||
    (c.stages.head?).any fun t => t.level != 0).foldl
    (fun s c => endColl c.id Code.checkFail s) s

/-! ## Port-fatal -/

/-- The ports of a source: its own, those of its group, or those of nothing. -/
def sourcePorts (i : Nat) : List Nat :=
  if i < 576 then [i % 144] else if i < 612 then (upto 4).map (· + 4 * (i - 576)) else []

def portFatal (i : Nat) (s : State) : State :=
  (sourcePorts i).foldl (fun s p => enterOff p s)
    { s with hnd := { s.hnd with portFatal := i :: s.hnd.portFatal.filter (· != i) } }

/-- MODE writes for a port are ignored while the sticky bit of a source stands whose port-fatal action it took (R466). -/
def modeBlocked (s : State) (p : Nat) : Bool :=
  s.hnd.portFatal.any fun i => stickyBit s i && (sourcePorts i).contains p

/-! ## Module-fatal and sealed -/

def allPortsOff (s : State) : State := (upto 144).foldl (fun s p => forceOff p s) s

/-- FAULT_N is asserted: in the module-fatal state and in the safe state (R468, R472, R526). -/
def faultN (s : State) : Bool := s.fatal || s.sealed'

/-- The module-fatal state (R468). -/
def moduleFatal (s : State) : State :=
  let s := allPortsOff (s.wr F.HND_STS_FATAL 1)
  (s.knl.filter fun x => x.2.st == .open).foldl (fun s x => startReset x.1 s) s

/-- Every kennel and link key slot is zeroised (R428). -/
def zeroAllKeys (s : State) : State :=
  { s with klp := { s.klp with keys := [], links := s.klp.links.map fun x => (x.1, x.2.zeroised) } }

/-- Entry to the safe state (R472, R473); sources 736 to 738 assert PWR_OFF_REQ. -/
def enterSafe (i : Nat) (s : State) : State :=
  if s.sealed' then s
  else
    let s := allPortsOff (s.wr F.HND_STS_SEALED 1)
    let s := zeroAllKeys s
    let s := { s with klp := { s.klp with mode := .reporter, seqAt := none, seqOps := [], harts := resetHarts } }
    let s := s.wr F.KLP_CERT_CERTIFIED 0
    let s := if 736 ≤ i ∧ i ≤ 738 then { s with pwr := { s.pwr with offReq := true } } else s
    { s with hnd := { s.hnd with todo := [] } }

/-! ## The failed unit of a module-degraded source -/

/-- A stack is out of service: POL_STS.STKUP shows it absent. -/
def stackLost (i : Nat) (s : State) : State :=
  s.wr F.POL_STS_STKUP (clearBits (s.rd F.POL_STS_STKUP) (2 ^ i))

/-- What the unit behind a source does whatever the source's severity: the HBM stack and the compute die
(R234, R471). -/
def unitAction (i : Nat) (s : State) : State :=
  if 712 ≤ i ∧ i < 720 then stackLost (i - 712) s
  else if i = 727 ∨ i = 728 then (if s.dieOut then s else dieOutAction s)
  else s

/-- A source that asserts while its sticky bit is set still acts on its unit. -/
def unitAgain (i : Nat) (s : State) : State := if stickyBit s i && !s.sealed' then unitAction i s else s

/-- The lane self-test of the Retriever-residue source (R287). -/
def degraded (i : Nat) (s : State) : State :=
  let s := s.wr F.HND_STS_DEGRADED 1
  if i = 724 ∧ !s.rdB F.RTV_LANES_TESTING then s.wr F.RTV_LANES_TESTING 1 else s

/-! ## Actions (R466, R469) -/

/-- The kennel, port or module-degraded action of a source. -/
def houndAct (a : HAct) (s : State) : State :=
  match a.sev with
  | 2 => match a.kennel with
    | some k => kennelFatal k s
    | none => s
  | 3 => portFatal a.src s
  | 4 => degraded a.src s
  | _ => s

/-- The source that a set of sources enters the safe state by: one that asserts PWR_OFF_REQ before any other. -/
def sealedBy (l : List HAct) : Option Nat :=
  let l := (l.filter fun a => a.sev == 6).map (·.src)
  (l.find? fun i => 736 ≤ i && i ≤ 738).or l.head?

/-- The actions of sources that rise together (R469): every unit's own, and either the one of the module-fatal or Sealed
class or those of the classes below. -/
def actTogether (l : List HAct) (s : State) : State :=
  let s := l.foldl (fun s a => unitAction a.src s) s
  match sealedBy l with
  | some i => enterSafe i s
  | none => if l.any fun a => a.sev == 5 then moduleFatal s else l.foldl (fun s a => houndAct a s) s

/-- Takes the waiting actions, then those that they call for in turn; `n` bounds how often.
DESIGN CHOICE, log entry 59: unsafe. -/
def houndRun : Nat → State → State
  | 0, s => s
  | n + 1, s =>
    if s.hnd.todo.isEmpty then s
    else houndRun n (actTogether s.hnd.todo { s with hnd := { s.hnd with todo := [] } })

/-- Every waiting action is taken.  A source rises at most once until its bit is cleared, so 1,024 bounds
them. DESIGN CHOICE, log entry 59: unsafe. -/
def settle (s : State) : State := houndRun 1024 s

/-! ## How a command ends -/

/-- The command's effect, and the actions it called for. -/
def fin (s : State) : Out := .next (settle s)

/-- A step of a unit that is frozen in the safe state (R473). DEDUCED, log entry 61: unsafe. -/
def live (f : State → State) (s : State) : Out := if s.sealed' then .next s else fin (f s)

/-- A step of unit `i` of `bound` units, frozen in the safe state. DEDUCED, log entry 61: unsafe. -/
def liveUnit (i bound : Nat) (f : State → State) (s : State) : Out :=
  if i < bound then live f s else .fault .noSuchUnit

/-- A step of unit `i` of `bound` units that the safe state does not stop. -/
def finUnit (i bound : Nat) (f : State → State) (s : State) : Out :=
  if i < bound then fin (f s) else .fault .noSuchUnit

/-- A step of the fabric die, which does nothing while its reset is held or a power-down has stopped it (R482, R483).
DESIGN CHOICE, log entry 62: unsafe. -/
def onFabric (f : State → State) (s : State) : Out := live (fun s => cond' s.fabRuns f s) s

/-- A step of unit `i` of `bound` units of the fabric die. -/
def fabricUnit (i bound : Nat) (f : State → State) (s : State) : Out :=
  if i < bound then onFabric f s else .fault .noSuchUnit

/-- A step of the compute die, which does nothing while its reset is held. DESIGN CHOICE, log entry 62: unsafe. -/
def onCompute (f : State → State) (s : State) : Out := live (fun s => cond' s.cmpRuns f s) s

/-- A step of unit `i` of `bound` units of the compute die. -/
def computeUnit (i bound : Nat) (f : State → State) (s : State) : Out :=
  if i < bound then onCompute f s else .fault .noSuchUnit

/-- A step of the fabric die on the pool. -/
def onPool (f : State → State) (s : State) : Out := onFabric (fun s => cond' s.cmpRuns f s) s

end Sys2Proof.Machine
end

