-- ==== Sys2Proof/Machine/CmdOps.lean ====
section
/-! DEFINITION. Descriptors and the conditions under which a queue's next command issues (R203 to R207), and the bytes that a kennel stores in its own window. -/

namespace Sys2Proof.Machine

/-! ## The common header (R205) -/

def Desc.opc (d : Desc) : Nat := field d.bytes 0 1
def Desc.flags (d : Desc) : Nat := field d.bytes 1 1
def Desc.waitw (d : Desc) : Nat := field d.bytes 2 2
def Desc.sigw (d : Desc) : Nat := field d.bytes 4 2
def Desc.thresh (d : Desc) : Nat := field d.bytes 6 6

def Desc.fence (d : Desc) : Bool := bit d.flags 0
def Desc.wen (d : Desc) : Bool := bit d.waitw 15

/-! ## Conditions of issue (R204, R206, R209) -/

/-- The issued and incomplete commands of a queue. -/
def issuedOf (s : State) (k q : Nat) : List Cmd := s.cmds.filter fun c => c.k == k && c.q == q

/-- The wait condition: WAIT issues at once and waits as a command; a wait on a whistle that the kennel does not
have cannot be formed, and validation ends the command. DEDUCED, log entry 84: unsafe. -/
def waitMet (s : State) (k : Nat) (d : Desc) : Bool :=
  !d.wen || d.opc == 0x01 || (s.kennel k).nWh ≤ d.waitw % 4096 ||
    d.thresh ≤ (s.whistle k (d.waitw % 4096)).toNat

/-- The fence condition. -/
def fenceMet (s : State) (k q : Nat) (d : Desc) : Bool := !d.fence || (issuedOf s k q).isEmpty

/-- An issued WAIT that has not completed holds its queue. -/
def waitHolds' (s : State) (k q : Nat) : Bool := (issuedOf s k q).any fun c => c.opc == 0x01 && !c.done

/-- The queue, when the kennel has it. -/
def State.queue (s : State) (k q : Nat) : Option Queue := Tbl.find (s.kennel k).queues q

def modQueue (k q : Nat) (f : Queue → Queue) (s : State) : State :=
  s.modKennel k fun x => { x with queues := x.queues.map fun y => if y.1 = q then (y.1, f y.2) else y }

/-- The command at the head of a queue: the next one not issued. -/
def headOf (s : State) (k q : Nat) : Option Desc := (s.queue k q).bind fun x => x.ahead.head?

/-- The queue waits on a whistle. -/
def waitsWhistle (s : State) (k q : Nat) : Bool :=
  waitHolds' s k q || (headOf s k q).any fun d => !waitMet s k d

/-- The queue waits on a fence. -/
def waitsFence (s : State) (k q : Nat) : Bool := (headOf s k q).any fun d => !fenceMet s k q d

/-! ## Stores of several pieces -/

/-- A checked store whose bytes go to several places of the window, answered once (R201, R251). -/
def storePieces (k : Nat) (ps : List (Nat × List Byte)) (asker : Asker) (s : State) : State :=
  let id := s.pool.nextAcc
  let whole := ps.flatMap fun x => x.2
  let s := newAcc { id := id, k := k, va := (ps.headD (0, [])).1, op := .write whole, asker := asker } s
  let s := s.count F.CTR_KNL_COUNT (16 * k + 7) whole.length
  let (n, s) := ps.foldl (fun (acc : Nat × State) x =>
    let s := writeVa k x.1 x.2 acc.2
    let (m, s) := sendMirrors id k x.1 x.2 s
    (acc.1 + m, s)) (0, s)
  settleAcc id (modAcc id (fun a => { a with served := true, mirrors := n }) s)

/-- The first failing check of stores of several pieces: those before the memory is read, and then the memory's. -/
def checkPieces (k : Nat) (ps : List (Nat × List Byte)) (s : State) : Option Nat × State :=
  match (ps.filterMap fun x => poolCheck s k x.1 (.write x.2) false).head? with
  | some code => (some code, ps.foldl (fun s x => walkRaise k x.1 (.write x.2) s) s)
  | none => ps.foldl (fun a x => if a.1.isSome then a else memCheck k x.1 (.write x.2) a.2) (none, s)

end Sys2Proof.Machine
end

