-- ==== Sys2Proof/Machine/Access.lean ====
section
/-! DEFINITION. Packets addressed to the module through the kennel view: doorbells, whistles, the counter view, the
completion ring control page and the pool window (R186, R199 to R201, R218, R223, R241, R407, R509, R517, R518). -/

namespace Sys2Proof.Machine

/-! ## The kennel view (R517) -/

inductive Region where
  | pool | doorbell | whistle | counters | ring | unused | functions
  deriving DecidableEq, Repr

/-- The row of the kennel view table that an address lies in. -/
def regionOf (a : Nat) : Region :=
  if a < 0x400000000000 then .pool
  else if a < 0x400100000000 then .doorbell
  else if a < 0x400200000000 then .whistle
  else if a < 0x400300000000 then .counters
  else if a < 0x400400000000 then .ring
  else if a < 0xFFFFFFFFF000 then .unused
  else .functions

/-- RLEN of a READ (R92). -/
def rlenOf (p : Packet) : Nat := field p.payload 0 2

/-- The bytes a request touches; none for a form that R92 does not give its opcode. -/
def accLen (p : Packet) : Option Nat :=
  match p.opc.toNat with
  | 0x01 => some (16 * p.len.toNat)
  | 0x02 => if p.len = 1 ∧ 1 ≤ (rlenOf p) ∧ (rlenOf p) ≤ 256 then some (16 * (rlenOf p)) else none
  | 0x03 => if p.len = 1 then some 4 else none
  | 0x04 => if p.len = 1 then some 8 else none
  | 0x05 => if p.len = 1 then some 4 else none
  | 0x06 => if p.len = 1 then some 8 else none
  | _ => none

/-- A request whose bytes lie in one row of the table, that row, and the opcode (R518). -/
def inRegion (p : Packet) (r : Region) : Bool :=
  match accLen p with
  | some n =>
    regionOf p.addr.toNat == r && (n == 0 || regionOf (p.addr.toNat + n - 1) == r) && p.addr.toNat + n ≤ 2 ^ 48
  | none => false

/-- Offset in a row. -/
def offOf (p : Packet) : Nat := p.addr.toNat % 2 ^ 32

/-- Offset in a doorbell page. -/
def pageOffOf (p : Packet) : Nat := p.addr.toNat % 4096

def isTail (p : Packet) : Bool := inRegion p .doorbell && p.opc == 0x01 && (pageOffOf p) < 0x800
def isPush (p : Packet) : Bool := inRegion p .doorbell && p.opc == 0x01 && 0x800 ≤ (pageOffOf p)
def isBellRead (p : Packet) : Bool := inRegion p .doorbell && p.opc == 0x02
def isWhistle (p : Packet) (opc : Nat) : Bool := inRegion p .whistle && p.opc.toNat == opc
def isCounterRead (p : Packet) : Bool := inRegion p .counters && p.opc == 0x02
def isRingRead (p : Packet) : Bool := inRegion p .ring && p.opc == 0x02
def isKfeaWrite (p : Packet) : Bool := inRegion p .ring && p.opc == 0x01 && (offOf p) / 32 == 9
def isCheadWrite (p : Packet) : Bool := inRegion p .ring && p.opc == 0x01 && !isKfeaWrite p
def isPool (p : Packet) (opc : Nat) : Bool := inRegion p .pool && p.opc.toNat == opc

/-- The module function addresses (R520). -/
def functionAddrs : List Nat :=
  [0xFFFFFFFFFB00, 0xFFFFFFFFFC00, 0xFFFFFFFFFD00, 0xFFFFFFFFFE00, 0xFFFFFFFFFF00]

/-- Whether some other command serves a request; START and EPOCH are decoded by their opcode alone. -/
def servedElsewhere (p : Packet) : Bool :=
  isTail p || isPush p || isBellRead p || isWhistle p 0x01 || isWhistle p 0x02 || isWhistle p 0x04 ||
  isWhistle p 0x06 || isCounterRead p || isRingRead p || isCheadWrite p || isKfeaWrite p ||
  (inRegion p .pool && p.opc.toNat ≤ 6) ||
  (p.opc == 0x20 && p.ktag == 0 && functionAddrs.contains p.addr.toNat)

/-- An arrival that is held unanswered stays with the network interface (R388). DEDUCED, log entry 34: unsafe. -/
def holdArrival (a : Arrival) (s : State) : State :=
  if s.ni.inbox.contains a then s else { s with ni := { s.ni with inbox := s.ni.inbox ++ [a] } }

/-- A packet for a kennel: it leaves the interface, one whose tag names no served kennel is answered PROTECTION
(R186), and any other is served. -/
def forKennel (a : Arrival) (f : Nat → Packet → State → State) (s : State) : State :=
  let s := takeArrival a s
  if a.pkt.ktag = 0 then sendErr a.pkt Code.protection s
  else match servedKennel s a.pkt.ktag with
    | none => sendErr a.pkt Code.protection s
    | some k => f k a.pkt s

/-- A doorbell access: one to a kennel in CLOSING is refused as R192's column for doorbells says.
DEDUCED, log entry 21: unsafe. -/
def forBell (a : Arrival) (f : Nat → Packet → State → State) (s : State) : State :=
  if a.pkt.ktag ≠ 0 ∧ ((liveKennel s a.pkt.ktag).any fun k => (s.kennel k).st == .closing) then
    sendErr a.pkt Code.kennelReset (takeArrival a s)
  else forKennel a f s

/-- A packet that a full Scent ring in hold mode holds (R388). -/
def heldByScent (a : Arrival) (s : State) : Bool :=
  match servedKennel s a.pkt.ktag with
  | some k => a.pkt.ktag != 0 && scentHolds s k
  | none => false

/-! ## Doorbells (R199 to R201) -/

/-- The queue of a doorbell access: refused outside OPEN (R192), absent beyond the page of queue 15.
DEDUCED, log entry 21: unsafe. -/
def forQueue (f : Nat → Nat → Queue → Packet → State → State) (k : Nat) (p : Packet) (s : State) : State :=
  let q := (offOf p) / 4096
  if (s.kennel k).st ≠ .open then sendErr p Code.kennelReset s
  else match if q < 16 then s.queue k q else none with
    | none => sendErr p Code.protection s
    | some x => f k q x p s

/-- Free slots of a ring. -/
def Queue.free (x : Queue) : Nat := 2 ^ x.log2 - (x.tail - x.head).toNat

/-- A TAIL write (R199, R200, R201). DEDUCED, log entry 84: unsafe. -/
def tailWrite (k q : Nat) (x : Queue) (p : Packet) (s : State) : State :=
  let new : W32 := BitVec.ofNat 32 (field p.payload 0 4)
  if (pageOffOf p) ≠ 0 ∨ p.len ≠ 1 ∨ field p.payload 4 12 ≠ 0 ∨ s.part = .s ∨ x.free < (new - x.tail).toNat then
    sendErr p Code.badDescriptor s
  else sendAck p (modQueue k q (fun x => { x with tail := new }) s)

def execTailWrite (a : Arrival) (s : State) : Out :=
  onFabric (cond' (isTail a.pkt) (forBell a (forQueue tailWrite))) s

/-- The pieces of a ring that descriptors from TAIL on fill. -/
def pushPieces (x : Queue) (d : List Byte) : List (Nat × List Byte) :=
  let slot := x.tail.toNat % 2 ^ x.log2
  let room := 64 * (2 ^ x.log2 - slot)
  (x.base + 64 * slot, d.take room) :: (if d.length ≤ room then [] else [(x.base, d.drop room)])

/-- A PUSH write (R199, R201): the descriptors are placed, TAIL advances, and the write is answered.
DEDUCED, log entry 84: unsafe. -/
def pushWrite (k q : Nat) (x : Queue) (p : Packet) (s : State) : State :=
  let n := 16 * p.len.toNat
  let j := n / 64
  if (pageOffOf p) ≠ 0x800 ∨ n % 64 ≠ 0 ∨ j = 0 ∨ 32 < j then sendErr p Code.badDescriptor s
  else if x.free < j then sendErr p Code.resourceFull s
  else
    let advance := modQueue k q fun x => { x with tail := x.tail + BitVec.ofNat 32 j }
    if s.part = .s then
      let slot := fun i => (x.tail.toNat + i) % 2 ^ x.log2
      let ring := (upto j).foldl (fun r i => Tbl.set r (slot i) ((p.payload.drop (64 * i)).take 64)) x.ring
      sendAck p (advance (modQueue k q (fun x => { x with ring := ring }) s))
    else
      let ps := pushPieces x p.payload
      match checkPieces k ps s with
      | (some code, s) => sendErr p code s
      | (none, s) => storePieces k ps (.fabric p 0) (advance s)

def execPushWrite (a : Arrival) (s : State) : Out :=
  onFabric (cond' (isPush a.pkt) (forBell a (forQueue pushWrite))) s

/-- QSTS (R199). DEDUCED, log entry 84: unsafe. -/
def qsts (s : State) (k q : Nat) (x : Queue) : Nat :=
  min (issuedOf s k q).length 511 + 512 * b2n (waitsWhistle s k q) + 1024 * b2n x.collWait

/-- A READ of the doorbell page. -/
def bellRead (k q : Nat) (x : Queue) (p : Packet) (s : State) : State :=
  let w0 := leBytes 16 x.tail.toNat
  let w1 := leBytes 8 x.head.toNat ++ leBytes 8 (qsts s k q x)
  match (pageOffOf p), (rlenOf p) with
  | 0x000, 1 => sendAnswer (readRspOf p w0) s
  | 0x010, 1 => sendAnswer (readRspOf p w1) s
  | 0x000, 2 => sendAnswer (readRspOf p (w0 ++ w1)) s
  | _, _ => sendErr p Code.badDescriptor s

def execDoorbellRead (a : Arrival) (s : State) : Out :=
  onFabric (cond' (isBellRead a.pkt) (forBell a (forQueue bellRead))) s

/-! ## Whistles (R218) -/

/-- A whistle access: unaligned or beyond the count is PROTECTION (R217, R517), and with the compute die out of
service one that misses the cache is answered CHECK_FAIL (R471).
DESIGN CHOICE, log entry 22: unsafe. DESIGN CHOICE, log entry 24: safe. -/
def forWhistle (f : Nat → Nat → Packet → State → State) (k : Nat) (p : Packet) (s : State) : State :=
  let w := (offOf p) / 8
  let n := max 1 ((accLen p).getD 0 / 8)
  if (offOf p) % 8 ≠ 0 ∨ (s.kennel k).nWh < w + n then sendErr p Code.protection s
  else if s.dieOut && s.part != .s then
    let (hit, s) := s.freeB
    if hit then f k w p s else sendErr p Code.checkFail s
  else f k w p s

/-- The Scent record of a whistle that a packet changed (R389). -/
def scentWhistle (k w : Nat) (p : Packet) (s : State) : State :=
  scentLog k 3 0 w 0 (s.whistle k w).toNat (leBytes 2 p.src.toNat) none s

def whistleRead (k w : Nat) (p : Packet) (s : State) : State :=
  sendAnswer (readRspOf p ((upto (2 * (rlenOf p))).flatMap fun i => leBytes 8 (s.whistle k (w + i)).toNat)) s

def whistleWrite (k w : Nat) (p : Packet) (s : State) : State :=
  let set := fun (s : State) (i : Nat) =>
    scentWhistle k (w + i) p (whSet k (w + i) (BitVec.ofNat 64 (field p.payload (8 * i) 8)) s)
  sendAck p ((upto (2 * p.len.toNat)).foldl set s)

def whistleFadd (k w : Nat) (p : Packet) (s : State) : State :=
  let old := s.whistle k w
  let s := scentWhistle k w p (whAdd k w (BitVec.ofNat 64 (field p.payload 0 8)) s)
  sendAnswer (atomRspOf p old.toNat) s

def whistleCas (k w : Nat) (p : Packet) (s : State) : State :=
  let old := s.whistle k w
  let s := if old.toNat = field p.payload 0 8 then
      scentWhistle k w p (whSet k w (BitVec.ofNat 64 (field p.payload 8 8)) s)
    else s
  sendAnswer (atomRspOf p old.toNat) s

/-- A whistle packet, held unanswered while the kennel's Scent ring holds its accesses.
DESIGN CHOICE, log entry 22: unsafe. -/
def whistleAccess (a : Arrival) (f : Nat → Nat → Packet → State → State) (s : State) : State :=
  if heldByScent a s then holdArrival a s else forKennel a (forWhistle f) s

def execWhistleRead (a : Arrival) (s : State) : Out :=
  onFabric (cond' (isWhistle a.pkt 0x02) (whistleAccess a whistleRead)) s

def execWhistleWrite (a : Arrival) (s : State) : Out :=
  onFabric (cond' (isWhistle a.pkt 0x01) (whistleAccess a whistleWrite)) s

def execWhistleFaddI64 (a : Arrival) (s : State) : Out :=
  onFabric (cond' (isWhistle a.pkt 0x04) (whistleAccess a whistleFadd)) s

def execWhistleCas64 (a : Arrival) (s : State) : Out :=
  onFabric (cond' (isWhistle a.pkt 0x06) (whistleAccess a whistleCas)) s

/-! ## The counter view (R508, R509) -/

/-- The range of the view that an offset lies in, and its bit of the view mask. -/
def viewBit (o : Nat) : Nat := if o < 0x1000 then 0 else if o < 0x2000 then 1 else 2

/-- The counter at an offset of the view. -/
def viewWord (s : State) (k o : Nat) : Nat :=
  if o < 0x1000 then (if o / 8 < 16 then s.rd F.CTR_KNL_COUNT (16 * k + o / 8) else 0)
  else if o < 0x2000 then
    let c := (o - 0x1000) / 128
    let i := (o - 0x1000) % 128 / 8
    if i < 8 ∧ s.rdB F.CMP_OWN_VALID c ∧ s.rd F.CMP_OWN_KENNEL c = k then s.rd F.CTR_CORE_COUNT (8 * c + i) else 0
  else
    let p := (o - 0x2000) / 256
    let j := (o - 0x2000) % 256 / 8
    if boundKennel s p = some k then
      match j with
      | 0 => s.rd F.OUB_RXPKT_CNT_COUNT p
      | 1 => s.rd F.OUB_TXPKT_CNT_COUNT p
      | 2 => s.rd F.OUB_RXBYTE_CNT_COUNT p
      | 3 => s.rd F.OUB_TXBYTE_CNT_COUNT p
      | 4 => s.rd F.OUB_STALL_CNT_COUNT p
      | 17 => s.rd F.LNK_RETRY_CNT_COUNT p
      | _ => if 5 ≤ j ∧ j ≤ 16 then s.rd F.OUB_DROP_CNT_COUNT (16 * p + (j - 5)) else 0
    else 0

/-- A READ of the view: its form, then the ranges it touches. -/
def counterRead (k : Nat) (p : Packet) (s : State) : State :=
  let n := 16 * (rlenOf p)
  if (offOf p) % 8 ≠ 0 ∨ 0xB000 < (offOf p) + n then sendErr p Code.badDescriptor s
  else
    let offs := (upto (n / 8)).map fun i => (offOf p) + 8 * i
    if offs.any fun o => !bit (s.kennel k).viewMask (viewBit o) then sendErr p Code.protection s
    else sendAnswer (readRspOf p (offs.flatMap fun o => leBytes 8 (viewWord s k o))) s

def execCounterViewRead (a : Arrival) (s : State) : Out :=
  onFabric (cond' (isCounterRead a.pkt) (forKennel a counterRead)) s

/-! ## The completion ring control page (R223, R407) -/

/-- A write of CHEAD; held records for which it makes room follow (R226). DEDUCED, log entry 84: unsafe. -/
def cheadWrite (k : Nat) (p : Packet) (s : State) : State :=
  let kn := s.kennel k
  let new : W32 := BitVec.ofNat 32 (field p.payload 0 4)
  if (offOf p) ≠ 0x10 ∨ p.len ≠ 1 ∨ field p.payload 4 12 ≠ 0 ∨ (kn.ctail - kn.chead).toNat < (new - kn.chead).toNat then
    sendErr p Code.badDescriptor s
  else
    let s := sendAck p (s.modKennel k fun x => { x with chead := new })
    drainHeld k kn.held.length s

def execCheadWrite (a : Arrival) (s : State) : Out :=
  onFabric (cond' (isCheadWrite a.pkt) (forKennel a cheadWrite)) s

/-- The 32 bytes of a feature word. -/
def featureBytes (n : Nat) : List Byte := leBytes 32 n

/-- Record slots' bytes; a slot that nothing has written reads 0. -/
def recordRead (kn : Kennel) (o n : Nat) : List Byte :=
  (upto n).map fun i =>
    let b := o + i
    (Tbl.get kn.recs (b / 32) []).getD (b % 32) 0

/-- DESIGN CHOICE, log entry 95: unsafe. -/
def ringRead (k : Nat) (p : Packet) (s : State) : State :=
  let kn := s.kennel k
  let w0 := leBytes 16 kn.ctail.toNat
  let w1 := leBytes 16 kn.chead.toNat
  let w2 := leBytes 4 (b2n kn.ringFull + 2 * b2n (kn.st == .resetting)) ++ leBytes 4 kn.lost ++ leBytes 8 0
  match (offOf p), (rlenOf p) with
  | 0x000, 1 => sendAnswer (readRspOf p w0) s
  | 0x010, 1 => sendAnswer (readRspOf p w1) s
  | 0x000, 2 => sendAnswer (readRspOf p (w0 ++ w1)) s
  | 0x020, 1 => sendAnswer (readRspOf p w2) s
  | 0x100, 2 => sendAnswer (readRspOf p (featureBytes s.accepted)) s
  | 0x120, 2 => sendAnswer (readRspOf p (featureBytes kn.feat.toNat)) s
  | o, r =>
    if 0x1000 ≤ o ∧ o % 16 = 0 ∧ o + 16 * r ≤ 0x1000 + 32 * 2 ^ kn.cqLog then
      sendAnswer (readRspOf p (recordRead kn (o - 0x1000) (16 * r))) s
    else sendErr p Code.badDescriptor s

def execCompletionControlRead (a : Arrival) (s : State) : Out :=
  onFabric (cond' (isRingRead a.pkt) (forKennel a ringRead)) s

/-- A write of KFEA (R407): the AND of the value and MFEA, with bit 14 kept in a REPRO kennel. -/
def kfeaWrite (k : Nat) (p : Packet) (s : State) : State :=
  let kn := s.kennel k
  if (offOf p) ≠ 0x120 ∨ p.len ≠ 2 then sendErr p Code.badDescriptor s
  else if kn.st ≠ .created ∨ kn.everOpen then sendErr p Code.protection s
  else
    let v := field p.payload 0 32 &&& s.accepted
    let v := if kn.repro then setBit v 14 else v
    sendAck p (s.modKennel k fun x => { x with feat := BitVec.ofNat 64 v })

def execKfeaWrite (a : Arrival) (s : State) : Out :=
  onFabric (cond' (isKfeaWrite a.pkt) (forKennel a kfeaWrite)) s

/-! ## Accesses that no region serves (R518) -/

/-- A request that another command does not serve: PROTECTION with KTAG 0 or without a served kennel (R186), else
BAD_DESCRIPTOR (R517, R518). DEDUCED, log entry 23: unsafe. -/
def unserved (a : Arrival) (s : State) : State := forKennel a (fun _ p s => sendErr p Code.badDescriptor s) s

def execUnservedAccess (a : Arrival) (s : State) : Out :=
  let c := opcClass a.pkt.opc.toNat
  let own := c == some 0 || a.pkt.opc == 0x20
  onFabric (cond' (own && !servedElsewhere a.pkt) (unserved a)) s

/-! ## The pool window (R241, R249, R250) -/

/-- A mirror write of the tray-mate (R250): a WRITE, as every mirror write is (R249). -/
def fromMate (a : Arrival) (s : State) : Bool :=
  a.pkt.opc == 0x01 && a.port < 144 && s.role a.port == 5 && s.self != 0xFFFF && a.pkt.src.toNat == mateEid s

/-- Checks, translates and queues an access to the pool. -/
def poolAccess (op : PoolOp) (a : Arrival) (k : Nat) (p : Packet) (s : State) : State :=
  let va := p.addr.toNat
  match poolCheck s k va op (fromMate a s) with
  | some code => sendErr p code (walkRaise k va op s)
  | none => newAcc { id := 0, k := k, va := va, op := op, asker := .fabric p a.port } s

/-- A pool packet, held unanswered while the kennel's Scent ring holds its accesses. -/
def poolPacket (opc : Nat) (op : Packet → PoolOp) (a : Arrival) (s : State) : State :=
  if isPool a.pkt opc then
    if heldByScent a s then holdArrival a s else forKennel a (poolAccess (op a.pkt) a) s
  else s

def execPoolRead (a : Arrival) (s : State) : Out := onFabric (poolPacket 0x02 (fun p => .read (16 * (rlenOf p))) a) s

def execPoolWrite (a : Arrival) (s : State) : Out := onFabric (poolPacket 0x01 (fun p => .write p.payload) a) s

def execPoolFaddI32 (a : Arrival) (s : State) : Out :=
  onFabric (poolPacket 0x03 (fun p => .faddI32 (BitVec.ofNat 32 (field p.payload 0 4))) a) s

def execPoolFaddI64 (a : Arrival) (s : State) : Out :=
  onFabric (poolPacket 0x04 (fun p => .faddI64 (BitVec.ofNat 64 (field p.payload 0 8))) a) s

def execPoolFaddF32 (a : Arrival) (s : State) : Out :=
  onFabric (poolPacket 0x05 (fun p => .faddF32 (BitVec.ofNat 32 (field p.payload 0 4))) a) s

def execPoolCas64 (a : Arrival) (s : State) : Out :=
  onFabric (poolPacket 0x06
    (fun p => .cas (BitVec.ofNat 64 (field p.payload 0 8)) (BitVec.ofNat 64 (field p.payload 8 8))) a) s

end Sys2Proof.Machine
end

