-- ==== Sys2Proof/Machine/Flags.lean ====
section
/-! DEFINITION. What the sequencer decides: comparisons (R345), the predicate a comparison sets, and the hazard checker
(R326, R327, R341, R342): what an instruction uses, the causes that stop its bundle, and the stop. -/

namespace Sys2Proof.Machine

/-! ## Comparisons (R345) -/

inductive Cmp where
  | eq | ne | lt | ge | ltu | geu
  deriving DecidableEq, Repr

def Cmp.holds (c : Cmp) (a b : W64) : Bool :=
  match c with
  | .eq => a == b
  | .ne => a != b
  | .lt => BitVec.slt a b
  | .ge => !BitVec.slt a b
  | .ltu => BitVec.ult a b
  | .geu => !BitVec.ult a b

/-! ## Hazard causes (R326) -/

namespace Cause'
def early : Nat := 1
def collide : Nat := 2
def bank : Nat := 3
def tint : Nat := 4
def accmode : Nat := 5
def latch : Nat := 7
def slot : Nat := 8
def addr : Nat := 9
def text : Nat := 10
def encode : Nat := 11
def staticSlot : Nat := 12
def scrubFail : Nat := 13
end Cause'

/-- What an instruction uses: the registers it reads and writes, with the cycle of each write, and the lines it
accesses in its issue cycle and in the one after. -/
structure Uses where
  bad : Bool := false                   -- a reserved encoding
  s : List Nat := []
  p : List Nat := []
  v : List Nat := []
  x : List Nat := []
  acc : List Nat := []                  -- accumulators read out
  ws : List (Nat × Nat) := []           -- registers written and latency
  wp : List (Nat × Nat) := []
  wv : List (Nat × Nat) := []
  wx : List (Nat × Nat) := []
  lines : List Nat := []
  lines1 : List Nat := []
  other : Option Nat := none            -- a cause of its own
  deriving DecidableEq, Repr

/-- The registers a result in flight will reach. -/
def Res.toS (r : Nat) : Res → Bool
  | .s q _ => q == r
  | _ => false
def Res.toP (r : Nat) : Res → Bool
  | .p q _ => q == r
  | _ => false
def Res.toV (r : Nat) : Res → Bool
  | .v q _ => q == r
  | .vGroups q _ _ => q == r
  | .vBytes q _ _ => q == r
  | _ => false
def Res.toX (r : Nat) : Res → Bool
  | .x q _ => q == r
  | .xScale q _ _ => q == r
  | .xTscale q _ => q == r
  | .xEb q _ => q == r
  | _ => false
def Res.toTile (r : Nat) : Res → Bool
  | .tile q _ _ => q == r
  | _ => false

/-- A result of an earlier bundle has not reached the register yet. -/
def Core.early (x : Core) (t : Nat) (hit : Res → Bool) : Bool :=
  x.pend.any fun q => q.issued < t && t < q.due && hit q.res

/-- Another result reaches the register in the same cycle. -/
def Core.collides (x : Core) (due : Nat) (hit : Res → Bool) : Bool :=
  x.pend.any fun q => q.due == due && hit q.res

/-- What an accumulator's operation of cycle `t` has replaced, which the other slots of its bundle read (R326). -/
def Core.accBefore (x : Core) (t a : Nat) : Option (Nat × Tile) :=
  match Tbl.find x.accWas a with
  | some (u, r, y) => if u = t then some (r, y) else none
  | none => none

/-- An accumulator is not yet readable (R307). -/
def Core.accEarly (x : Core) (t a : Nat) : Bool :=
  t < ((x.accBefore t a).map (·.1)).getD (Tbl.get x.accReady a 0) || x.early t (Res.toTile a)

def hasDup : List Nat → Bool
  | [] => false
  | a :: t => t.contains a || hasDup t

def banksOf (l : List Nat) : List Nat := l.map (· % 48)

/-- The banks taken by fixed accesses in a cycle (R321). -/
def Core.banksAt (x : Core) (t : Nat) : List Nat := (x.banks.filter fun b => b.1 == t).map (·.2)

/-- The causes that hold for an instruction that executes, lowest code first; ENCODE is tested before.
DEDUCED, log entry 32: safe. -/
def Core.hazard (x : Core) (t : Nat) (u : Uses) : Option Nat :=
  if u.s.any (fun r => r != 0 && x.early t (Res.toS r)) || u.p.any (fun r => r != 0 && x.early t (Res.toP r)) ||
     u.v.any (fun r => x.early t (Res.toV r)) || u.x.any (fun r => x.early t (Res.toX r)) ||
     u.acc.any (fun r => x.accEarly t r) then some Cause'.early
  else if u.ws.any (fun w => w.1 != 0 && x.collides (t + w.2) (Res.toS w.1)) ||
     u.wp.any (fun w => w.1 != 0 && x.collides (t + w.2) (Res.toP w.1)) ||
     u.wv.any (fun w => x.collides (t + w.2) (Res.toV w.1)) ||
     u.wx.any (fun w => x.collides (t + w.2) (Res.toX w.1)) then some Cause'.collide
  else if hasDup (banksOf u.lines ++ x.banksAt t) || hasDup (banksOf u.lines1 ++ x.banksAt (t + 1)) then
    some Cause'.bank
  else match u.other with
    | some c => some c
    | none => if u.lines.any (spadLines ≤ ·) || u.lines1.any (spadLines ≤ ·) then some Cause'.addr else none

/-- The hazard checker on one slot: ENCODE, and EARLY on the predicate, whether or not the instruction executes;
the other causes only when it does (R341). DEDUCED, log entry 32: safe. DEDUCED, log entry 86: unsafe. -/
def Core.check (x : Core) (t : Nat) (g : Guard) (u : Uses) : Option Nat :=
  if u.bad then some Cause'.encode
  else if g.pidx != 0 && x.early t (Res.toP g.pidx.toNat) then some Cause'.early
  else if x.guard g then x.hazard t u
  else none

/-! ## The stop (R327) -/

/-- The bundle that a core issues next: the target of a taken branch whose delay bundles have issued (R346). -/
def Core.nextBundle (x : Core) : Nat :=
  match x.jumps.find? fun j => j.1 == 0 with
  | some j => j.2
  | none => x.pc

/-- A core stops at the bundle that did not issue; the compute-hazard source, or for a static-slot refusal its
own source, is raised for the core. -/
def hazardStop (c cause : Nat) (s : State) : State :=
  let x := s.core c
  let s := ((s.wr F.CMP_FLT_CAUSE cause c).wr F.CMP_FLT_BUNDLE x.nextBundle c).wr F.CMP_FLTCYC_CYCLE s.cyc.toNat c
  let s := (s.setCore c { x with st := .stopped }).count F.CTR_CORE_COUNT (8 * c + 6)
  raise (if cause = Cause'.staticSlot then 644 + c else 612 + c) s

/-! ## Results in flight (R342) -/

/-- Adds a result that bundles may read from `lat` cycles on. -/
def Core.later (x : Core) (t lat : Nat) (r : Res) : Core :=
  { x with pend := x.pend ++ [{ issued := t, due := t + lat, res := r }] }

/-- Takes the banks of an instruction's lines. -/
def Core.takeBanks (x : Core) (t : Nat) (u : Uses) : Core :=
  { x with banks := x.banks ++ (banksOf u.lines).map (fun b => (t, b)) ++ (banksOf u.lines1).map (fun b => (t + 1, b)) }

/-! ## Issue -/

/-- The program that runs on a core. -/
def coreProg (s : State) (c : Nat) : Option Prog :=
  (s.core c).prog.bind fun pid => s.isl.progs.find? fun p => p.id == pid

/-- A core that issues bundles: it runs a program that has started, and neither a wait nor an `end` of an earlier
cycle holds it. -/
def issuing (s : State) (c : Nat) : Bool :=
  let x := s.core c
  x.st == .run && x.waiting.isNone && x.ended.all (· == s.cyc.toNat) && (match coreProg s c with
    | some p => p.running
    | none => false)

/-- One slot of the bundle that core `c` issues in this cycle: the checker's stop, or the effect on the core; an
instruction whose guard is false has none. -/
def slot (c : Nat) (g : Guard) (u : Core → Uses) (eff : Nat → Core → Core) (s : State) : State :=
  if !issuing s c then s
  else
    let x := s.core c
    let t := s.cyc.toNat
    match x.check t g (u x) with
    | some cause => hazardStop c cause s
    | none => if x.guard g then s.setCore c (eff t (x.takeBanks t (u x))) else s

/-- A slot whose effect reaches beyond the core. -/
def slotS (c : Nat) (g : Guard) (u : Core → Uses) (eff : State → State) (s : State) : State :=
  if !issuing s c then s
  else
    let x := s.core c
    let t := s.cyc.toNat
    match x.check t g (u x) with
    | some cause => hazardStop c cause s
    | none => if x.guard g then eff (s.setCore c (x.takeBanks t (u x))) else s

end Sys2Proof.Machine
end

