-- ==== Sys2Proof/Machine/SlotS.lean ====
section
/-! DEFINITION. The S slot: scalar and predicate arithmetic, branches, the end of a core and the step counter
(R344 to R347). -/

namespace Sys2Proof.Machine

/-- A command of a slot of core `c`. -/
def slotCmd (c : Nat) (f : State → State) (s : State) : Out := liveUnit c 32 f s

/-! ## Formats SA and SX -/

/-- What a two-operand instruction uses. -/
def usesSA (f : SA) (lat : Nat) : Uses :=
  { bad := f.rsv != 0, s := f.a.toNat :: (if f.i then [] else [f.b.toNat]), ws := [(f.d.toNat, lat)] }

/-- A scalar result; a write to s0 is discarded. -/
def Core.putS (x : Core) (t lat d : Nat) (v : W64) : Core := if d = 0 then x else x.later t lat (.s d v)

/-- D = A op B. -/
def arith (c : Nat) (g : Guard) (f : SA) (lat : Nat) (op : W64 → W64 → W64) (s : State) : State :=
  slot c g (fun _ => usesSA f lat)
    (fun t x => x.putS t lat f.d.toNat (op (x.sreg f.a.toNat) (x.opB f.b f.i f.imm))) s

/-- No operation: nothing but the checks of its guard and its word. -/
def nopSlot (c : Nat) (g : Guard) (f : NoFmt) (s : State) : State :=
  slot c g (fun _ => { bad := f != 0 }) (fun _ x => x) s

/-- DEDUCED, log entry 86: unsafe. -/
def execSSlotNop (c : Nat) (g : Guard) (f : NoFmt) (s : State) : Out := slotCmd c (nopSlot c g f) s
def execAdd (c : Nat) (g : Guard) (f : SA) (s : State) : Out := slotCmd c (arith c g f 1 (· + ·)) s
def execSub (c : Nat) (g : Guard) (f : SA) (s : State) : Out := slotCmd c (arith c g f 1 (· - ·)) s
def execMul (c : Nat) (g : Guard) (f : SA) (s : State) : Out := slotCmd c (arith c g f 3 (· * ·)) s
def execAnd (c : Nat) (g : Guard) (f : SA) (s : State) : Out := slotCmd c (arith c g f 1 (· &&& ·)) s
def execOr (c : Nat) (g : Guard) (f : SA) (s : State) : Out := slotCmd c (arith c g f 1 (· ||| ·)) s
def execXor (c : Nat) (g : Guard) (f : SA) (s : State) : Out := slotCmd c (arith c g f 1 (· ^^^ ·)) s
def execShl (c : Nat) (g : Guard) (f : SA) (s : State) : Out :=
  slotCmd c (arith c g f 1 fun a b => a <<< (b.toNat % 64)) s
def execShr (c : Nat) (g : Guard) (f : SA) (s : State) : Out :=
  slotCmd c (arith c g f 1 fun a b => a >>> (b.toNat % 64)) s
def execSra (c : Nat) (g : Guard) (f : SA) (s : State) : Out :=
  slotCmd c (arith c g f 1 fun a b => a.sshiftRight (b.toNat % 64)) s
def execMin (c : Nat) (g : Guard) (f : SA) (s : State) : Out :=
  slotCmd c (arith c g f 1 fun a b => if BitVec.slt b a then b else a) s
def execMax (c : Nat) (g : Guard) (f : SA) (s : State) : Out :=
  slotCmd c (arith c g f 1 fun a b => if BitVec.slt a b then b else a) s
def execMinu (c : Nat) (g : Guard) (f : SA) (s : State) : Out :=
  slotCmd c (arith c g f 1 fun a b => if BitVec.ult b a then b else a) s
def execMaxu (c : Nat) (g : Guard) (f : SA) (s : State) : Out :=
  slotCmd c (arith c g f 1 fun a b => if BitVec.ult a b then b else a) s

def execLi (c : Nat) (g : Guard) (f : SA) (s : State) : Out :=
  slotCmd c (slot c g (fun _ => { bad := f.rsv != 0, ws := [(f.d.toNat, 1)] })
    (fun t x => x.putS t 1 f.d.toNat (f.imm.signExtend 64))) s

def execLih (c : Nat) (g : Guard) (f : SA) (s : State) : Out :=
  slotCmd c (slot c g (fun _ => { bad := f.rsv != 0, s := [f.a.toNat], ws := [(f.d.toNat, 1)] })
    (fun t x => x.putS t 1 f.d.toNat (f.imm ++ (x.sreg f.a.toNat).truncate 32 : W64))) s

/-! ## Predicates: formats SP and SL -/

/-- A predicate result; a write to p0 is discarded. -/
def Core.putP (x : Core) (t d : Nat) (v : Bool) : Core := if d = 0 then x else x.later t 1 (.p d v)

def compare (c : Nat) (g : Guard) (f : SP) (k : Cmp) (s : State) : State :=
  slot c g
    (fun _ => { bad := f.rsv != 0, s := f.a.toNat :: (if f.i then [] else [f.b.toNat]), wp := [(f.pd.toNat, 1)] })
    (fun t x => x.putP t f.pd.toNat (k.holds (x.sreg f.a.toNat) (x.opB f.b f.i f.imm))) s

def execCmpEq (c : Nat) (g : Guard) (f : SP) (s : State) : Out := slotCmd c (compare c g f .eq) s
def execCmpNe (c : Nat) (g : Guard) (f : SP) (s : State) : Out := slotCmd c (compare c g f .ne) s
def execCmpLt (c : Nat) (g : Guard) (f : SP) (s : State) : Out := slotCmd c (compare c g f .lt) s
def execCmpGe (c : Nat) (g : Guard) (f : SP) (s : State) : Out := slotCmd c (compare c g f .ge) s
def execCmpLtu (c : Nat) (g : Guard) (f : SP) (s : State) : Out := slotCmd c (compare c g f .ltu) s
def execCmpGeu (c : Nat) (g : Guard) (f : SP) (s : State) : Out := slotCmd c (compare c g f .geu) s

def predOp (c : Nat) (g : Guard) (f : SL) (op : Bool → Bool → Bool) (s : State) : State :=
  slot c g (fun _ => { bad := f.rsv != 0, p := [f.pa.toNat, f.pb.toNat], wp := [(f.pd.toNat, 1)] })
    (fun t x => x.putP t f.pd.toNat (op (x.preg f.pa.toNat != f.na) (x.preg f.pb.toNat != f.nb))) s

def execPand (c : Nat) (g : Guard) (f : SL) (s : State) : Out := slotCmd c (predOp c g f (· && ·)) s
def execPor (c : Nat) (g : Guard) (f : SL) (s : State) : Out := slotCmd c (predOp c g f (· || ·)) s
def execPxor (c : Nat) (g : Guard) (f : SL) (s : State) : Out := slotCmd c (predOp c g f (· != ·)) s

/-! ## Control (R346, R347) -/

/-- A taken branch: two more bundles issue in sequence, then the target. -/
def Core.branch (x : Core) (tgt : Nat) : Core := { x with jumps := x.jumps ++ [(2, tgt)] }

def execBr (c : Nat) (g : Guard) (f : SB) (s : State) : Out :=
  slotCmd c (slot c g (fun _ => { bad := f.rsv != 0 }) (fun _ x => x.branch f.tgt.toNat)) s

def execBdec (c : Nat) (g : Guard) (f : SB) (s : State) : Out :=
  slotCmd c (slot c g (fun _ => { bad := f.rsv != 0, s := [f.a.toNat], ws := [(f.a.toNat, 1)] })
    (fun t x =>
      let v := x.sreg f.a.toNat - 1
      let x := x.putS t 1 f.a.toNat v
      if v = 0 then x else x.branch f.tgt.toNat)) s

/-- The core ends; the other slots of its bundle execute. -/
def endCore (c : Nat) (s : State) : State :=
  let x := s.core c
  if x.ended.isSome then s
  else
    let s := s.setCore c { x with ended := some s.cyc.toNat, jumps := [] }
    match x.prog with
    | some pid => { s with isl := { s.isl with
        progs := ListOps.update (fun p => p.id == pid)
          (fun p => { p with ended := p.ended + 1, endCyc := s.cyc.toNat }) s.isl.progs } }
    | none => s

/-- DEDUCED, log entry 86: unsafe. -/
def execEndProg (c : Nat) (g : Guard) (f : NoFmt) (s : State) : Out :=
  slotCmd c (slotS c g (fun _ => { bad := f != 0 }) (endCore c)) s

/-! ## Cycles, step and seed: format SX -/

def usesSX (f : SX) : Uses := { bad := f.rsv != 0, ws := [(f.d.toNat, 1)] }

/-- Cycles from T0 to this cycle. -/
def sinceT0 (s : State) (c : Nat) : Nat :=
  match coreProg s c with
  | some p => s.cyc.toNat - p.t0.getD s.cyc.toNat
  | none => 0

def execRdcyc (c : Nat) (g : Guard) (f : SX) (s : State) : Out :=
  slotCmd c (slot c g (fun _ => usesSX f) (fun t x => x.putS t 1 f.d.toNat (BitVec.ofNat 64 (sinceT0 s c)))) s

def execRdstep (c : Nat) (g : Guard) (f : SX) (s : State) : Out :=
  slotCmd c (slot c g (fun _ => usesSX f) (fun t x => x.putS t 1 f.d.toNat x.step)) s

def execRdseed (c : Nat) (g : Guard) (f : SX) (s : State) : Out :=
  slotCmd c (slot c g (fun _ => usesSX f)
    (fun t x => x.putS t 1 f.d.toNat (if f.h then x.seed.extractLsb' 64 64 else x.seed.extractLsb' 0 64))) s

def execStepadd (c : Nat) (g : Guard) (f : SX) (s : State) : Out :=
  slotCmd c (slot c g (fun _ => { bad := f.rsv != 0 })
    (fun t x => x.later t 1 (.step (x.step + f.imm.zeroExtend 64)))) s

def execStepset (c : Nat) (g : Guard) (f : SX) (s : State) : Out :=
  slotCmd c (slot c g (fun _ => { bad := f.rsv != 0, s := [f.a.toNat] })
    (fun t x => x.later t 1 (.step (x.sreg f.a.toNat)))) s

end Sys2Proof.Machine
end

