-- ==== Sys2Proof/Machine/SlotT.lean ====
section
/-! DEFINITION. The T slot: accumulators, B latches and the tensor operations (R307 to R312, R348 to R350). -/

namespace Sys2Proof.Machine

/-! ## Tiles (R310 to R312) -/

def Core.tile (x : Core) (a : Nat) : Tile := Tbl.get x.acc a {}

/-- The tile that a bundle of cycle `t` reads. -/
def Core.tileAt (x : Core) (t a : Nat) : Tile := ((x.accBefore t a).map (·.2)).getD (x.tile a)

/-- An operation of cycle `t` is about to add to an accumulator: what stands there is kept for the bundle's reads. -/
def Core.keepTile (x : Core) (t a : Nat) : Core :=
  if (x.accBefore t a).isSome then x
  else { x with accWas := Tbl.set x.accWas a (t, Tbl.get x.accReady a 0, x.tile a) }

def Core.setTile (x : Core) (a : Nat) (v : Tile) : Core := { x with acc := Tbl.put x.acc a v {} }

/-- Special states add as IEEE 754 adds them: 0 none, 1 +∞, 2 −∞, 3 NaN. -/
def specAdd (a b : Nat) : Nat := if a = 0 then b else if b = 0 then a else if a = b then a else 3

def specOf : Num → Nat
  | .fin _ _ _ => 0
  | .inf s => if s then 2 else 1
  | .nan => 3

/-- The contributions of a K-slice to one element, one for each unit of R312's table. -/
def contributions (a b : List (Option Num × List Num)) : List Num :=
  (a.zip b).map fun r =>
    match r.1.1, r.2.1 with
    | some sa, some sb =>
      (((r.1.2.zip r.2.2).foldl (fun (v : Num) y => v.add (y.1.mul y.2)) (Num.fin false 0 0)).mul sa).mul sb
    | _, _ => .nan

/-- floor(c / 2^eb) of a finite contribution, and whether |c| reaches 2^(eb + 79). -/
def orderFreeUnit (eb : Int) (s : Bool) (m : Nat) (e : Int) : Int × Bool :=
  let up := (e - eb).toNat
  let dn := (eb - e).toNat
  let v : Int := (if s then -1 else 1) * ((m * 2 ^ up : Nat) : Int)
  (Int.fdiv v ((2 ^ dn : Nat) : Int), decide (2 ^ 79 * 2 ^ dn ≤ m * 2 ^ up))

/-- One element of an order-free tile takes the contributions of a K-slice. -/
def orderFreeAdd (eb : Int) (l : List Num) (n sp : Nat) (ovf : Bool) : Nat × Nat × Bool :=
  l.foldl (fun a c =>
    match c with
    | .fin s m e =>
      let (v, o) := orderFreeUnit eb s m e
      ((((a.1 : Int) + v) % 2 ^ 80).toNat, a.2.1, a.2.2 || o)
    | c => (a.1, specAdd a.2.1 (specOf c), a.2.2)) (n, sp, ovf)

/-- The tile after one tmma with its operands' rows and columns (R310, R312). -/
def Tile.mma (x : Tile) (rows cols : List (List (Option Num × List Num))) : Tile :=
  if x.lost then x
  else
    let cells := (rows.zipIdx).flatMap fun r => (cols.zipIdx).map fun c => (64 * r.2 + c.2, contributions r.1 c.1)
    if x.free then
      let res := cells.map fun y => (y.1, orderFreeAdd x.eb y.2 (Tbl.get x.n y.1 0) (Tbl.get x.spec y.1 0) false)
      { x with n := (res.filter fun r => r.2.1 != 0).map fun r => (r.1, r.2.1),
               spec := (res.filter fun r => r.2.2.1 != 0).map fun r => (r.1, r.2.2.1),
               ovf := x.ovf || res.any fun r => r.2.2.2 }
    else
      let res := cells.map fun y => (y.1, to32 (y.2.foldl Num.add (num32 (Tbl.get x.n y.1 0))))
      { x with n := res.filter fun r => r.2 != 0 }

/-! ## Operands and latches -/

/-- The lines of an operand from line `l` on, modulo 2^64. -/
def operandLines (f : TFmt) (l : Nat) : List Nat := (upto f.lines).map fun i => (l + i) % 2 ^ 64

/-- Reads the next lines of an operand, at most 18 in a cycle. -/
def Operand.read (o : Operand) (x : Core) : Operand :=
  { o with lines := o.lines.drop 18, bytes := o.bytes ++ (o.lines.take 18).flatMap x.line }

def Operand.bytesOf (f : TFmt) : Nat := 64 * f.lines

/-- The bytes a latch gives for a format: zeros when nothing has been loaded since the program's start; a shorter
operand of another format leaves the rest unknown. -/
def latchBytes (x : Core) (i : Nat) (f : TFmt) : List Byte :=
  let need := Operand.bytesOf f
  match Tbl.find x.latch i with
  | none => List.replicate need 0
  | some l => l ++ (upto (need - l.length)).map fun i => Config.latchRest l (l.length + i)

/-- The engines of a mask. -/
def enginesOf (mask : Nat) : List Nat := (upto 4).filter fun e => bit mask e

/-- The operand of a tmma has been read: every engine of the mask adds its product. -/
def tmmaApply (c mask acc ls : Nat) (o : Operand) (s : State) : State :=
  let f := TFmt.ofCode o.fmt
  let rows := (upto 64).map (operandRow f o.bytes)
  (enginesOf mask).foldl (fun s e =>
    let cols := (upto 64).map (operandRow f (latchBytes (s.core c) (2 * e + ls) f))
    s.modCore c fun x => x.setTile (4 * e + acc) ((x.tile (4 * e + acc)).mma rows cols)) s

/-! ## Checks of the T slot -/

/-- An accumulator whose storage its order-free partner holds (R312). -/
def Core.takenPair (x : Core) (a : Nat) : Bool := a % 2 == 1 && (x.tile (a - 1)).free

/-- The causes of an operation into accumulator `a` of engine `e` that adds to it. -/
def Core.addCause (x : Core) (t e a : Nat) (free : Bool) : Option Nat :=
  if x.early t (Res.toTile a) then some Cause'.early
  else if t < Tbl.get x.accNext a 0 || t < Tbl.get x.tBusy e 0 then some Cause'.tint
  else if (x.tile a).free != free || x.takenPair a then some Cause'.accmode
  else none

/-- DEDUCED, log entry 32: safe. -/
def firstCause (l : List (Option Nat)) : Option Nat :=
  (l.filterMap id).foldl (fun a c => some (match a with | some b => Nat.min b c | none => c)) none

/-- Cycles a tmma occupies its engine. -/
def tmmaCycles (f : TFmt) (free : Bool) : Nat := if free then 2 * f.occ else f.occ

/-- LATCH (R309, R350): a latch is written in a cycle in which a tmma occupies its engine on it. -/
def Core.latchCause (x : Core) (t : Nat) (f : TFmt) (m : TM) : Bool :=
  let occ := tmmaCycles f m.of
  let es := enginesOf m.emask.toNat
  let ls := b2n m.ls
  let li := 2 * m.leng.toNat + b2n m.ll
  (es.any fun e => x.lWr.any fun w => w.1 == 2 * e + ls && t ≤ w.2 && w.2 < t + occ) ||
  (m.le && (x.lUse.any fun u => u.1 == li && u.2.1 ≤ t + 7 && t + 7 ≤ u.2.2)) ||
  (m.le && es.contains m.leng.toNat && m.ls == m.ll && 7 < occ)

def usesTM (f : TFmt) (m : TM) (t : Nat) (x : Core) : Uses :=
  let es := enginesOf m.emask.toNat
  let a := if es.isEmpty then [] else operandLines f (x.lineAt m.ar.toNat (m.aoff.signExtend 64))
  let b := if m.le then operandLines f (x.lineAt m.br.toNat (m.boff.signExtend 64)) else []
  { bad := m.rsv != 0,
    s := (if es.isEmpty then [] else [m.ar.toNat]) ++ (if m.le then [m.br.toNat] else []),
    lines := a.take 18 ++ b.take 18, lines1 := a.drop 18 ++ b.drop 18,
    other := firstCause
      ((es.map fun e => x.addCause t e (4 * e + m.acc.toNat) m.of) ++
       [if x.latchCause t f m then some Cause'.latch else none]) }

/-! ## tmma and tlb -/

/-- Occupies the engines, and sets the intervals of the accumulators. -/
def Core.occupy (x : Core) (t : Nat) (f : TFmt) (m : TM) : Core :=
  let occ := tmmaCycles f m.of
  (enginesOf m.emask.toNat).foldl (fun x e =>
    let a := 4 * e + m.acc.toNat
    let x := x.keepTile t a
    { x with tBusy := Tbl.set x.tBusy e (t + occ), accNext := Tbl.set x.accNext a (t + 4),
             accReady := Tbl.set x.accReady a (t + occ + 12),
             lUse := (x.lUse.filter fun (u : Nat × Nat × Nat) => t ≤ u.2.2) ++ [(2 * e + b2n m.ls, t, t + occ - 1)] }) x

def tmma (c : Nat) (g : Guard) (f : TFmt) (m : TM) (s : State) : State :=
  let t := s.cyc.toNat
  slotS c g (usesTM f m t) (fun s =>
    let x := s.core c
    let es := enginesOf m.emask.toNat
    let s := s.setCore c (x.occupy t f m)
    let s := if es.isEmpty then s else
      let o := (Operand.mk f.code (operandLines f (x.lineAt m.ar.toNat (m.aoff.signExtend 64))) []).read x
      let s := s.count F.CTR_CORE_COUNT (8 * c + 2) es.length
      if o.lines.isEmpty then tmmaApply c m.emask.toNat m.acc.toNat (b2n m.ls) o s
      else s.modCore c fun x => x.later t 1 (.tmmaTail m.emask.toNat m.acc.toNat (b2n m.ls) m.of o)
    if m.le then
      let li := 2 * m.leng.toNat + b2n m.ll
      let o := (Operand.mk f.code (operandLines f (x.lineAt m.br.toNat (m.boff.signExtend 64))) []).read x
      s.modCore c fun x =>
        let x := { x with lWr := (x.lWr.filter fun (w : Nat × Nat) => t ≤ w.2) ++ [(li, t + 7)] }
        if o.lines.isEmpty then x.later t 8 (.latch li o) else x.later t 1 (.tlbTail li o)
    else s) s

def execTmmaF4 (c : Nat) (g : Guard) (f : TM) (s : State) : Out := slotCmd c (tmma c g .f4 f) s
def execTmmaLb4 (c : Nat) (g : Guard) (f : TM) (s : State) : Out := slotCmd c (tmma c g .lb4 f) s
def execTmmaE2m3 (c : Nat) (g : Guard) (f : TM) (s : State) : Out := slotCmd c (tmma c g .e2m3 f) s
def execTmmaE3m2 (c : Nat) (g : Guard) (f : TM) (s : State) : Out := slotCmd c (tmma c g .e3m2 f) s
def execTmmaE4m3 (c : Nat) (g : Guard) (f : TM) (s : State) : Out := slotCmd c (tmma c g .e4m3 f) s
def execTmmaE5m2 (c : Nat) (g : Guard) (f : TM) (s : State) : Out := slotCmd c (tmma c g .e5m2 f) s
def execTmmaBf16 (c : Nat) (g : Guard) (f : TM) (s : State) : Out := slotCmd c (tmma c g .bf16 f) s
def execTmmaF16 (c : Nat) (g : Guard) (f : TM) (s : State) : Out := slotCmd c (tmma c g .f16 f) s

def execTnop (c : Nat) (g : Guard) (f : NoFmt) (s : State) : Out := slotCmd c (nopSlot c g f) s

/-! ## tclr (R311, R312, R349) -/

def usesTC (f : TC) (t : Nat) (x : Core) : Uses :=
  let a := 4 * f.eng.toNat + f.acc.toNat
  { bad := f.rsv != 0, x := if f.mode then [f.x.toNat] else [],
    other := firstCause
      [if Tbl.get x.accReady a 0 = t + 2 || x.collides (t + 2) (Res.toTile a) then some Cause'.collide else none,
       if (f.mode && a % 2 == 1) || x.takenPair a then some Cause'.accmode else none] }

def execTclr (c : Nat) (g : Guard) (f : TC) (s : State) : Out :=
  slotCmd c (slot c g (usesTC f s.cyc.toNat) (fun t x =>
    let a := 4 * f.eng.toNat + f.acc.toNat
    let x := { x with tBusy := Tbl.set x.tBusy f.eng.toNat (Nat.max (Tbl.get x.tBusy f.eng.toNat 0) (t + 1)) }
    x.later t 2 (.tile a f.mode (if f.mode then xEb (x.xreg f.x.toNat) else 0)))) s

/-! ## tadd (R349, R353) -/

/-- One element of the raw layout: N, special state, overflow flag. -/
def rawElem (l : List W32) (q : Nat) : Nat × Nat × Bool :=
  let w := fun i => (l.getD (4 * q + i) 0).toNat
  (w 0 + w 1 * 2 ^ 32 + w 2 % 2 ^ 16 * 2 ^ 64, w 2 / 2 ^ 16 % 4, bit (w 2) 18)

/-- The tile after the 128 elements of a register have been added to its rows 2 × PART and 2 × PART + 1. -/
def Tile.addRaw (x : Tile) (l : List W32) (part : Nat) : Tile :=
  if x.lost then x
  else (upto 128).foldl (fun x q =>
    let i := 128 * part + q
    let (n, sp, o) := rawElem l q
    { x with n := Tbl.put x.n i ((Tbl.get x.n i 0 + n) % 2 ^ 80) 0,
             spec := Tbl.put x.spec i (specAdd (Tbl.get x.spec i 0) sp) 0, ovf := x.ovf || o }) x

def usesTA (f : TA) (t : Nat) (x : Core) : Uses :=
  let a := 4 * f.eng.toNat + f.acc.toNat
  { bad := f.rsv != 0, v := [f.vs.toNat], other := x.addCause t f.eng.toNat a true }

def execTadd (c : Nat) (g : Guard) (f : TA) (s : State) : Out :=
  slotCmd c (slot c g (usesTA f s.cyc.toNat) (fun t x =>
    let e := f.eng.toNat
    let a := 4 * e + f.acc.toNat
    let y := (x.tile a).addRaw (x.vreg f.vs.toNat) f.part.toNat
    let x := x.keepTile t a
    { x.setTile a y with tBusy := Tbl.set x.tBusy e (t + 1), accNext := Tbl.set x.accNext a (t + 4),
                         accReady := Tbl.set x.accReady a (t + 13) })) s

end Sys2Proof.Machine
end

