-- ==== Sys2Proof/Machine/SlotV.lean ====
section
/-! DEFINITION. The V slot: vector arithmetic, loads and stores, read-out of accumulators, conversions and
block-scaled formats (R313, R351 to R355). -/

namespace Sys2Proof.Machine

/-! ## Issue on a vector engine -/

def vEngine (e : Bool) : Nat := b2n e

/-- A V slot that names an engine in the second cycle of a two-cycle instruction is a reserved encoding (R352). -/
def Core.vBusyNow (x : Core) (t : Nat) (e : Bool) : Bool := t < Tbl.get x.vBusy (vEngine e) 0

/-- Occupies engine `e` for `n` cycles. -/
def Core.vTake (x : Core) (t : Nat) (e : Bool) (n : Nat) : Core :=
  { x with vBusy := Tbl.set x.vBusy (vEngine e) (t + n) }

/-- Counts an executed V instruction (R507). -/
def countV (c : Nat) (s : State) : State := s.count F.CTR_CORE_COUNT (8 * c + 3)

/-- A V instruction: `n` cycles on its engine, then its effect. -/
def vslot (c : Nat) (g : Guard) (e : Bool) (n : Nat) (u : Core → Uses) (eff : Nat → Core → State → State)
    (s : State) : State :=
  let t := s.cyc.toNat
  slotS c g (fun x => let y := u x; { y with bad := y.bad || x.vBusyNow t e })
    (fun s => eff t (s.core c) ((countV c s).modCore c fun x => x.vTake t e n)) s

/-- A result in a v register. -/
def laterV (c t lat d : Nat) (l : List W32) (s : State) : State := s.modCore c fun x => x.later t lat (.v d l)

/-- A register pair holds an odd register number. -/
def odd (r : BitVec 6) : Bool := r.getLsbD 0

def pairOf (r : BitVec 6) : List Nat := [r.toNat, r.toNat + 1]

def Core.pair (x : Core) (r : BitVec 6) : List W32 := x.vreg r.toNat ++ x.vreg (r.toNat + 1)

/-- A result in a register pair. -/
def laterPair (c t lat : Nat) (d : BitVec 6) (l : List W32) (s : State) : State :=
  laterV c t lat (d.toNat + 1) (l.drop 512) (laterV c t lat d.toNat (l.take 512) s)

def w32 (n : Nat) : W32 := BitVec.ofNat 32 n

/-! ## Arithmetic on pairs -/

/-- Lane-wise operation of one, two or three sources, all pairs, two cycles. -/
def vOp1 (c : Nat) (g : Guard) (f : VR) (lat : Nat) (op : Nat → Nat) (s : State) : State :=
  vslot c g f.e 2
    (fun _ => { bad := f.rsv != 0 || odd f.d || odd f.a, v := pairOf f.a,
                wv := (pairOf f.d).map fun r => (r, lat) })
    (fun t x => laterPair c t lat f.d ((x.pair f.a).map fun a => w32 (op a.toNat))) s

def usesV2 (f : VR) (lat : Nat) : Uses :=
  { bad := f.rsv != 0 || odd f.d || odd f.a || odd f.b, v := pairOf f.a ++ pairOf f.b,
    wv := (pairOf f.d).map fun r => (r, lat) }

def vOp2 (c : Nat) (g : Guard) (f : VR) (lat : Nat) (op : Nat → Nat → Nat) (s : State) : State :=
  vslot c g f.e 2 (fun _ => usesV2 f lat)
    (fun t x => laterPair c t lat f.d
      ((x.pair f.a).zipWith (fun a b => w32 (op a.toNat b.toNat)) (x.pair f.b))) s

def usesV3 (f : VR) (lat : Nat) : Uses :=
  let u := usesV2 f lat
  { u with bad := u.bad || odd f.c, v := u.v ++ pairOf f.c }

def vOp3 (c : Nat) (g : Guard) (f : VR) (lat : Nat) (op : Nat → Nat → Nat → Nat) (s : State) : State :=
  vslot c g f.e 2 (fun _ => usesV3 f lat)
    (fun t x => laterPair c t lat f.d
      (((x.pair f.a).zip (x.pair f.b)).zipWith (fun a b => w32 (op a.1.toNat a.2.toNat b.toNat)) (x.pair f.c))) s

def execVaddF32 (c : Nat) (g : Guard) (f : VR) (s : State) : Out := slotCmd c (vOp2 c g f 6 add32) s
def execVsubF32 (c : Nat) (g : Guard) (f : VR) (s : State) : Out := slotCmd c (vOp2 c g f 6 sub32) s
def execVmulF32 (c : Nat) (g : Guard) (f : VR) (s : State) : Out := slotCmd c (vOp2 c g f 6 mul32) s
def execVfmaF32 (c : Nat) (g : Guard) (f : VR) (s : State) : Out := slotCmd c (vOp3 c g f 6 fma32) s
def execVmaxF32 (c : Nat) (g : Guard) (f : VR) (s : State) : Out := slotCmd c (vOp2 c g f 6 max32) s
def execVminF32 (c : Nat) (g : Guard) (f : VR) (s : State) : Out := slotCmd c (vOp2 c g f 6 min32) s

/-- A BF16 operation on both halves of a lane, each rounded once. -/
def onHalves (op : Nat → Nat → Nat → Nat) (a b c : Nat) : Nat :=
  op (a % 2 ^ 16) (b % 2 ^ 16) (c % 2 ^ 16) + op (a / 2 ^ 16) (b / 2 ^ 16) (c / 2 ^ 16) * 2 ^ 16

def bnum (n : Nat) : Num := bf16.decode n
def addBf (a b _c : Nat) : Nat := bf16.encode .ne ((bnum a).add (bnum b))
def mulBf (a b _c : Nat) : Nat := bf16.encode .ne ((bnum a).mul (bnum b))
def fmaBf (a b c : Nat) : Nat := bf16.encode .ne (((bnum a).mul (bnum b)).add (bnum c))

def execVaddBf16 (c : Nat) (g : Guard) (f : VR) (s : State) : Out :=
  slotCmd c (vOp2 c g f 6 fun a b => onHalves addBf a b 0) s
def execVmulBf16 (c : Nat) (g : Guard) (f : VR) (s : State) : Out :=
  slotCmd c (vOp2 c g f 6 fun a b => onHalves mulBf a b 0) s
def execVfmaBf16 (c : Nat) (g : Guard) (f : VR) (s : State) : Out := slotCmd c (vOp3 c g f 6 (onHalves fmaBf)) s

def execVsqrtF32 (c : Nat) (g : Guard) (f : VR) (s : State) : Out := slotCmd c (vOp1 c g f 14 sqrt32) s
def execVrcpF32 (c : Nat) (g : Guard) (f : VR) (s : State) : Out := slotCmd c (vOp1 c g f 14 rcp32) s
def execVrsqrtF32 (c : Nat) (g : Guard) (f : VR) (s : State) : Out := slotCmd c (vOp1 c g f 14 rsqrt32) s

def execVaddI32 (c : Nat) (g : Guard) (f : VR) (s : State) : Out :=
  slotCmd c (vOp2 c g f 4 fun a b => (w32 a + w32 b).toNat) s
def execVsubI32 (c : Nat) (g : Guard) (f : VR) (s : State) : Out :=
  slotCmd c (vOp2 c g f 4 fun a b => (w32 a - w32 b).toNat) s
def execVand (c : Nat) (g : Guard) (f : VR) (s : State) : Out := slotCmd c (vOp2 c g f 4 (· &&& ·)) s
def execVor (c : Nat) (g : Guard) (f : VR) (s : State) : Out := slotCmd c (vOp2 c g f 4 (· ||| ·)) s
def execVxor (c : Nat) (g : Guard) (f : VR) (s : State) : Out := slotCmd c (vOp2 c g f 4 (· ^^^ ·)) s
def execVshlI32 (c : Nat) (g : Guard) (f : VR) (s : State) : Out :=
  slotCmd c (vOp2 c g f 4 fun a b => (w32 a <<< (b % 32)).toNat) s
def execVshrI32 (c : Nat) (g : Guard) (f : VR) (s : State) : Out :=
  slotCmd c (vOp2 c g f 4 fun a b => (w32 a >>> (b % 32)).toNat) s
def execVsraI32 (c : Nat) (g : Guard) (f : VR) (s : State) : Out :=
  slotCmd c (vOp2 c g f 4 fun a b => ((w32 a).sshiftRight (b % 32)).toNat) s

def execVnop (c : Nat) (g : Guard) (f : NoFmt) (s : State) : Out := slotCmd c (nopSlot c g f) s

/-! ## Loads and stores: format VM -/

/-- The consecutive lines an instruction accesses, modulo 2^64. -/
def lineRun (l n : Nat) : List Nat := (upto n).map fun i => (l + i) % 2 ^ 64

def vmLines (f : VM) (x : Core) (n : Nat) : List Nat :=
  lineRun (x.lineAt f.ar.toNat (f.loff.zeroExtend 64)) n

def vmCount (f : VM) : Nat := f.nm1.toNat + 1

def vmBad (f : VM) : Bool := f.rsv != 0 || 31 < f.g.toNat + f.nm1.toNat

/-- For xld and xst, bits [5:4] of D must be 0. -/
def vmBadX (f : VM) : Bool := vmBad f || 15 < f.d.toNat

def execVld (c : Nat) (g : Guard) (f : VM) (s : State) : Out :=
  slotCmd c (vslot c g f.e 1
    (fun x => { bad := vmBad f, s := [f.ar.toNat], wv := [(f.d.toNat, 6)], lines := vmLines f x (vmCount f) })
    (fun t x s => s.modCore c fun y =>
      y.later t 6 (.vGroups f.d.toNat (16 * f.g.toNat)
        ((vmLines f x (vmCount f)).flatMap fun l => wordsOf 16 (x.line l))))) s

def execVst (c : Nat) (g : Guard) (f : VM) (s : State) : Out :=
  slotCmd c (vslot c g f.e 1
    (fun x => { bad := vmBad f, s := [f.ar.toNat], v := [f.d.toNat], lines := vmLines f x (vmCount f) })
    (fun _ x s => s.modCore c fun y =>
      y.setLines (x.lineAt f.ar.toNat (f.loff.zeroExtend 64))
        ((upto (vmCount f)).map fun i => laneBytes (laneGroup (x.vreg f.d.toNat) (f.g.toNat + i))))) s

def execXld (c : Nat) (g : Guard) (f : VM) (s : State) : Out :=
  slotCmd c (vslot c g f.e 1
    (fun x => { bad := vmBadX f, s := [f.ar.toNat], wx := [(f.d.toNat, 6)], lines := vmLines f x 1 })
    (fun t x s => s.modCore c fun y =>
      y.later t 6 (.x f.d.toNat
        (BitVec.ofNat 320 (leVal ((x.line (x.lineAt f.ar.toNat (f.loff.zeroExtend 64))).take 38)))))) s

def execXst (c : Nat) (g : Guard) (f : VM) (s : State) : Out :=
  slotCmd c (vslot c g f.e 1
    (fun x => { bad := vmBadX f, s := [f.ar.toNat], x := [f.d.toNat], lines := vmLines f x 1 })
    (fun _ x s => s.modCore c fun y =>
      y.setLine (x.lineAt f.ar.toNat (f.loff.zeroExtend 64)) (leBytes 64 (x.xreg f.d.toNat)))) s

/-! ## Format VS -/

def execXset (c : Nat) (g : Guard) (f : VS) (s : State) : Out :=
  slotCmd c (vslot c g f.e 1
    (fun _ => { bad := f.rsv != 0 || 1 < f.field.toNat, s := [f.s.toNat], wx := [(f.xd.toNat, 2)] })
    (fun t x s => s.modCore c fun y =>
      let v := x.sreg f.s.toNat
      y.later t 2 (if f.field = 0 then .xTscale f.xd.toNat (v.truncate 32) else .xEb f.xd.toNat (v.truncate 16)))) s

def execVbcast (c : Nat) (g : Guard) (f : VS) (s : State) : Out :=
  slotCmd c (vslot c g f.e 1
    (fun _ => { bad := f.rsv != 0, s := [f.s.toNat], wv := [(f.v.toNat, 2)] })
    (fun t x => laterV c t 2 f.v.toNat (List.replicate 512 ((x.sreg f.s.toNat).truncate 32)))) s

def execVmovs (c : Nat) (g : Guard) (f : VS) (s : State) : Out :=
  slotCmd c (vslot c g f.e 1
    (fun _ => { bad := f.rsv != 0 || f.lane.getLsbD 0 || f.lane.getLsbD 9, v := [f.v.toNat],
                ws := [(f.s.toNat, 3)] })
    (fun t x s => s.modCore c fun y =>
      let l := x.vreg f.v.toNat
      y.putS t 3 f.s.toNat (l.getD (f.lane.toNat + 1) 0 ++ l.getD f.lane.toNat 0 : W64))) s

/-! ## Read-out of accumulators (R312, R353) -/

/-- The number an order-free element stands for. DESIGN CHOICE, log entry 26: unsafe. -/
def Tile.freeNum (x : Tile) (i : Nat) : Num :=
  match Tbl.get x.spec i 0 with
  | 1 => .inf false
  | 2 => .inf true
  | 3 => .nan
  | _ =>
    let v := (BitVec.ofNat 80 (Tbl.get x.n i 0)).toInt
    .fin (decide (v < 0)) v.natAbs x.eb

/-- An element as vtrd gives it; a special value stands whatever TSCALE is. -/
def Tile.readOut (x : Tile) (i : Nat) (ts : Option Num) : Nat :=
  let v := if x.free then x.freeNum i else num32 (Tbl.get x.n i 0)
  match ts with
  | none => to32 v
  | some k =>
    if x.free && specOf v != 0 then to32 v
    else if x.free && v.isZero && !k.isNan && specOf k = 0 then 0
    else to32 (v.mul k)

/-- Element `i` of a tile as vtrd gives it; of a tile whose storage its order-free partner took nothing is known. -/
def Tile.outLane (x : Tile) (i : Nat) (ts : Option Num) : W32 :=
  if x.lost then Config.lostElement x.n i else w32 (x.readOut i ts)

def execVtrd (c : Nat) (g : Guard) (f : VR) (s : State) : Out :=
  let a := f.a.toNat % 16
  slotCmd c (vslot c g f.e 1
    (fun x => { bad := f.rsv != 0 || 7 < f.part.toNat, acc := [a], x := if f.f then [f.x.toNat] else [],
                wv := [(f.d.toNat, 6)], other := if x.takenPair a then some Cause'.accmode else none })
    (fun t x =>
      let ts := if f.f then some (num32 (xTscale (x.xreg f.x.toNat))) else none
      laterV c t 6 f.d.toNat ((upto 512).map fun i => (x.tileAt t a).outLane (512 * f.part.toNat + i) ts))) s

/-- The four lanes of one element in the raw layout. -/
def Tile.raw (x : Tile) (i : Nat) : List W32 :=
  let n := Tbl.get x.n i 0
  [w32 n, w32 (n / 2 ^ 32), w32 (n / 2 ^ 64 % 2 ^ 16 + Tbl.get x.spec i 0 * 2 ^ 16 + b2n x.ovf * 2 ^ 18), 0]

def execVtrdRaw (c : Nat) (g : Guard) (f : VR) (s : State) : Out :=
  let a := f.a.toNat % 16
  slotCmd c (vslot c g f.e 1
    (fun x => { bad := f.rsv != 0, acc := [a], wv := [(f.d.toNat, 6)],
                other := if !(x.tile a).free || x.takenPair a then some Cause'.accmode else none })
    (fun t x => laterV c t 6 f.d.toNat
      ((upto 128).flatMap fun q => (x.tileAt t a).raw (128 * f.part.toNat + q)))) s

/-! ## Conversions (R352, R353, R355) -/

/-- Widens 1,024 16-bit elements of one register into a pair. -/
def widen (c : Nat) (g : Guard) (f : VR) (m : Fmt) (s : State) : State :=
  vslot c g f.e 2
    (fun _ => { bad := f.rsv != 0 || odd f.d, v := [f.a.toNat], wv := (pairOf f.d).map fun r => (r, 8) })
    (fun t x => laterPair c t 8 f.d ((halves (x.vreg f.a.toNat)).map fun h => w32 (to32 (m.decode h)))) s

def execVcvtF32Bf16 (c : Nat) (g : Guard) (f : VR) (s : State) : Out := slotCmd c (widen c g f bf16) s
def execVcvtF32F16 (c : Nat) (g : Guard) (f : VR) (s : State) : Out := slotCmd c (widen c g f f16) s

/-- How element `k` is rounded: to nearest even, or by Fennel keyed by the program (R355). -/
def Core.rounding (x : Core) (f : VR) (k : Nat) : Rnd :=
  if f.f then
    let r := x.sreg f.sr.toNat
    .sr (fennel x.seed.toNat x.step.toNat (r.toNat / 2 ^ 32) ((r.toNat % 2 ^ 32 + k) % 2 ^ 32))
  else .ne

/-- Narrows a pair into one register of 16-bit elements. -/
def narrow (c : Nat) (g : Guard) (f : VR) (m : Fmt) (s : State) : State :=
  vslot c g f.e 2
    (fun _ => { bad := f.rsv != 0 || odd f.a, v := pairOf f.a, s := if f.f then [f.sr.toNat] else [],
                wv := [(f.d.toNat, 8)] })
    (fun t x => laterV c t 8 f.d.toNat
      (joinHalves (((x.pair f.a).zipIdx).map fun a => m.encode (x.rounding f a.2) (num32 a.1.toNat)))) s

def execVpkBf16 (c : Nat) (g : Guard) (f : VR) (s : State) : Out := slotCmd c (narrow c g f bf16) s
def execVpkF16 (c : Nat) (g : Guard) (f : VR) (s : State) : Out := slotCmd c (narrow c g f f16) s
def execVcvtF32I32 (c : Nat) (g : Guard) (f : VR) (s : State) : Out := slotCmd c (vOp1 c g f 6 i32ToF32) s
def execVcvtI32F32 (c : Nat) (g : Guard) (f : VR) (s : State) : Out := slotCmd c (vOp1 c g f 6 f32ToI32) s

/-! ## Block-scaled formats (R354) -/

/-- emax of an MX element format. -/
def TFmt.emax : TFmt → Nat
  | .f4 | .lb4 | .e2m3 => 2
  | .e3m2 => 4
  | .e4m3 => 8
  | _ => 15

/-- The UE5M3 code of a positive E4M3 value given by its code. -/
def ue5m3OfE4m3 (n : Nat) : Nat :=
  if 8 ≤ n then n + 64
  else
    let k := Nat.log2 n
    8 * (k + 6) + n * 2 ^ (3 - k) - 8

/-- The LB4 scale of a block of 16 lanes (R354): the byte 0x7F for a block that has none, else the value as the UE5M3
byte that the SCALE field holds (R315, R317). DEDUCED, log entry 27: unsafe. -/
def lb4Scale (tscale : Nat) (block : List Num) : Nat :=
  let e := tscale / 2 ^ 23
  let normal := tscale < 2 ^ 31 && 1 ≤ e && e ≤ 254
  if !normal || block.any (fun v => specOf v != 0) then 0x7F
  else
    let amax := block.foldl (fun a v => match v with
      | .fin _ m e => Num.max a (.fin false m e)
      | _ => a) (.fin false 0 0)
    if amax.isZero then 0
    else
      let six := (Num.fin false 6 0).mul (num32 tscale)
      let fits := (upto 127).find? fun n => 0 < n && !Num.lt ((e4m3.decode n).mul six) amax
      ue5m3OfE4m3 (fits.getD 0x7E)

/-- The scales of 512 lanes, and how many there are. DEDUCED, log entry 27: unsafe. -/
def laneScales (f : TFmt) (tscale : Nat) (l : List W32) : List Nat :=
  let v := l.map fun w => num32 w.toNat
  match f with
  | .lb4 => (upto 32).map fun j => lb4Scale tscale ((v.drop (16 * j)).take 16)
  | f => (upto 16).map fun j => mxScale f.emax ((v.drop (32 * j)).take 32)

/-- DEDUCED, log entry 27: unsafe. DESIGN CHOICE, log entry 28: unsafe. -/
def vqscale (c : Nat) (g : Guard) (f : VR) (m : TFmt) (s : State) : State :=
  vslot c g f.e 1
    (fun _ => { bad := f.rsv != 0, v := [f.a.toNat], x := if m = .lb4 then [f.x.toNat] else [],
                wx := [(f.x.toNat, 6)] })
    (fun t x s => s.modCore c fun y =>
      let l := laneScales m (xTscale (x.xreg f.x.toNat)) (x.vreg f.a.toNat)
      y.later t 6 (.xScale f.x.toNat l.length (leVal (packElems 8 l.length l)))) s

def execVqscaleF4 (c : Nat) (g : Guard) (f : VR) (s : State) : Out := slotCmd c (vqscale c g f .f4) s
def execVqscaleLb4 (c : Nat) (g : Guard) (f : VR) (s : State) : Out := slotCmd c (vqscale c g f .lb4) s
def execVqscaleE2m3 (c : Nat) (g : Guard) (f : VR) (s : State) : Out := slotCmd c (vqscale c g f .e2m3) s
def execVqscaleE3m2 (c : Nat) (g : Guard) (f : VR) (s : State) : Out := slotCmd c (vqscale c g f .e3m2) s
def execVqscaleE4m3 (c : Nat) (g : Guard) (f : VR) (s : State) : Out := slotCmd c (vqscale c g f .e4m3) s
def execVqscaleE5m2 (c : Nat) (g : Guard) (f : VR) (s : State) : Out := slotCmd c (vqscale c g f .e5m2) s

/-- The scale of lane `k`, none for NaN; the tensor scale of LB4 included. -/
def laneScale (f : TFmt) (xr k : Nat) : Option Num :=
  match f with
  | .lb4 => (ue5m3 (xScaleByte xr (k / 16))).map fun v => v.mul (num32 (xTscale xr))
  | f => scaleNum f (xScaleByte xr (k / 32))

/-- The element code of a lane, none where the spec states no result: a lane that is NaN, a tensor scale that is
not finite, or a value other than 0 divided by 0. DESIGN CHOICE, log entry 26: unsafe. -/
def packLane (f : TFmt) (rm : Rnd) (scale : Option Num) (v : Num) : Option Nat :=
  match scale, v with
  | none, _ => some 0
  | some (.fin ss sm se), .fin s m e =>
    if m = 0 then some (b2n (s != ss) * f.elem.signBit)
    else if sm = 0 then none
    else some (f.elem.satRat rm (s != ss) m sm (e - se)).1
  | some (.fin ss _ _), .inf s => some (b2n (s != ss) * f.elem.signBit + f.elem.maxMag)
  | _, _ => none

/-- DESIGN CHOICE, log entry 26: unsafe. -/
def vpack (c : Nat) (g : Guard) (f : VR) (m : TFmt) (s : State) : State :=
  vslot c g f.e 1
    (fun _ => { bad := f.rsv != 0 || 2048 < 512 * f.part.toNat + 64 * m.width, v := [f.a.toNat],
                x := [f.x.toNat], s := if f.f then [f.sr.toNat] else [], wv := [(f.d.toNat, 6)] })
    (fun t x s =>
      let xr := x.xreg f.x.toNat
      let l := ((x.vreg f.a.toNat).zipIdx).map fun a =>
        (packLane m (x.rounding f a.2) (laneScale m xr a.2) (num32 a.1.toNat)).getD
          ((Config.openLane m.code xr a.1 a.2).toNat % 2 ^ m.width)
      s.modCore c fun y =>
        y.later t 6 (.vBytes f.d.toNat (512 * f.part.toNat) (packElems m.width (64 * m.width) l))) s

def execVpackF4 (c : Nat) (g : Guard) (f : VR) (s : State) : Out := slotCmd c (vpack c g f .f4) s
def execVpackLb4 (c : Nat) (g : Guard) (f : VR) (s : State) : Out := slotCmd c (vpack c g f .lb4) s
def execVpackE2m3 (c : Nat) (g : Guard) (f : VR) (s : State) : Out := slotCmd c (vpack c g f .e2m3) s
def execVpackE3m2 (c : Nat) (g : Guard) (f : VR) (s : State) : Out := slotCmd c (vpack c g f .e3m2) s
def execVpackE4m3 (c : Nat) (g : Guard) (f : VR) (s : State) : Out := slotCmd c (vpack c g f .e4m3) s
def execVpackE5m2 (c : Nat) (g : Guard) (f : VR) (s : State) : Out := slotCmd c (vpack c g f .e5m2) s

def vunpk (c : Nat) (g : Guard) (f : VR) (m : TFmt) (s : State) : State :=
  vslot c g f.e 1
    (fun _ => { bad := f.rsv != 0 || 2048 < 512 * f.part.toNat + 64 * m.width, v := [f.a.toNat],
                x := [f.x.toNat], wv := [(f.d.toNat, 6)] })
    (fun t x =>
      let xr := x.xreg f.x.toNat
      let bytes := (laneBytes (x.vreg f.a.toNat)).drop (512 * f.part.toNat)
      laterV c t 6 f.d.toNat ((upto 512).map fun k =>
        match laneScale m xr k with
        | none => w32 f32.qnan
        | some sc => w32 (to32 ((m.elem.decode (packedElem m.width bytes k)).mul sc)))) s

def execVunpkF4 (c : Nat) (g : Guard) (f : VR) (s : State) : Out := slotCmd c (vunpk c g f .f4) s
def execVunpkLb4 (c : Nat) (g : Guard) (f : VR) (s : State) : Out := slotCmd c (vunpk c g f .lb4) s
def execVunpkE2m3 (c : Nat) (g : Guard) (f : VR) (s : State) : Out := slotCmd c (vunpk c g f .e2m3) s
def execVunpkE3m2 (c : Nat) (g : Guard) (f : VR) (s : State) : Out := slotCmd c (vunpk c g f .e3m2) s
def execVunpkE4m3 (c : Nat) (g : Guard) (f : VR) (s : State) : Out := slotCmd c (vunpk c g f .e4m3) s
def execVunpkE5m2 (c : Nat) (g : Guard) (f : VR) (s : State) : Out := slotCmd c (vunpk c g f .e5m2) s

end Sys2Proof.Machine
end

