-- ==== Sys2Proof/Machine/MoveOps.lean ====
section
/-! DEFINITION. The move engine: the slot table (R253, R257), the requests of transfers (R258, R359),
Static posts and their landings (R254, R322, R358). -/

namespace Sys2Proof.Machine

/-! ## The slot table (R253, R257) -/

/-- KIND, DIR and CORE of an entry. -/
structure SlotEntry where
  kind : Nat
  dir : Nat
  core : Nat
  deriving DecidableEq, Repr

/-- The reset table of R257. -/
def resetSlot (e : Nat) : SlotEntry :=
  let b := e / 160
  let r := e % 160
  if r < 16 then ⟨1, 0, 0⟩
  else
    let g := (r - 16) / 9
    let n := (r - 16) % 9
    if n < 8 then ⟨0, g % 2, 8 * (g / 2 % 4) + n⟩
    else if b = 0 ∧ g = 15 then ⟨3, 0, 0⟩ else ⟨2, 0, 0⟩

/-- The word of POL_SLOT. -/
def SlotEntry.word (e : SlotEntry) : Nat := e.kind + 8 * e.dir + 16 * e.core

def slotWord (s : State) (e : Nat) : Nat := Tbl.get s.pool.slots e (resetSlot e).word

def slotEntry (s : State) (e : Nat) : SlotEntry :=
  let w := slotWord s e
  ⟨w % 8, w / 8 % 2, w / 16 % 32⟩

/-- Compute cycles of one pass of the table. -/
def passCycles : Nat := 23040

/-! ## Static posts (R254, R322, R358) -/

/-- The start cycle, address and length of a static post. -/
def MoveOp.post? : MoveOp → Option (Nat × Nat × Nat)
  | .postRead s va _ n => some (s, va, n)
  | .postWrite s va d => some (s, va, d.length)
  | _ => none

/-- The pseudo-channel of a block, PA[16:8] (R234). -/
def pseudoChannel (pa : Nat) : Nat := pa / 256 % 512

/-- The pseudo-channels of the accesses of a post. -/
def postChannels (s : State) (k va n : Nat) : List Nat :=
  (upto n).filterMap fun i => (physAddr s k ((va + 64 * i) % 2 ^ 64)).map pseudoChannel

/-- The pseudo-channels of every access that a core has posted to the entry that starts at `start`. -/
def entryChannels (s : State) (k : Nat) (x : Core) (start : Nat) : List Nat :=
  x.moves.flatMap fun m => match m.op.post? with
    | some (st, va, n) => if st = start then postChannels s k va n else []
    | none => []

/-- Whether a static-slot refusal meets a post issued in cycle `t` (R358). -/
def postRefused (s : State) (c k : Nat) (x : Core) (t entry start va n : Nat) : Bool :=
  let e := slotEntry s entry
  let ch := entryChannels s k x start ++ postChannels s k va n
  start < t + 36 || 1280 ≤ entry || e.kind != 0 || e.core != c ||
    ch.any fun p => 5 < (ch.filter (· == p)).length

/-- The landing lines of a core in cycle `t`: transfer, place in the transfer, scratchpad line.  Access n of the N
posted to a read entry lands in cycle 216 − floor((N − 1 − n) / 16) after the entry starts. -/
def staticLandings (x : Core) (t : Nat) : List (Nat × Nat × Nat) :=
  let posts := x.moves.filterMap fun m => match m.op with
    | .postRead st _ line n => some (m.id, st, line, n)
    | _ => none
  let starts := (posts.map fun p => p.2.1).eraseDups
  starts.flatMap fun st =>
    let all := (posts.filter fun p => p.2.1 == st).flatMap fun p =>
      (upto p.2.2.2).map fun i => (p.1, i, p.2.2.1 + i)
    let n := all.length
    (all.zipIdx).filterMap fun a => if st + 216 - (n - 1 - a.2) / 16 = t then some a.1 else none

/-! ## Requests of transfers (R258, R359) -/

/-- Bytes a transfer asks for, each line 64 and an atomic, a whistle add or a post 1. -/
def MoveOp.total : MoveOp → Nat
  | .load _ _ n _ => 64 * n
  | .store _ _ n _ _ => 64 * n
  | .atom _ _ _ _ _ _ => 1
  | .whs _ _ _ => 1
  | .post _ _ => 1
  | _ => 0

/-- Bytes the move engine moves (R507). -/
def MoveOp.bytes : MoveOp → Nat
  | .load _ _ n _ => 64 * n
  | .store _ _ n _ _ => 64 * n
  | .atom _ _ _ _ _ _ => 8
  | .postRead _ _ _ n => 64 * n
  | .postWrite _ _ d => 64 * d.length
  | _ => 0

/-- The rank of a remote transfer. -/
def MoveOp.rank : MoveOp → Option Nat
  | .load _ _ _ r => r
  | .store _ _ _ r _ => r
  | .atom _ _ _ _ r _ => r
  | .whs _ _ r => r
  | _ => none

/-- Requests of a core without an answer: those of transfers and of remote whistle adds, but not of posts (R258). -/
def Core.requests (x : Core) : Nat := x.moves.foldl (fun n m => n + match m.op with | .post _ _ => 0 | _ => m.outst) 0

def findMove (s : State) (c id : Nat) : Option Move := (s.core c).moves.find? fun m => m.id == id

/-- The atomic operation of an AOP code. -/
def atomOp (aop : Nat) (opd cmp : Nat) : PoolOp :=
  match aop with
  | 0 => .faddI32 (BitVec.ofNat 32 opd)
  | 1 => .faddI64 (BitVec.ofNat 64 opd)
  | 2 => .faddF32 (BitVec.ofNat 32 opd)
  | _ => .cas (BitVec.ofNat 64 cmp) (BitVec.ofNat 64 opd)

/-- Puts one local request before the pool; a failing check fails the program. -/
def localRequest (c k id va : Nat) (op : PoolOp) (sent : Nat) (s : State) : State :=
  match poolCheck s k va op false with
  | some code => failMove c id code (walkRaise k va op s)
  | none =>
    modMove c id (fun m => { m with started := true, sent := m.sent + sent, outst := m.outst + 1 })
      (newAcc { id := 0, k := k, va := va, op := op, asker := .core c id } s)

/-- Starts what a local transfer may start; `n` bounds the requests. -/
def startLocal (c k id : Nat) : Nat → State → State
  | 0, s => s
  | n + 1, s =>
    match findMove s c id with
    | none => s
    | some m =>
      if m.op.total ≤ m.sent ∨ 8192 ≤ (s.core c).requests then s
      else match m.op with
        | .load va _ _ none =>
          startLocal c k id n (localRequest c k id ((va + m.sent) % 2 ^ 64) (.read 64) 64 s)
        | .store va line _ none _ =>
          let d := (s.core c).line (line + m.sent / 64)
          startLocal c k id n (localRequest c k id ((va + m.sent) % 2 ^ 64) (.write d) 64 s)
        | .atom va aop opd cmp none _ =>
          startLocal c k id n (localRequest c k id va (atomOp aop opd.toNat cmp.toNat) 1 s)
        | _ => s

/-- The value of a whistle that the bundles of this cycle see: that before the cores' own adds of this cycle (R360). -/
def seenWhistle (s : State) (k w : Nat) : W64 :=
  match s.isl.adds.find? fun a => a.1 == k && a.2.1 == w && a.2.2.1 == s.cyc.toNat with
  | some a => a.2.2.2
  | none => s.whistle k w

/-- A core's add to a whistle of its kennel: this cycle's bundles go on seeing the value before it (R360). -/
def coreAdd (k w : Nat) (v : W64) (s : State) : State :=
  let t := s.cyc.toNat
  let now := s.isl.adds.filter fun a => a.2.2.1 == t
  let kept := if now.any fun a => a.1 == k && a.2.1 == w then now else now ++ [(k, w, t, s.whistle k w)]
  whAdd k w v { s with isl := { s.isl with adds := kept } }

/-- Applies a whistle add or a post, which need no request. -/
def startAtOnce (c k id : Nat) (s : State) : State :=
  match findMove s c id, coreProg s c with
  | some m, some p =>
    match m.op with
    | .whs w v none =>
      modMove c id (fun m => { m with started := true, sent := 1 }) (coreAdd k w v s)
    | .post a b =>
      let cmd := findCmd s p.k p.q p.seq
      let h : Held := { record := recordBytes 0 ((cmd.map (·.opc)).getD 0x06) p.q p.seq a.toNat b.toNat 0,
                        quietDrop := false, add := none, move := some (c, id) }
      postRecord k h (modMove c id (fun m => { m with started := true, sent := 1, outst := 1 }) s)
    | _ => s
  | _, _ => s

/-- An unstarted completion record of a core. -/
def Move.isPost (m : Move) : Bool :=
  match m.op with
  | .post _ _ => !m.started
  | _ => false

/-- Starts transfers in issue order: one starts only when every earlier one has started (R359).  A posted record is no
transfer and waits for none, so records are written by cycle of issue and then by core (R361).
DEDUCED, log entry 86: unsafe. -/
def startMoves (c k : Nat) (s : State) : State :=
  let go := (s.core c).moves.foldl (fun (a : Bool × State) m =>
    if m.isPost then (a.1, startAtOnce c k m.id a.2)
    else if !a.1 || (m.op.post?).isSome then a
    else
      let s := startLocal c k m.id 8193 (if m.started then a.2 else startAtOnce c k m.id a.2)
      (match findMove s c m.id with
        | some m => m.started
        | none => true, s)) (true, s)
  go.2

/-- Every request of a transfer has been made and answered; a Static post is complete 217 cycles after its entry
starts. -/
def Move.done (m : Move) (cyc : Nat) : Bool :=
  match m.op.post? with
  | some (st, _, _) => m.served && m.data.isEmpty && st + 217 ≤ cyc
  | none => m.started && m.op.total ≤ m.sent && m.outst == 0

end Sys2Proof.Machine
end

