-- ==== Sys2Proof/Machine/Pools.lean ====
section
/-! DEFINITION. The pool's commands: served accesses, mirror timeouts, patrol scrub, the Static slot table, translation
invalidation and mode changes (R235, R238, R241 to R257, R495). -/

namespace Sys2Proof.Machine

/-! ## Answers -/

def dropAcc (id : Nat) (s : State) : State :=
  { s with pool := { s.pool with accs := s.pool.accs.filter fun x => x.id != id } }

/-- An access that cannot be served: its asker fails with the code (R241). -/
def failAcc (a : PoolAcc) (code : Nat) (s : State) : State :=
  let s := dropAcc a.id s
  match a.asker with
  | .fabric pkt _ => sendErr pkt code s
  | .cmd k q seq _ => failCmd k q seq code (modCmd k q seq (fun c => { c with outst := c.outst - 1 }) s)
  | .retr id _ => failColl id code s
  | .core c id => failMove c id code s
  | .resync _ => resyncFail a.k (a.va / 2 ^ 21) s
  | .unit => s

/-! ## The memory's part of an access (R246, R248) -/

/-- The new bytes of an atomic whose old value is `old`, none when CAS64 does not store (R248). -/
def atomicNew (op : PoolOp) (old : Nat) : Option (List Byte) :=
  match op with
  | .faddI32 v => some (leBytes 4 ((old + v.toNat) % 2 ^ 32))
  | .faddI64 v => some (leBytes 8 ((old + v.toNat) % 2 ^ 64))
  | .faddF32 v => some (leBytes 4 (add32 old v.toNat))
  | .cas cmp swp => if old = cmp.toNat then some (leBytes 8 swp.toNat) else none
  | _ => none

/-- The Scent record of a write or an atomic of the fabric (R389). -/
def scentAccess (a : PoolAcc) (s : State) : State :=
  match a.asker with
  | .fabric p port =>
    let n := if a.op.isAtomic then a.op.len else 16 * p.len.toNat
    scentLog a.k 2 0 port 0 (p.src.toNat + p.win.toNat * 2 ^ 16 + p.psn.toNat * 2 ^ 32)
      (leBytes 8 p.addr.toNat ++ leBytes 8 n) (some p.payload) s
  | _ => s

/-- Bytes of a store stand in memory and go to the tray-mate where their pages are mirrored.
DESIGN CHOICE, log entry 25: unsafe. -/
def storeAcc (a : PoolAcc) (old : Nat) (d : List Byte) (s : State) : State :=
  let s := scentAccess a (writeVa a.k a.va d s)
  let (n, s) := sendMirrors a.id a.k a.va d s
  settleAcc a.id (modAcc a.id (fun x => { x with served := true, old := old, mirrors := n }) s)

/-- The next block of a resynchronisation is read (R457). DESIGN CHOICE, log entry 52: unsafe. -/
def resyncNext (s : State) : State :=
  match s.tray.resync with
  | some r =>
    if r.next < 32768 then
      newAcc { id := 0, k := r.k, va := r.page * 2 ^ 21 + 64 * r.next, op := .read 64, asker := .resync r.id }
        { s with tray := { s.tray with resync := some { r with next := r.next + 1 } } }
    else s
  | none => s

/-- A block of a resynchronisation has been read: its copy write goes to the tray-mate, in the page's mirror window, and
the next block is asked for. DESIGN CHOICE, log entry 52: unsafe. -/
def copyBlock (a : PoolAcc) (id : Nat) (s : State) : State :=
  if (s.tray.resync.map (·.id)) != some id then dropAcc a.id s
  else match trayPort s, s.self == 0xFFFF with
    | some port, false =>
      let d := readVa s a.k a.va 64
      resyncNext (enqueue (requestHead s a.k 0x01 0 (mateEid s) a.va 4 d) (.mirror a.id) (some port)
        (modAcc a.id (fun x => { x with served := true, mirrors := 1 }) s))
    | _, _ => markStale a.k (a.va / 2 ^ 21) (dropAcc a.id s)

/-- The effect of an access whose blocks could be read. -/
def applyAcc (a : PoolAcc) (s : State) : State :=
  match a.op with
  | .read n =>
    match a.asker with
    | .resync id => copyBlock a id (s.count F.CTR_KNL_COUNT (16 * a.k + 6) n)
    | _ =>
    settleAcc a.id (modAcc a.id (fun x => { x with served := true })
      (s.count F.CTR_KNL_COUNT (16 * a.k + 6) n))
  | .write d => storeAcc a 0 d (s.count F.CTR_KNL_COUNT (16 * a.k + 7) d.length)
  | op =>
    let old := leVal (readVa s a.k a.va op.len)
    let s := s.count F.CTR_KNL_COUNT (16 * a.k + 8)
    match atomicNew op old with
    | some d => storeAcc a old d s
    | none =>
      settleAcc a.id (modAcc a.id (fun x => { x with served := true, old := old }) (scentAccess a s))

/-- Serves an access: a unit out of service, a lost stack and an uncorrectable block answer CHECK_FAIL (R234, R241,
R246). -/
def serveAcc (a : PoolAcc) (s : State) : State :=
  if s.dieOut || s.cryptoErr then failAcc a Code.checkFail s
  else match memCheck a.k a.va a.op s with
    | (some code, s) => failAcc a code s
    | (none, s) => applyAcc a s

/-- Serves every access that touches a page of a kennel and has not been served: it translated before the entry
changed (R238, R240). -/
def servePage (k page : Nat) (s : State) : State :=
  (s.pool.accs.filter fun a => a.k == k && !a.served && (pagesOf a.va a.op.len).contains page).foldl
    (fun s a => serveAcc a s) s

/-! ## Which access is next (R252, R254) -/

/-- The requester of an access: 0 the network interface, 1 the Retriever, 2 + c core c. -/
def Asker.requester : Asker → Nat
  | .fabric _ _ | .cmd _ _ _ _ | .resync _ | .unit => 0
  | .retr _ _ => 1
  | .core c _ => 2 + c

/-- The pseudo-channels that hold an access's blocks. -/
def accChannels (s : State) (a : PoolAcc) : List Nat :=
  ((blocksOf s a.k a.va a.op.len).map fun b => pseudoChannel (64 * b)).eraseDups

/-- The queue of a pseudo-channel: the 64 oldest requests with a part there that is not served (R252); a later one waits
outside it (R258). -/
def channelQueue (s : State) (ch : Nat) : List PoolAcc :=
  (s.pool.accs.filter fun a => !a.served && (accChannels s a).contains ch && !a.parts.contains ch).take 64

def waitingAccs (s : State) (ch : Nat) (wr : Bool) : List PoolAcc :=
  (channelQueue s ch).filter fun a => a.op.isWrite == wr

/-- Whether a pseudo-channel drains writes: from 48 of them down to 16. -/
def draining (s : State) (ch : Nat) : Bool :=
  let n := (waitingAccs s ch true).length
  48 ≤ n || (s.pool.drain.contains ch && 16 < n)

/-- Whether a channel serves writes now: while it drains them, or without a read in its queue. -/
def channelWrites (s : State) (ch : Nat) : Bool := draining s ch || (waitingAccs s ch false).isEmpty

/-- The request that a pseudo-channel serves next: the oldest one, in the direction in force, of the first requester
after the one served last (R252). -/
def channelNext (s : State) (ch : Nat) : Option PoolAcc :=
  let q := waitingAccs s ch (channelWrites s ch)
  let after := Tbl.get s.pool.turn ch 33
  ((upto 34).map fun i => (after + 1 + i) % 34).findSome? fun r => q.find? fun a => a.asker.requester == r

/-- The place of an access among those that arrive in one cycle: the Retriever, then the cores, then the fabric by its
ingress position (R242); what the network interface reads or writes of its own comes last. -/
def Asker.rank : Asker → Nat
  | .retr _ _ => 0
  | .core c _ => 1 + c
  | .fabric _ p => 33 + p
  | .cmd _ _ _ _ | .resync _ | .unit => 400

/-- Whether two accesses arrived in one cycle, share a block, and `b` goes before `a` (R242). -/
def goesBefore (s : State) (b a : PoolAcc) : Bool :=
  !b.served && b.id != a.id && b.at' == a.at' && (b.asker.rank < a.asker.rank || (b.asker.rank == a.asker.rank && b.id < a.id)) &&
    (blocksOf s b.k b.va b.op.len).any (blocksOf s a.k a.va a.op.len).contains

/-- Whether an access may be served, and whether another one waits for it, in the order of one cycle. -/
def mayServe (s : State) (a : PoolAcc) : Bool := !s.pool.accs.any fun b => goesBefore s b a
def awaited (s : State) (a : PoolAcc) : Bool := s.pool.accs.any fun b => !b.served && goesBefore s a b

/-- The channels that serve their part of an access now: those whose next request it is; one that another access of its
cycle and block waits for is served out of turn. DESIGN CHOICE, log entry 82: unsafe. -/
def channelsServing (s : State) (a : PoolAcc) : List Nat :=
  ((accChannels s a).filter fun ch => !a.parts.contains ch).filter fun ch =>
    awaited s a || (channelNext s ch).map (·.id) == some a.id

/-- The start of the slot table entry of the present cycle. -/
def entryStart (s : State) : Nat := s.cyc.toNat / 18 * 18

/-- Some core has claimed the entry that starts at `st`. -/
def entryClaimed (s : State) (st : Nat) : Bool :=
  s.isl.cores.any fun c => c.2.moves.any fun m => (m.op.post?).any fun p => p.1 == st

/-- A fabric access that the kennel's Scent ring holds unanswered (R388). DESIGN CHOICE, log entry 98: unsafe. -/
def heldAcc (s : State) (a : PoolAcc) : Bool :=
  match a.asker with
  | .fabric _ _ => scentHolds s a.k
  | _ => false

/-- Static mode may serve the access next: the entry is a data entry of its direction that nobody has claimed, and the
access is the oldest of that direction that may go (R242). DESIGN CHOICE, log entry 82: unsafe. -/
def staticNext (s : State) (a : PoolAcc) : Bool :=
  let e := slotEntry s (entryStart s / 18 % 1280)
  let wr := a.op.isWrite
  e.kind == 0 && e.dir == b2n wr && !entryClaimed s (entryStart s) &&
    ((s.pool.accs.find? fun b => !b.served && b.op.isWrite == wr && mayServe s b && !heldAcc s b).map (·.id)) == some a.id

/-- A pseudo-channel has served one request of a requester, which has left its queue. -/
def channelServed (r ch : Nat) (s : State) : State :=
  { s with pool := { s.pool with
    drain := s.pool.drain.filter (· != ch) ++ (if draining s ch then [ch] else []),
    turn := Tbl.put s.pool.turn ch r 33 } }

/-- A queued access is served: in Dynamic mode by each pseudo-channel in its turn, and as a whole once every one has
served its part; in Static mode at once. DESIGN CHOICE, log entry 82: unsafe. -/
def accessDone (id : Nat) (s : State) : State :=
  match s.pool.accs.find? fun a => a.id == id with
  | none => s
  | some a =>
    if a.served || s.pool.retrain || heldAcc s a || !mayServe s a then s
    else if s.rd F.POL_STS_CUR = 1 then cond' (staticNext s a) (serveAcc a) s
    else
      let now := channelsServing s a
      let parts := a.parts ++ now
      let s := modAcc id (fun a => { a with parts := parts }) s
      let s := now.foldl (fun s ch => channelServed a.asker.requester ch s) s
      cond' ((accChannels s a).all parts.contains) (serveAcc { a with parts := parts }) s

/-! ## Mirror writes (R251) -/

/-- The mirror writes of an access that have been sent and not answered mark their pages stale. -/
def mirrorTimeout (id : Nat) (s : State) : State :=
  let mine := fun (o : Outst) => o.owner == .mirror id
  let late := s.ni.outst.filter mine
  let s := { s with ni := { s.ni with outst := ListOps.update mine (fun o => { o with owner := .module }) s.ni.outst } }
  late.foldl (fun s o => mirrorDone id (markStale o.kennel (o.pkt.addr.toNat / 2 ^ 21) s)) s

def execMirrorWriteTimeout (id : Nat) (s : State) : Out := onCompute (mirrorTimeout id) s

/-! ## Patrol scrub (R247) -/

/-- Blocks of the pool. -/
def poolBlocks : Nat := 196608 * 32768

/-- Patrol scrub reads the next block. -/
def scrubStep (s : State) : State :=
  let inEntry := s.rd F.POL_STS_CUR = 0 ∨ (slotEntry s (entryStart s / 18 % 1280)).kind = 3
  if !s.hasPool || s.dieOut || !s.rdB F.POL_SCRUB_EN || s.pool.retrain || !decide inEntry then s
  else
    let b := s.pool.scrubPos
    let s := (readBlock b s).2
    if b + 1 = poolBlocks then
      (({ s with pool := { s.pool with scrubPos := 0 } }).wr F.POL_STS_SCRUBDONE 1).wr F.POL_SCRUB_PASSES
        (s.rd F.POL_SCRUB_PASSES + 1)
    else { s with pool := { s.pool with scrubPos := b + 1 } }

def execPatrolScrubStep (errs : List Flip) (s : State) : Out := onCompute (fun s => scrubStep (disturb errs s)) s

/-! ## Static slot table entries (R253, R254) -/

/-- Serves one Static post at the start of its entry: each access is checked, reads bring their lines and writes are
stored.  A failing access fails the program (R362). -/
def servePost (c : Nat) (m : Move) (s : State) : State :=
  match coreProg s c with
  | none => s
  | some p =>
    let k := p.k
    match m.op with
    | .postRead _ va _ n =>
      let r := (upto n).foldl (fun (a : Option Nat × List (List Byte) × State) i =>
        if a.1.isSome then a
        else
          let v := (va + 64 * i) % 2 ^ 64
          let (e, t) := fullCheck k v (.read 64) a.2.2
          (e, a.2.1 ++ [readVa t k v 64],
            (holdBack (blocksOf a.2.2 k v 64) a.2.2 t).count F.CTR_KNL_COUNT (16 * k + 6) 64)) (none, [], s)
      match r.1 with
      | some code => failMove c m.id code r.2.2
      | none => modMove c m.id (fun m => { m with served := true, data := r.2.1 }) r.2.2
    | .postWrite _ va d =>
      let r := (d.zipIdx).foldl (fun (a : Option Nat × State) x =>
        if a.1.isSome then a
        else
          let v := (va + 64 * x.2) % 2 ^ 64
          let (e, s) := fullCheck k v (.write x.1) a.2
          if e.isSome then (e, s) else (none, unitStore k v x.1 .unit s)) (none, s)
      match r.1 with
      | some code => failMove c m.id code r.2
      | none => modMove c m.id (fun m => { m with served := true }) r.2
    | _ => s

/-- The entry of the present cycle starts, Static mode in force: its claimed posts are served, and in an unclaimed or a
SCRUB entry the write-backs that have waited are made (R373). -/
def entryServe (e : Nat) (s : State) : State :=
  let t := s.cyc.toNat
  let x := slotEntry s e
  if s.rd F.POL_STS_CUR = 1 ∧ t % 18 = 0 ∧ t / 18 % 1280 = e then
    if x.kind = 3 ∨ (x.kind = 0 ∧ !entryClaimed s t) then writeBack s
    else if x.kind = 0 then
      let posts := (s.core x.core).moves.filter fun m => !m.served && (m.op.post?).any fun p => p.1 == t
      posts.foldl (fun s m => servePost x.core m s) s
    else s
  else s

def execSlotEntryStart (e : Nat) (s : State) : Out := computeUnit e 1280 (entryServe e) s

/-! ## Translation invalidation (R238) -/

/-- The pool's registers are reachable: the part has them and the compute die is in service (R522). -/
def poolRegs (s : State) : Bool := s.hasPool && !s.dieOut

/-- A write of POL_TINV with GO. -/
def invalidate (k : Nat) (all : Bool) (s : State) : State :=
  let s := (((s.wr F.POL_TINV_KENNEL k).wr F.POL_TINV_ALL (b2n all)).wr F.POL_TINV_DONE 0)
  let what := if all || (s.pool.inval.any fun i => i.1 != some k) then none else some k
  { s with pool := { s.pool with inval := some (what, s.pool.nextAcc) } }

def execTranslationInvalidate (by_ : Accessor) (kennel : BitVec 12) (all : Bool) (s : State) : Out :=
  onCompute (fun s => monOnly by_ (cond' (poolRegs s) (invalidate kennel.toNat all)) s) s

/-- DONE is set once every access that was past translation has completed. -/
def invalidateDone (s : State) : State :=
  match s.pool.inval with
  | none => s
  | some (k, bound) =>
    if s.pool.accs.any fun a => a.id < bound && (k.isNone || k == some a.k) then s
    else ({ s with pool := { s.pool with inval := none } }).wr F.POL_TINV_DONE 1

def execTranslationInvalidateDone (s : State) : Out := onCompute invalidateDone s

/-! ## Scheduling modes (R255, R256, R495) -/

/-- Whether the slot table passes the validation of R255. -/
def tableOk (s : State) : Bool :=
  let t := (upto 1280).map (slotEntry s)
  let prev := t.getLastD ⟨0, 0, 0⟩ :: t
  let pairs := prev.zip t
  let starts := ((pairs.zipIdx).filter fun x => x.1.1.kind != 1 && x.1.2.kind == 1).map (·.2)
  let long := starts.all fun i => (upto 16).all fun j => (t.getD ((i + j) % 1280) ⟨0, 0, 0⟩).kind == 1
  let next := (starts.drop 1) ++ (starts.head?.map (· + 1280)).toList
  let close := (starts.zip next).all fun x => x.2 - x.1 ≤ 160
  let turn := pairs.all fun x => !(x.1.kind == 0 && x.2.kind == 0 && x.1.dir != x.2.dir)
  128 ≤ (t.filter fun e => e.kind == 1).length && long && close && turn &&
    (t.any fun e => e.kind == 3) && t.all fun e => e.kind < 4

/-- A write of MODE = 1. DEDUCED, log entry 81: unsafe. -/
def modeStatic (s : State) : State :=
  if !s.feature 4 || s.rd F.CLK_STS_HBMPT != 0 then s
  else if tableOk s then (s.wr F.POL_MODE_MODE 1).wr F.POL_MODE_PEND (b2n (s.rd F.POL_STS_CUR != 1))
  else s.wr F.POL_STS_TBLBAD 1

def execPolModeStatic (s : State) : Out := onCompute (fun s => cond' (poolRegs s) modeStatic s) s

/-- A write of MODE = 0. DEDUCED, log entry 81: unsafe. -/
def modeDynamic (s : State) : State :=
  (s.wr F.POL_MODE_MODE 0).wr F.POL_MODE_PEND (b2n (s.rd F.POL_STS_CUR != 0))

def execPolModeDynamic (s : State) : Out := onCompute (fun s => cond' (poolRegs s) modeDynamic s) s

/-- A pending change takes effect at a table wrap at which no core runs a Static program.
DEDUCED, log entry 81: unsafe. -/
def modeChange (s : State) : State :=
  if s.rdB F.POL_MODE_PEND ∧ s.cyc.toNat % passCycles = 0 ∧ !(s.isl.progs.any fun p => p.static && p.running) then
    writeBack ((s.wr F.POL_STS_CUR (s.rd F.POL_MODE_MODE)).wr F.POL_MODE_PEND 0)
  else s

def execPoolModeChange (s : State) : Out := onCompute modeChange s

/-! ## Refresh and retraining -/

/-- The stacks finish retraining: the pool accesses held during the change are released (R495). -/
def execHbmRetrainDone (s : State) : Out := onCompute (fun s => { s with pool := { s.pool with retrain := false } }) s

/-- A per-bank refresh of a stack changes nothing that the module shows (R235). -/
def execPerBankRefresh (stack : Nat) (s : State) : Out := finUnit stack 8 id s

end Sys2Proof.Machine
end

