-- ==== Sys2Proof/Machine/Calls.lean ====
section
/-! DEFINITION. The monitor calls on kennels and pages, and the ends of reset, teardown and quarantine (R188 to R197,
R239, R240, R328, R421, R422, R508). -/

namespace Sys2Proof.Machine

/-! ## Calls (R191, R421) -/

/-- A call that returns a status and changes nothing else. DESIGN CHOICE, log entry 71: unsafe. -/
def refuse (code : Nat) (s : State) : State := { s with host := { s.host with status := code, value := 0 } }

/-- A call that returns OK with a value. DESIGN CHOICE, log entry 71: unsafe. -/
def okWith (v : Nat) (s : State) : State :=
  { s with host := { s.host with status := Code.ok, value := BitVec.ofNat 64 v } }

/-- A monitor serves calls: not in RAW and SCRAP, where only the ROM reporter runs (R411), not after a failed boot (R414)
and not during a restart (R425).  Between a module reset and the boot a call is served as after it.
DESIGN CHOICE, log entry 106: unsafe. -/
def servesCalls (s : State) : Bool :=
  1 ≤ s.klp.lcs && s.klp.lcs ≤ 3 && (match s.klp.mode with
    | .reporter => false
    | .rom => !s.rdB F.KLP_BOOTSTS_WARM
    | .monitor | .running => true)

/-- A call: its refusals in the order of R191, each a test and its status; the first that holds is returned, and a call
with none has its effect and returns its value.  Without a monitor nothing happens. -/
def call (refusals : List (Bool × Nat)) (value : Nat) (f : State → State) (s : State) : State :=
  if !servesCalls s then s
  else match refusals.find? fun r => r.1 with
  | some r => refuse r.2 s
  | none => okWith value (f s)

def feat (b : Bool) : Bool × Nat := (b, Code.featureNotAccepted)
def bad (b : Bool) : Bool × Nat := (b, Code.badDescriptor)
def prot (b : Bool) : Bool × Nat := (b, Code.protection)
def full (b : Bool) : Bool × Nat := (b, Code.resourceFull)

/-- Whether a kennel is in one of the states that a call is allowed in. -/
def inState (s : State) (k : Nat) (l : List KSt) : Bool := l.contains (s.kennel k).st

/-- Whether bytes touch the monitor region of Kelpie's SRAM, once it is locked (R418, R421). -/
def inMonitor (s : State) (a n : Nat) : Bool :=
  s.rdB F.MON_LOCK_LOCKED && n != 0 && a < 4096 * s.rd F.MON_LOCK_SIZE

/-! ## Storage (R154, R188, R223) -/

/-- Bytes of storage that a live kennel takes, `n` level-2 tables among them. -/
def Kennel.storage (onS : Bool) (n : Nat) (k : Kennel) : Nat :=
  if k.live then
    8 * k.nWh + 32 * 2 ^ k.cqLog + 4 * k.rankN +
      (if onS then k.queues.foldl (fun n q => n + 64 * 2 ^ q.2.log2) 0
       else (if k.root.isSome then 65536 else 0) + 32768 * n)
  else 0

/-- Bytes of the monitor region, or of queue SRAM on the LT9600-S. -/
def storageRoom (s : State) : Nat :=
  if s.part = .s then 16 * 2 ^ 20 else (196608 - s.rd F.POL_MONRGN_FIRST) * 2 ^ 21

def storageUsed (s : State) : Nat := s.knl.foldl (fun n x => n + x.2.storage (s.part == .s) (rootEntries s x.2.root).length) 0

/-- Whether `n` more bytes are too many. -/
def storageShort (s : State) (n : Nat) : Bool := storageRoom s < storageUsed s + n

/-- Whistles of every live kennel. -/
def whistlesUsed (s : State) : Nat := s.knl.foldl (fun n x => n + if x.2.live then x.2.nWh else 0) 0

/-- Queues in existence, by their number in the module. DESIGN CHOICE, log entry 14: unsafe. -/
def queueNums (s : State) : List Nat :=
  s.knl.flatMap fun x => if x.2.live then x.2.queues.map fun q => q.2.num else []

/-- The lowest number below `n` that a list does not hold. DESIGN CHOICE, log entry 14: unsafe. -/
def lowestFree (l : List Nat) (n : Nat) : Option Nat := (upto n).find? fun i => !l.contains i

/-- The lowest FREE kennel index. DESIGN CHOICE, log entry 14: unsafe. -/
def freeKennel (s : State) : Option Nat :=
  lowestFree ((s.knl.filter fun x => x.2.live).map (·.1)) 4096

/-- The words of a kennel's page tables go (R190, R196). -/
def clearTables (k : Nat) (s : State) : State :=
  match (s.kennel k).root with
  | none => s
  | some r =>
    let tables := (r, 65536) :: (l1Entries s k).map fun e => (L1e.base e.2, 32768)
    { s with pool := { s.pool with mem := s.pool.mem.filter fun c => !(tables.any fun b => b.1 ≤ c.1 && c.1 < b.1 + b.2) } }

/-! ## KCREATE (R190, R407) -/

/-- The kennel that KCREATE makes. -/
def createKennel (k ktag gen : Nat) (repro : Bool) (nWh log2 : Nat) (s : State) : State :=
  let x : Kennel :=
    { st := .created, ktag := BitVec.ofNat 16 ktag, gen := BitVec.ofNat 4 gen, repro := repro,
      feat := BitVec.ofNat 64 s.accepted, nWh := nWh, cqLog := log2, fatal := (s.kennel k).fatal }
  let s := s.setKennel k x
  let s := { s with lastGen := Tbl.set s.lastGen ktag gen }
  (upto 16).foldl (fun s i => s.wr F.CTR_KNL_COUNT 0 (16 * k + i)) s

def kcreate (ktag gen opts whist ring : Nat) (s : State) : State :=
  let need := 8 * whist + 32 * 2 ^ min ring 16
  let k := freeKennel s
  call
    [feat (bit opts 0 && !s.feature 14),
     bad (0xFFFF < ktag || 15 < gen || 1 < opts || whist == 0 || 4096 < whist || ring < 6 || 16 < ring),
     prot (!s.rdB F.FEA_LOCK_LOCK || ktag == 0 || (liveKennel s (BitVec.ofNat 16 ktag)).isSome ||
       s.quarTags.contains (BitVec.ofNat 16 ktag) || Tbl.find s.lastGen ktag == some gen),
     full (k.isNone || 1048576 < whistlesUsed s + whist || storageShort s need)]
    (k.getD 0) (createKennel (k.getD 0) ktag gen (bit opts 0) whist ring) s

def execKcreate (ktag gen opts whist ring : W64) (s : State) : Out :=
  onFabric (kcreate ktag.toNat gen.toNat opts.toNat whist.toNat ring.toNat) s

/-! ## Bindings and grants -/

def kbindport (k port : Nat) (s : State) : State :=
  call
    [bad (4095 < k || 143 < port), prot (!inState s k [.created, .open]),
     prot (!downInAll s port || (boundKennel s port).isSome)]
    0 (fun s => { s with binds := Tbl.set s.binds port k }) s

def execKbindport (k port : W64) (s : State) : Out := onFabric (kbindport k.toNat port.toNat) s

def kunbindport (k port : Nat) (s : State) : State :=
  call
    [bad (4095 < k || 143 < port), prot (!inState s k [.created, .open]), prot (boundKennel s port != some k)]
    0 (fun s => { s with binds := Tbl.erase s.binds port }) s

def execKunbindport (k port : W64) (s : State) : Out := onFabric (kunbindport k.toNat port.toNat) s

/-- KBINDRANK: `table` holds the entries the monitor writes. -/
def kbindrank (k loc entries : Nat) (table : List W32) (s : State) : State :=
  let used := (s.kennel k).rankN
  call
    [bad (4095 < k || entries == 0 || 65536 < entries || 2 ^ 40 ≤ loc), prot (!inState s k [.created]),
     prot (inMonitor s loc (4 * entries)),
     full (s.part == .s && storageRoom s + 4 * used < storageUsed s + 4 * entries)]
    0 (fun s => s.modKennel k fun x =>
      { x with rankLoc := loc, rankN := entries,
               ranks := (upto entries).foldl
                 (fun t i => Tbl.put t i ((table.getD i 0).toNat % 2 ^ 17) 0) [] }) s

def execKbindrank (k loc entries : W64) (table : List W32) (s : State) : Out :=
  onFabric (kbindrank k.toNat loc.toNat entries.toNat table) s

/-- KBINDPAGE: the root lies in the physical space and is 64 KiB aligned; the tables of an older root go. -/
def kbindpage (k root : Nat) (s : State) : State :=
  call
    [feat (!s.hasPool || !(s.kennel k).feature 1), bad (4095 < k || root % 65536 != 0 || 196608 * 2 ^ 21 ≤ root),
     prot (!inState s k [.created])]
    0 (fun s =>
      if (s.kennel k).root = some root then s
      else (clearTables k s).modKennel k fun x => { x with root := some root }) s

def execKbindpage (k root : W64) (s : State) : Out := onPool (kbindpage k.toNat root.toNat) s

/-- A key store slot that holds a key. -/
def slotFull (s : State) (slot : Nat) : Bool := (Tbl.find s.klp.keys slot).isSome

/-- A slot bound to a live kennel. -/
def slotBound (s : State) (slot : Nat) : Bool := s.knl.any fun x => x.2.live && x.2.key == some slot

def kbindkey (k slot : Nat) (s : State) : State :=
  call
    [bad (4095 < k || 4095 < slot), prot (!inState s k [.created]),
     prot (!slotFull s slot || slotBound s slot || (s.kennel k).key.isSome)]
    0 (fun s => s.modKennel k fun x => { x with key := some slot }) s

def execKbindkey (k slot : W64) (s : State) : Out := onFabric (kbindkey k.toNat slot.toNat) s

/-- The cores that a mask adds to a kennel and those it removes. -/
def coreChange (s : State) (k mask : Nat) : List Nat × List Nat :=
  let held := heldCores s k
  ((upto 32).filter fun c => bit mask c && !held.contains c, held.filter fun c => !bit mask c)

def grantCore (k c : Nat) (s : State) : State :=
  ((s.wr F.CMP_OWN_VALID 1 c).wr F.CMP_OWN_KENNEL k c).modCore c fun x => { x with st := .idle }

def kgrantcore (k mask : Nat) (s : State) : State :=
  let (add, rem) := coreChange s k mask
  call
    [feat (mask != 0 && !((s.kennel k).feature 5)), bad (4095 < k || 2 ^ 32 ≤ mask),
     prot (!inState s k [.created, .open]),
     prot (add.any fun c => !bit s.part.cores c || (s.core c).st != .free || s.rdB F.CMP_OWN_VALID c),
     prot (rem.any fun c => (s.core c).prog.isSome)]
    0 (fun s => add.foldl (fun s c => grantCore k c s) (rem.foldl (fun s c => scrubCore c s) s)) s

def execKgrantcore (k mask : W64) (s : State) : Out := onFabric (kgrantcore k.toNat mask.toNat) s

def kgrantctr (k mask : Nat) (s : State) : State :=
  call [bad (4095 < k || 7 < mask), prot (!inState s k [.created, .open])] 0
    (fun s => s.modKennel k fun x => { x with viewMask := mask }) s

def execKgrantctr (k mask : W64) (s : State) : Out := onFabric (kgrantctr k.toNat mask.toNat) s

/-! ## Queues and the lifecycle -/

/-- KQCREATE: on the LT9600-S the base is ignored (R198). -/
def kqcreate (k q base ring : Nat) (s : State) : State :=
  let num := lowestFree (queueNums s) 16384
  let size := 64 * 2 ^ min ring 16
  let onS := s.part == .s
  call
    [bad (4095 < k || 15 < q || (Tbl.find (s.kennel k).queues q).isSome || ring < 6 || 16 < ring ||
       (!onS && (base % min size (2 ^ 21) != 0 || 2 ^ 46 ≤ base))),
     prot (!inState s k [.created]),
     full (num.isNone || (onS && storageShort s size))]
    0 (fun s => s.modKennel k fun x =>
      { x with queues := Tbl.set x.queues q { num := num.getD 0, base := if onS then 0 else base, log2 := ring } }) s

def execKqcreate (k q base ring : W64) (s : State) : Out :=
  onFabric (kqcreate k.toNat q.toNat base.toNat ring.toNat) s

/-- Some page of a pool-resident ring is not mapped (R198). -/
def ringUnmapped (s : State) (k : Nat) : Bool :=
  s.part != .s && (s.kennel k).queues.any fun q =>
    (pagesOf q.2.base (64 * 2 ^ q.2.log2)).any fun p => (pageEntry s k p).isNone

/-- DEDUCED, log entry 88: unsafe. -/
def kopen (k : Nat) (s : State) : State :=
  let x := s.kennel k
  call
    [bad (4095 < k), prot (!inState s k [.created]),
     prot (x.queues.isEmpty || (x.feature 1 && (x.root.isNone || x.key.isNone)) || ringUnmapped s k)]
    0 (fun s => s.modKennel k fun x => { x with st := .open, everOpen := true, fatal := false }) s

def execKopen (k : W64) (s : State) : Out := onFabric (kopen k.toNat) s

def kreset (k : Nat) (s : State) : State :=
  call [bad (4095 < k), prot (!inState s k [.open])] 0 (startReset k) s

def execKreset (k : W64) (s : State) : Out := onFabric (kreset k.toNat) s

/-- Accesses that a kennel's teardown finds past translation complete first. -/
def serveKennel (k : Nat) (s : State) : State :=
  (s.pool.accs.filter fun a => a.k == k && !a.served).foldl (fun s a => serveAcc a s) s

def kteardown (k : Nat) (s : State) : State :=
  call [bad (4095 < k), prot (!inState s k [.created, .open])] 0 (fun s => startTeardown k (serveKennel k s)) s

def execKteardown (k : W64) (s : State) : Out := onFabric (kteardown k.toNat) s

/-- KNL_STS of a kennel (R232). -/
def knlSts (x : Kennel) : Nat :=
  x.st.code + 8 * (if x.live then x.queues.length else 0) + 256 * b2n (x.live && x.ringFull) + 512 * b2n x.fatal

def kquery (k : Nat) (s : State) : State :=
  call [bad (4095 < k)] (knlSts (s.kennel k) + 2 ^ 32 * (heldCores s k).length) id s

def execKquery (k : W64) (s : State) : Out := onFabric (kquery k.toNat) s

/-- Step 4 of a reset (R193). -/
def resetEnd (k : Nat) (s : State) : State :=
  if (s.kennel k).st = .resetting then s.modKennel k fun x => { x with st := .created } else s

def execKennelResetEnd (k : Nat) (s : State) : Out := fabricUnit k 4096 (resetEnd k) s

/-- The end of a teardown (R196, R197): the index is FREE, its storage is released and its KTAG is in quarantine. -/
def teardownEnd (k : Nat) (s : State) : State :=
  let x := s.kennel k
  if x.st = .closing then
    let s := (clearTables k s).setKennel k { fatal := x.fatal }
    { s with quarTags := s.quarTags ++ [x.ktag],
             pool := { s.pool with accs := s.pool.accs.filter fun a => a.k != k } }
  else s

def execTeardownEnd (k : Nat) (s : State) : Out := fabricUnit k 4096 (teardownEnd k) s

def execKtagQuarantineEnd (ktag : W16) (s : State) : Out :=
  onFabric (fun s => { s with quarTags := s.quarTags.filter (· != ktag) }) s

/-! ## Pages (R239, R240) -/

/-- The pages that some kennel holds. -/
def pageHeld (s : State) (ppn : Nat) : Bool := (holderOf s ppn).isSome

/-- The 32 KiB places that page tables take. -/
def tablePlaces (s : State) : List Nat :=
  (s.knl.filter fun x => x.2.live).flatMap fun x =>
    (x.2.root.elim [] fun r => [r / 2 ^ 15, r / 2 ^ 15 + 1]) ++ (rootEntries s x.2.root).map fun e => L1e.base e.2 / 2 ^ 15

/-- Where the monitor puts a new level-2 table: the lowest free place of its region.
DESIGN CHOICE, log entry 17: unsafe. -/
def freePlace (s : State) : Nat :=
  let used := tablePlaces s
  let first := s.rd F.POL_MONRGN_FIRST * 64
  first + ((upto (used.length + 1)).find? fun i => !used.contains (first + i)).getD 0

/-- The level-2 table for a page is present; a new one holds no entry. -/
def ensureTable (k page : Nat) (s : State) : State :=
  match (s.kennel k).root, entryAddr s k page with
  | some r, none =>
    let p := freePlace s
    setWord (r + 8 * (page / 4096)) (1 + p * 2 ^ 15)
      { s with pool := { s.pool with mem := s.pool.mem.filter fun c => c.1 / 2 ^ 15 != p } }
  | _, _ => s

def vaBad (va : Nat) : Bool := va % 2 ^ 21 != 0 || 2 ^ 46 ≤ va

/-- The tests of KMAP's and KPROT's flag word; `allowed` is the mask of its defined bits. -/
def flagFeature (s : State) (k flags : Nat) : Bool :=
  !s.hasPool || ((bit flags 2 || bit flags 3) && !(s.kennel k).feature 3)

def flagBad (flags allowed : Nat) : Bool := (flags &&& allowed) != flags || (bit flags 2 && bit flags 3)

/-- A page of zeros: nothing listed, every block good (R240, R246). DESIGN CHOICE, log entry 6: unsafe. -/
def zeroPage (ppn : Nat) (s : State) : State :=
  { s with pool := { s.pool with mem := s.pool.mem.filter fun c => c.1 / 2 ^ 21 != ppn,
                                 errs := s.pool.errs.filter fun x => x.1 / 2 ^ 21 != ppn } }

def kmap (k va ppn flags : Nat) (s : State) : State :=
  let page := va / 2 ^ 21
  let x := s.kennel k
  call
    [feat (flagFeature s k flags || !(s.kennel k).feature 1),
     bad (4095 < k || vaBad va || 196607 < ppn || flagBad flags 0xE),
     prot (!inState s k [.created, .open]),
     prot (pageHeld s ppn || s.rd F.POL_MONRGN_FIRST ≤ ppn || Pte.v (entry2 s k page) || x.root.isNone ||
       x.key.isNone)]
    0 (fun s => setEntry k page (1 + flags + ppn * 2 ^ 8) (ensureTable k page (zeroPage ppn s))) s

def execKmap (k va ppn flags : W64) (s : State) : Out := onPool (kmap k.toNat va.toNat ppn.toNat flags.toNat) s

/-- KUNMAP: accesses already translated complete first (R240); a resynchronisation of the page fails. -/
def kunmap (k va : Nat) (s : State) : State :=
  let page := va / 2 ^ 21
  call
    [feat (!s.hasPool), bad (4095 < k || vaBad va), prot (!inState s k [.created, .open]),
     prot (!Pte.v (entry2 s k page))]
    0 (fun s => resyncFail k page (setEntry k page 0 (servePage k page s))) s

def execKunmap (k va : W64) (s : State) : Out := onPool (kunmap k.toNat va.toNat) s

/-- KPROT: the flags of the word replace W, M and MT; bit 4 clears STALE. -/
def kprot (k va flags : Nat) (s : State) : State :=
  let page := va / 2 ^ 21
  let next := fun (e : Nat) => clearBits e (if bit flags 4 then 0x1E else 0xE) + (flags &&& 0xE)
  call
    [feat (flagFeature s k flags), bad (4095 < k || vaBad va || flagBad flags 0x1E),
     prot (!inState s k [.created, .open]), prot (!Pte.v (entry2 s k page))]
    0 (fun s => let s := servePage k page s; setEntry k page (next (entry2 s k page)) s) s

def execKprot (k va flags : W64) (s : State) : Out := onPool (kprot k.toNat va.toNat flags.toNat) s

end Sys2Proof.Machine
end

