-- ==== Sys2Proof/Machine/ProgOps.lean ====
section
/-! DEFINITION. Program images: what LAUNCH checks (R332, R333, R408) and the program it starts. -/

namespace Sys2Proof.Machine

/-! ## Reading an image -/

/-- Whether every byte of a range lies in the kennel's mapped pages. -/
def mapped (s : State) (k va n : Nat) : Bool :=
  va + n ≤ 2 ^ 46 && (pagesOf va n).all fun p => (pageEntry s k p).isSome

/-- Whether a range cannot be read: its unit is out of service (R429, R471) or a block of it does not come out. -/
def unreadable (s : State) (k va n : Nat) : Bool := s.cryptoErr || s.dieOut || (blocksOf s k va n).any (blockBad s)

/-- Translates ranges and reads them through the error code, before their bytes are taken (R237, R246). -/
def touch (k : Nat) (rs : List (Nat × Nat)) (s : State) : State :=
  if s.cryptoErr || s.dieOut then s
  else
    let s := walkRanges k rs s
    (readAll (rs.flatMap fun r => blocksOf s k r.1 r.2).eraseDups s).2

/-- Bytes of an image, none when they cannot be read. -/
def imgBytes (s : State) (k va n : Nat) : Option (List Byte) :=
  if mapped s k va n && !unreadable s k va n then some (readVa s k va n) else none

/-- A test of a part of the image; one whose part could not be read counts as passing (R333). -/
def onPart (p : Option (List Byte)) (f : List Byte → Bool) : Bool :=
  match p with
  | some b => f b
  | none => false

/-- The launch fields of bytes 16 to 63 of a LAUNCH descriptor (R212). -/
structure LaunchArgs where
  paddr : Nat
  aadr : Nat
  step : Nat
  ncore : Nat
  tlim : Nat
  seed : Nat
  reserved : Bool               -- a bit the layout fixes at 0 is set
  deriving DecidableEq, Repr

def launchArgs (d : List Byte) : LaunchArgs :=
  { paddr := field d 16 6, aadr := field d 24 6, step := field d 32 8, ncore := field d 40 2, tlim := field d 44 4,
    seed := field d 48 16,
    reserved := field d 22 2 != 0 || field d 30 2 != 0 || field d 42 2 != 0 }

/-- The parts of an image. -/
structure Image where
  header : Option (List Byte)
  cores : Option (List Byte)    -- the core table
  segs : Option (List Byte)     -- the segment table
  deriving DecidableEq, Repr

def readImage (s : State) (k : Nat) (a : LaunchArgs) : Image :=
  let h := imgBytes s k a.paddr 256
  let nc := (h.map fun b => min (field b 6 2) 32).getD 0
  let ns := (h.map fun b => min (field b 20 4) 1024).getD 0
  { header := h,
    cores := if h.isSome then imgBytes s k (a.paddr + 256) (16 * nc) else none,
    segs := if h.isSome then imgBytes s k (a.paddr + 256 + 16 * nc) (32 * ns) else none }

namespace Image

def ncore (i : Image) : Nat := (i.header.map fun b => field b 6 2).getD 0
def flags (i : Image) : Nat := (i.header.map fun b => field b 8 4).getD 0
def cmask (i : Image) : Nat := (i.header.map fun b => field b 12 4).getD 0
def nseg (i : Image) : Nat := (i.header.map fun b => field b 20 4).getD 0
def static (i : Image) : Bool := bit i.flags 0
def placed (i : Image) : Bool := bit i.flags 1
def isSealed (i : Image) : Bool := bit i.flags 2

/-- The core table entry of logical core `n`: offset and count of its bundles. -/
def text (i : Image) (n : Nat) : Nat × Nat :=
  let b := (i.cores.getD []).drop (16 * n)
  (field b 0 8, field b 8 4)

/-- Entry `n` of the segment table: source offset, logical core, scratchpad address, bytes. -/
def seg (i : Image) (n : Nat) : Nat × Nat × Nat × Nat :=
  let b := (i.segs.getD []).drop (32 * n)
  (field b 0 8, field b 8 2, field b 12 4, field b 16 8)

end Image

/-- The bundles of logical core `n` in memory. -/
def imgText (s : State) (k : Nat) (a : LaunchArgs) (i : Image) (n : Nat) : Option (List Byte) :=
  let t := i.text n
  imgBytes s k (a.paddr + t.1) (32 * min t.2 16384)

/-! ## Features that an image needs (R405, R408) -/

/-- Whether an instruction uses order-free tiles. -/
def usesOrderFree : Instr → Bool
  | .tclr _ _ f => f.mode
  | .tadd _ _ _ => true
  | .vtrdRaw _ _ _ => true
  | .tmmaF4 _ _ f => f.of
  | .tmmaLb4 _ _ f => f.of
  | .tmmaE2m3 _ _ f => f.of
  | .tmmaE3m2 _ _ f => f.of
  | .tmmaE4m3 _ _ f => f.of
  | .tmmaE5m2 _ _ f => f.of
  | .tmmaBf16 _ _ f => f.of
  | .tmmaF16 _ _ f => f.of
  | _ => false

/-- Whether an instruction uses LB4. -/
def usesLb4 : Instr → Bool
  | .tmmaLb4 _ _ _ => true
  | .vqscaleLb4 _ _ _ => true
  | .vpackLb4 _ _ _ => true
  | .vunpkLb4 _ _ _ => true
  | _ => false

/-- Whether some bundle of a text holds an instruction that `p` accepts. -/
def textUses (p : Instr → Bool) (b : List Byte) : Bool :=
  (upto (b.length / 32)).any fun j =>
    match decodeBundle 0 (leVal ((b.drop (32 * j)).take 32)) with
    | some l => l.any p
    | none => false

/-! ## The checks of R333 -/

/-- The form of header, core table and segment table. -/
def imageBad (s : State) (k : Nat) (a : LaunchArgs) (i : Image) : Bool :=
  onPart i.header (fun b =>
    field b 0 4 != 0x48435653 || field b 4 2 != 1 || field b 6 2 != a.ncore || field b 6 2 == 0 ||
    32 < field b 6 2 || 7 < field b 8 4 || (!i.placed && i.cmask != 0) || (!i.static && field b 16 4 != 0) ||
    1024 < i.nseg || ((b.drop 24).take 228).any (· != 0) ||
    (i.placed && ((upto 32).filter (bit i.cmask)).length != i.ncore) ||
    (i.placed && (upto 32).any fun c => bit i.cmask c && !(heldCores s k).contains c)) ||
  (match i.header, i.cores, i.segs with
    | some h, some c, some g => crc32c (h.take 252 ++ c ++ g) != field h 252 4
    | _, _, _ => false) ||
  onPart i.cores (fun _ => (upto (min i.ncore 32)).any fun n =>
    let t := i.text n
    t.1 % 32 != 0 || t.2 == 0 || 16384 < t.2 || field (i.cores.getD []) (16 * n + 12) 4 != 0) ||
  onPart i.segs (fun g => (upto (min i.nseg 1024)).any fun n =>
    let (src, core, dst, len) := i.seg n
    src % 64 != 0 || i.ncore ≤ core || dst % 64 != 0 || len % 64 != 0 || 0x1800000 < dst + len ||
      field g (32 * n + 10) 2 != 0 || field g (32 * n + 24) 8 != 0)

/-- The ranges of an image: header, tables, texts and segments' data. -/
def imageRanges (a : LaunchArgs) (i : Image) : List (Nat × Nat) :=
  let nc := min i.ncore 32
  let ns := min i.nseg 1024
  [(a.paddr, 256), (a.paddr + 256, 16 * nc), (a.paddr + 256 + 16 * nc, 32 * ns)] ++
  ((upto nc).map fun n => (a.paddr + (i.text n).1, 32 * (i.text n).2)) ++
  ((upto ns).map fun n => (a.paddr + (i.seg n).1, (i.seg n).2.2.2))

/-- Reads an image through the error code: its header, and then what the header names. -/
def touchImage (k : Nat) (a : LaunchArgs) (s : State) : State :=
  let s := touch k [(a.paddr, 256)] s
  touch k ((imageRanges a (readImage s k a)).drop 1) s

/-- SLOTCRC of the active slot table. -/
def slotCrc (s : State) : Nat := crc32c ((upto 1280).flatMap fun e => leBytes 4 (slotWord s e))

/-- A change to Static mode is pending. -/
def staticPending (s : State) : Bool := s.rdB F.POL_MODE_PEND && s.rdB F.POL_MODE_MODE

/-- The status of the image checks, 0 when all pass. `byLaunch` says that a LAUNCH command makes them. -/
def checkImage (s : State) (k : Nat) (a : LaunchArgs) (byLaunch : Bool) : Nat :=
  let x := s.kennel k
  let i := readImage s k a
  let texts := (upto (min i.ncore 32)).filterMap (imgText s k a i)
  let uses := fun p => i.cores.isSome && texts.any (textUses p)
  if byLaunch && !x.feature 5 then Code.featureNotAccepted
  else if i.static && (!s.feature 4 || (s.rd F.POL_STS_CUR == 0 && !staticPending s)) then Code.featureNotAccepted
  else if !x.feature 7 && uses usesOrderFree || !x.feature 8 && uses usesLb4 then Code.featureNotAccepted
  else if (heldCores s k).length < a.ncore then Code.badDescriptor
  else if imageBad s k a i then Code.badDescriptor
  else if i.static && field (i.header.getD []) 16 4 != slotCrc s then Code.badDescriptor
  else if (imageRanges a i).any fun r => !mapped s k r.1 r.2 then Code.protection
  else if (imageRanges a i).any fun r => unreadable s k r.1 r.2 then Code.checkFail
  else Code.ok

/-- A checked image waits for its cores (R334). -/
def startProg (k q : Nat) (seq : W32) (a : LaunchArgs) (repro : Bool) (update : Option Nat) (s : State) : State :=
  let i := readImage s k a
  let p : Prog :=
    { id := s.isl.nextProg, k := k, q := q, seq := seq, ncore := a.ncore, static := i.static,
      placed := if i.placed then some i.cmask else none, sealed_ := i.isSealed, repro := repro, tlim := a.tlim,
      paddr := a.paddr, aadr := BitVec.ofNat 64 a.aadr, step := BitVec.ofNat 64 a.step,
      seed := BitVec.ofNat 128 a.seed, update := update }
  let s := { s with isl := { s.isl with progs := s.isl.progs ++ [p], nextProg := s.isl.nextProg + 1 } }
  modCmd k q seq (fun c => { c with prog := some p.id }) s

end Sys2Proof.Machine
end

