-- ==== Sys2Proof/Machine/RtvOps.lean ====
section
/-! DEFINITION. The Retriever: groups and stages (R260 to R264), formats and arithmetic (R278 to R284),
validation (R271 to R275), staging (R289 to R292), delivery (R297, R298) and the progress of a collective (R293, R299 to
R301). -/

namespace Sys2Proof.Machine

/-! ## Formats (R213, R269, R270, R278) -/

def formatPair (i o : Nat) : Bool :=
  (i ≤ 4 && o ≤ 4) || (i == 5 && (o == 5 || o == 6)) || (i == 6 && o == 6)

/-- A value of `w` bits sign-extended from `n` bits. -/
def signExtend (n w v : Nat) : Nat := if bit v (n - 1) then v + (2 ^ w - 2 ^ n) else v

/-- A value of the accumulation format: every NaN is the canonical one (R279). -/
def canonAcc (inF v : Nat) : Nat :=
  if inF ≤ 4 then (match num32 v with | .nan => f32.qnan | _ => v) else v

/-- Element `i` of input bytes, in the accumulation format. -/
def accIn (f : Nat) (b : List Byte) (i : Nat) : Nat :=
  match f with
  | 0 => field b (4 * i) 4
  | 1 => to32 (bf16.decode (field b (2 * i) 2))
  | 2 => to32 (f16.decode (field b (2 * i) 2))
  | 5 => signExtend 32 64 (field b (4 * i) 4)
  | 6 => signExtend 64 128 (field b (8 * i) 8)
  | _ =>
    let o := 528 * (i / 512)
    let j := i % 512
    match e8m0 (field b (o + j / 32) 1) with
    | none => f32.qnan
    | some k => to32 (((if f = 3 then e4m3 else e5m2).decode (field b (o + 16 + j) 1)).scale k)

/-! ## Arithmetic (R276, R279 to R284) -/

/-- A two's-complement number of `w` bits. -/
def signedOf (w v : Nat) : Int := if bit v (w - 1) then (v : Int) - 2 ^ w else v

/-- The reduction operation on two values of the accumulation format. -/
def accOp (inF rop a b : Nat) : Nat :=
  if inF ≤ 4 then (match rop with | 0 => add32 a b | 1 => max32 a b | _ => min32 a b)
  else
    let w := 8 * accBytes inF
    match rop with
    | 0 => (a + b) % 2 ^ w
    | 1 => if signedOf w a < signedOf w b then b else a
    | _ => if signedOf w b < signedOf w a then b else a

/-- The value that fills an entry nobody sent (R276). -/
def accFill (inF rop : Nat) : Nat :=
  if inF ≤ 4 then (match rop with | 0 => 0 | 1 => 0xFF800000 | _ => 0x7F800000)
  else
    let n := 8 * elemBytes inF
    let w := 8 * accBytes inF
    match rop with
    | 0 => 0
    | 1 => 2 ^ w - 2 ^ (n - 1)
    | _ => 2 ^ (n - 1) - 1

/-- One round of the tree of R280. -/
def treeRound {α : Type} (op : α → α → α) : List α → List α
  | a :: b :: t => op a b :: treeRound op t
  | l => l

/-- The tree of R280 over `l`; `n` bounds the rounds. -/
def treeSum {α : Type} (op : α → α → α) : Nat → List α → Option α
  | _, [] => none
  | _, [a] => some a
  | 0, a :: _ => some a
  | n + 1, l => treeSum op n (treeRound op l)

/-- The sum in order of arrival (R282). -/
def foldSum {α : Type} (op : α → α → α) : List α → Option α
  | [] => none
  | a :: t => some (t.foldl op a)

/-- An integer saturated to `n` bits, and whether it was. -/
def saturate (n : Nat) (v : Int) : Nat × Bool :=
  let hi : Int := 2 ^ (n - 1) - 1
  let lo : Int := -(2 ^ (n - 1))
  let c := if hi < v then hi else if v < lo then lo else v
  ((BitVec.ofInt n c).toNat, c != v)

/-- How the element with index `e` of the result is rounded. -/
def Coll.rnd (c : Coll) (e : Nat) : Rnd := if c.stoch then .sr (fennel c.seed c.step c.stream e) else .ne

/-- One MXFP8 block of up to 32 values from index `e` on: scale byte, element bytes, saturated elements (R283). -/
def outMxBlock (c : Coll) (e : Nat) (l : List Nat) : Nat × List Nat × Nat :=
  let f := if c.outF = 3 then e4m3 else e5m2
  let sc := mxScale (if c.outF = 3 then 8 else 15) (l.map num32)
  if sc = 255 then (255, l.map fun _ => 0, 0)
  else
    let one := fun (v : Nat) (i : Nat) =>
      match num32 v with
      | .fin s m x => if m = 0 then (b2n s * f.signBit, false) else f.satRat (c.rnd (e + i)) s m 1 (x - ((sc : Int) - 127))
      | _ => (0, false)
    let r := (l.zipIdx).map fun x => one x.1 x.2
    (sc, r.map (·.1), (r.filter (·.2)).length)

/-- One super-block of up to 512 values; what lies beyond them is free, a function of the values (R365). -/
def outSuper (c : Coll) (e : Nat) (l : List Nat) : List Byte × Nat :=
  let blocks := (upto (ceilDiv l.length 32)).map fun j => outMxBlock c (e + 32 * j) ((l.drop (32 * j)).take 32)
  let p := (upto 528).map (Config.superRest e l)
  let scales := blocks.map fun b => BitVec.ofNat 8 b.1
  let elems := blocks.flatMap fun b => b.2.1.map (BitVec.ofNat 8)
  (scales ++ (p.drop scales.length).take (16 - scales.length) ++ elems ++ p.drop (16 + elems.length),
   blocks.foldl (fun n b => n + b.2.2) 0)

/-- The output bytes of a block's values, the first with index `e` of the result, and its saturated elements. -/
def outBlock (c : Coll) (e : Nat) (l : List Nat) : List Byte × Nat :=
  if isMx c.outF then
    (upto (ceilDiv l.length 512)).foldl (fun (a : List Byte × Nat) i =>
      let (b, n) := outSuper c (e + 512 * i) ((l.drop (512 * i)).take 512)
      (a.1 ++ b, a.2 + n)) ([], 0)
  else match c.outF with
    | 0 => (l.flatMap (leBytes 4), 0)
    | 1 => ((l.zipIdx).flatMap fun x => leBytes 2 (bf16.encode (c.rnd (e + x.2)) (num32 x.1)), 0)
    | 2 => ((l.zipIdx).flatMap fun x => leBytes 2 (f16.encode (c.rnd (e + x.2)) (num32 x.1)), 0)
    | o =>
      let n := elemBytes o
      let r := l.map fun v => saturate (8 * n) (signedOf (8 * accBytes c.inF) v)
      (r.flatMap fun x => leBytes n x.1, (r.filter (·.2)).length)

/-! ## Groups (R260 to R264) -/

/-- The four words of a group descriptor in the ACTIVE bank. -/
def groupWords (s : State) (g : Nat) : Nat × Nat × Nat × Nat := Tbl.get s.spg.active.grp g (0, 0, 0, 0)

def stageWords (w : Nat × Nat × Nat × Nat) : List Nat := [w.2.1, w.2.2.1, w.2.2.2].take (bits w.1 3 2)

def groupValid (w : Nat × Nat × Nat × Nat) : Bool := bit w.1 0 && bits w.1 3 2 != 0
def groupSelf (w : Nat × Nat × Nat × Nat) : Bool := bit w.1 1

/-- Level of an axis: 0 rack, 1 tray, 2 hall X, 3 hall Y. -/
def axisLevel (a : Nat) : Nat := if a = 4 then 1 else if a = 5 then 2 else if a = 6 then 3 else 0

/-- The endpoint identities of a stage's members in ordinal order (R261). -/
def stageMembers (s : State) (w : Nat) : List Nat :=
  let x := eidX s.self
  let y := eidY s.self
  let l := eidL s.self
  let index := bits w 7 4
  let at' := fun i => bits w 14 8 + i * bits w 21 15
  let ords := upto (bits w 28 22)
  match bits w 3 0 with
  | 1 => ords.map fun i => eid x y (9 * index + at' i)
  | 2 => ords.map fun i => eid x y (9 * at' i + index)
  | 3 => ords.map fun i => eid x y (at' i)
  | 4 => [eid x y (l / 2 * 2), eid x y (l / 2 * 2 + 1)]
  | 5 => ords.map fun i => eid (at' i % 32) y l
  | 6 => ords.map fun i => eid x (at' i % 16) l
  | 7 =>
    let m := (Tbl.get s.spg.active.mcg (bits w 19 8) (0, 0)).1
    let mask := bits m 15 7
    let idx := bits m 6 3
    match bits m 2 0 with
    | 1 => ((upto 9).filter (bit mask)).map fun i => eid x y (9 * idx + i)
    | 2 => ((upto 8).filter (bit mask)).map fun i => eid x y (9 * i + idx)
    | _ => []
  | _ => []

def stageOf (s : State) (w : Nat) : Stage :=
  let ms := stageMembers s w
  let lvl := axisLevel (bits w 3 0)
  { level := lvl, members := ms,
    me := if lvl = 0 then none else (ListOps.findIdx (· == s.self) ms 0).map (·.1) }

/-- The executing module leads a stage. -/
def Stage.lead (t : Stage) : Bool := t.level == 0 || t.me == some (t.members.length - 1)

/-- The stages this module takes part in and whether it leads them all; none when it is no member of one it must take
part in (R264). -/
def walkStages (s : State) : List Nat → Option (List Stage × Bool)
  | [] => some ([], true)
  | w :: rest =>
    let t := stageOf s w
    if t.level ≠ 0 ∧ t.me.isNone then none
    else if t.lead then (walkStages s rest).map fun r => (t :: r.1, r.2)
    else some ([t], false)

/-- Whether the module's stage 0 is that of the top lead: on every higher axis it stands where the lead stands. -/
def inTopStage (s : State) (ws : List Nat) : Bool :=
  (ws.drop 1).all fun w =>
    let lead := (stageMembers s w).getLastD 0
    match axisLevel (bits w 3 0) with
    | 1 => eidL lead == eidL s.self
    | 2 => eidX lead == eidX s.self
    | _ => eidY lead == eidY s.self

/-! ## Descriptors (R213, R271) -/

/-- The collective a descriptor asks for. -/
def collOf (s : State) (k q : Nat) (seq : W32) (d : List Byte) (repro : Bool) : Coll :=
  let g := field d 16 2 % 8192
  let w := groupWords s g
  let ws := stageWords w
  let r := (walkStages s ws).getD ([], false)
  { id := s.rtv.nextId, k := k, q := q, seq := seq, opc := field d 0 1, group := g, self_ := groupSelf w,
    stages := r.1, nstg := ws.length, ring := ws.any fun w => 2 ≤ axisLevel (bits w 3 0), topLead := r.2,
    inTop := inTopStage s ws, repro := repro, stoch := bit (field d 19 1) 2, inF := field d 18 1 % 16,
    outF := field d 18 1 / 16, rop := field d 19 1 % 4, chunk := field d 20 1,
    chunkW := if bit (field d 22 2) 15 then some (field d 22 2 % 4096) else none, saddr := field d 24 6,
    daddr := field d 32 6, len := field d 40 8, root := field d 48 2, raddr := field d 52 6, tmo := field d 50 2 }

/-- The collective uses the compute die: while that is out of service it ends with CHECK_FAIL (R471). -/
def Coll.usesPool (c : Coll) : Bool := c.self_ || c.root == 0xFFFF || c.isUpdate || c.mod0

/-- The ranges of the pool that the module uses (R262, R271, R274, R284, R301). -/
def collUses (c : Coll) (laddr : Nat) : List (Nat × Nat) :=
  let sUse := c.isUpdate || (!c.isBcast && (c.self_ || c.mod0)) || (c.isBcast && c.root == 0xFFFF && c.topLead) ||
    (c.isBcast && c.mod0 && c.inTop && c.me0 == some c.root)
  (if sUse then [(c.saddr, c.len)] else []) ++ (if c.writesDaddr then [(c.daddr, c.outLen c.cap)] else []) ++
  (if c.raddr ≠ 0 then [(c.raddr, 128 + (if c.isVar then 8 * c.m0 else 0))] else []) ++
  (if c.isUpdate then [(laddr, 64)] else [])

/-- The tests of R207 and R273 on a collective's descriptor, 0 when all pass; the header's own tests apart. -/
def checkColl (s : State) (k : Nat) (d : List Byte) : Nat :=
  let x := s.kennel k
  let c := collOf s k 0 0 d false
  let w := groupWords s c.group
  let rop := field d 19 1
  let need := fun (on : Bool) (b : Nat) => on && !x.feature b
  let laddr := field d 58 6
  let uses := collUses c laddr
  let esz := if isMx c.inF then 528 else elemBytes c.inF
  if need c.isUpdate 6 || need c.isVar 13 || need (isMx c.inF || isMx c.outF) 12 ||
     need (c.root == 0xFFFF || (groupValid w && c.self_)) 9 || need (c.raddr != 0) 10 || need c.stoch 11 then
    Code.featureNotAccepted
  else if !groupValid w || field d 16 2 / 8192 != 0 || field d 21 1 != 0 || bits (field d 22 2) 14 12 != 0 ||
     field d 30 2 != 0 || field d 38 2 != 0 || c.chunk < 14 || 20 < c.chunk ||
     (if c.isBcast then field d 18 1 != 0 || rop != 0
      else !formatPair c.inF c.outF || c.rop == 3 || rop / 8 != 0 ||
        (c.stoch && (c.outF == 0 || 5 ≤ c.outF || c.raddr == 0))) ||
     c.len == 0 || 2 ^ 31 < c.len || c.len % 16 != 0 || c.len % esz != 0 then Code.badDescriptor
  else if (walkStages s (stageWords w)).isNone then Code.badDescriptor
  else if (c.root != 0xFFFF && (c.count0 ≤ c.root || c.opc == 0x0B || c.isUpdate)) || (c.self_ && c.isUpdate) ||
     uses.any (fun u => u.1 % 16 != 0) then Code.badDescriptor
  else if uses.any (fun u => !mapped s k u.1 u.2) || c.chunkW.any (fun n => x.nWh ≤ n) then Code.protection
  else Code.ok

/-! ## Staging (R268, R289, R290) -/

/-- Q of R289. -/
def Coll.need (c : Coll) (w : Nat) : Nat :=
  let a := c.accBlk
  let i := blockBytes c.inF
  let j := (c.stages.filter fun t => t.level != 0).length
  let s0 := if c.isBcast then 0
    else if c.repro then c.m0 * i + ceilDiv c.m0 2 * a else c.m0 * i + a
  w * c.kBlocks * (s0 + 3 * a * j + c.outBlk)

def stagingBytes : Nat := 64 * 2 ^ 20

/-- RTV_QUOTA of a kennel in bytes. -/
def quotaBytes (s : State) (k : Nat) : Nat := s.rd F.RTV_QUOTA_QUOTA k * 2 ^ 18

def earlyBytes (l : List Arrival) : Nat := l.foldl (fun n a => n + 16 * a.pkt.len.toNat) 0

/-- Staging a kennel holds: its reservations and its early packets. -/
def kennelStaging (s : State) (k : Nat) : Nat :=
  (s.rtv.colls.filter fun c => c.k == k).foldl (fun n c => n + c.reserve) 0 +
    earlyBytes (s.rtv.early.filter fun a => a.pkt.ktag == (s.kennel k).ktag)

def totalStaging (s : State) : Nat := s.rtv.colls.foldl (fun n c => n + c.reserve) 0 + earlyBytes s.rtv.early

/-- Room for `n` more bytes in free staging and in a kennel's quota. -/
def stagingRoom (s : State) (k n : Nat) : Bool :=
  totalStaging s + n ≤ stagingBytes && kennelStaging s k + n ≤ quotaBytes s k

/-! ## Collectives -/

/-- The collective in flight of a kennel on a group. -/
def flyingOn (s : State) (k g : Nat) : Option Coll := s.rtv.colls.find? fun c => c.flying && c.k == k && c.group == g

/-- NEXT of a kennel on a group (R267). -/
def nextTag (s : State) (k g : Nat) : Nat := Tbl.get s.rtv.next (k * 8192 + g) 1 - 1

/-- A stage has formed and checked every block of a chunk. -/
def Coll.chunkPassed (c : Coll) (st ch : Nat) : Bool :=
  (c.chunkBlocks (ceilDiv c.cap (blockElems c.inF)) ch).all fun b =>
    c.passed.contains (sbKey st b) || (c.entriesUp st).any fun n => ceilDiv n (blockElems c.inF) ≤ b

/-- Chunks of a member's full capacity, which no chunk lies beyond, whatever is declared. -/
def Coll.capChunks (c : Coll) : Nat := ceilDiv (ceilDiv c.cap (blockElems c.inF)) c.kBlocks

/-- The oldest incomplete chunk of a stage (R291). -/
def Coll.oldest (c : Coll) (st : Nat) : Nat :=
  ((upto c.capChunks).find? fun ch => !c.chunkPassed st ch).getD c.capChunks

/-- A chunk lies within a stage's window, and no CANCEL has cut it off. -/
def Coll.inWindow (c : Coll) (st ch : Nat) : Bool := ch < c.oldest st + c.w && c.stopAt.all (ch < ·)

/-- A chunk has started at this module (R296). -/
def Coll.started (c : Coll) (ch : Nat) : Bool :=
  (c.staged.any fun x => x.1 / 4 % 2 ^ 20 / c.kBlocks == ch) ||
  (c.passed.any fun x => x % 2 ^ 20 / c.kBlocks == ch) || (c.down.any fun x => x.1 / 4 / c.kBlocks == ch)

/-! ## Sending -/

/-- The ADDR of a collective packet (R265). -/
def collAddr (g st cseq off : Nat) : Nat := g * 2 ^ 35 + st * 2 ^ 33 + cseq * 2 ^ 29 + off

/-- Data filled up to 16 bytes. -/
def pad16 (d : List Byte) : List Byte := d ++ List.replicate ((16 - d.length % 16) % 16) 0

/-- Awaits one more answer on a block. -/
def await (id blk : Nat) (s : State) : State :=
  modColl id (fun c => { c with outst := Tbl.put c.outst blk (Tbl.get c.outst blk 0 + 1) 0 }) s

/-- Puts one collective packet before the network interface; the first one of a fenced command carries FEN (R175). -/
def sendColl (c : Coll) (opc st dst off member blk : Nat) (d : List Byte) (s : State) : State :=
  let p := pad16 d
  let h := requestHead s c.k opc 4 dst (collAddr c.group st (c.cseq.getD 0) off) (p.length / 16) p
  let fen := (findCmd s c.k c.q c.seq).any (·.fen)
  await c.id blk (enqueue { h with fen := fen } (.coll c.id member blk) none
    (modCmd c.k c.q c.seq (fun m => { m with fen := false }) s))

/-- Sends a block in pieces of at most 4,096 bytes; `base` is its place in its stream. -/
def sendBlock (c : Coll) (opc st dst base member blk : Nat) (d : List Byte) (s : State) : State :=
  (upto (ceilDiv d.length 4096)).foldl (fun s i =>
    sendColl c opc st dst ((base + 4096 * i) / 16) member blk ((d.drop (4096 * i)).take 4096) s) s

/-- A declaration's payload (R275). -/
def declBytes (n : Nat) : List Byte := leBytes 8 n ++ leBytes 8 0

def declOff : Nat := 0x1FFFFFFF

/-- The first ordinal from `i` on, below `n`, that a mask does not skip. -/
def nextOrdinal (mask i n : Nat) : Option Nat := ((upto n).drop i).find? fun o => !bit mask o

/-- Sends a result block, or the declaration, to the first member of a stage's chain from ordinal `o` on (R272, R298);
the lead is never sent to. -/
def sendChain (id st o blk : Nat) (s : State) : State :=
  match findColl s id with
  | none => s
  | some c =>
    match c.stages[st]? with
    | none => s
    | some t =>
      match nextOrdinal (Tbl.get c.skips st 0) o (t.members.length - 1) with
      | none => s
      | some i =>
        let dst := t.members.getD i 0
        if blk = declBlk then
          sendColl c 0x11 st dst declOff (chainMember st i) blk (declBytes (c.outEntries.getD 0)) s
        else sendBlock c 0x11 st dst (blk * c.outBlk) (chainMember st i) blk (c.result blk) s

/-- Forwards a result block, or the declaration, down every chain this module heads or stands in, highest stage
first. -/
def forward (id blk : Nat) (s : State) : State :=
  match findColl s id with
  | none => s
  | some c =>
    ((c.stages.zipIdx).reverse).foldl (fun s x =>
      match x.1.level, x.1.me with
      | 0, _ => s
      | _, some i => sendChain id x.2 (if x.1.lead then 0 else i + 1) blk s
      | _, none => s) s

/-- The stage-0 ordinals to which this module sends a result (R271). -/
def Coll.receivers (c : Coll) : List Nat :=
  if c.isReduce then (if c.topLead ∧ c.root ≠ 0xFFFF ∧ c.me0 ≠ some c.root then [c.root] else [])
  else if c.mod0 then []
  else (upto c.count0).filter fun i => !(c.isBcast && c.topLead && i == c.root)

/-- Sends a block, or a declaration, to stage-0 members; one that could not be reached gets nothing more (R297).
DEDUCED, log entry 85: unsafe. -/
def deliverTo (id blk : Nat) (d : List Byte) (off : Nat) (s : State) : State :=
  match findColl s id with
  | none => s
  | some c =>
    c.receivers.foldl (fun s i =>
      if (findColl s id).any fun c => bit c.unreached i then s
      else
        let dst := ((c.stages.head?).map fun t => t.members.getD i 0).getD 0
        if off = declOff then sendColl c 0x11 0 dst off i blk d s
        else sendBlock c 0x11 0 dst (16 * off) i blk d s) s

/-- An access of a collective joins those that the pool serves in their turn (R252, R254); a failing check ends the collective
with the check's code (R241). -/
def collAsk (id blk va : Nat) (op : PoolOp) (s : State) : State :=
  match findColl s id with
  | none => s
  | some c =>
    match poolCheck s c.k va op false with
    | some code => failColl id code (walkRaise c.k va op s)
    | none => newAcc { id := 0, k := c.k, va := va, op := op, asker := .retr id blk } s

/-- A collective stores bytes of a block, which the block then waits for. -/
def collStore (id blk va : Nat) (d : List Byte) (s : State) : State := collAsk id blk va (.write d) (await id blk s)

/-- The address and length of this module's own input to a block, for those that have one (R262, R271, R274). -/
def Coll.ownRange (c : Coll) (blk : Nat) : Option (Nat × Nat) :=
  let have' := entriesIn c.inF c.cap blk
  if c.phase = 2 then
    let size := blockBytes c.outF
    if blk * size < c.len then some (c.saddr + blk * size, min size (c.len - blk * size)) else none
  else if c.phase ≠ 0 ∨ have' = 0 then none
  else if c.isBcast then
    if c.farRoot || (c.topLead && (c.root == 0xFFFF || (c.mod0 && c.me0 == some c.root))) then
      some (c.saddr + 4096 * blk, 4 * have') else none
  else if c.self_ || c.mod0 then some (c.saddr + blk * blockBytes c.inF, bytesOf c.inF have')
  else none

/-- This module's own input to a block is at hand. -/
def Coll.ownReady (c : Coll) (blk : Nat) : Bool := (c.ownRange blk).all fun _ => (Tbl.find c.pool blk).isSome

/-- The blocks within the window whose own input has still to be asked for. -/
def Coll.ownBlocks (c : Coll) : List Nat :=
  let n := if c.phase = 2 then ceilDiv c.len (blockBytes c.outF) else ceilDiv c.cap (blockElems c.inF)
  let open' := fun (ch : Nat) => if c.phase = 2 then ch < c.done + c.w else c.inWindow 0 ch
  (((upto (ceilDiv n c.kBlocks)).filter open').flatMap (c.chunkBlocks n)).filter fun b =>
    (c.ownRange b).isSome && !c.asked.contains b

/-- Asks the pool for the module's own input to the blocks in the window. -/
def askOwn (id : Nat) (s : State) : State :=
  match findColl s id with
  | none => s
  | some c =>
    if !c.flying then s
    else c.ownBlocks.foldl (fun s b =>
      match c.ownRange b with
      | none => s
      | some (va, n) => collAsk id b va (.read n) (modColl id (fun c => { c with asked := b :: c.asked }) s)) s

/-- Checks and reads bytes for a collective: the status, 0 when they could be read, and the bytes. -/
def collRead (k va n : Nat) (s : State) : Nat × List Byte × State :=
  match fullCheck k va (.read n) s with
  | (some code, s) => (code, [], s)
  | (none, s) => (0, readVa s k va n, s.count F.CTR_KNL_COUNT (16 * k + 6) n)

/-- A result block that this module holds goes on: down the chains, to its stage-0 members, to DADDR. -/
def spreadBlock (id blk : Nat) (s : State) : State :=
  match findColl s id with
  | none => s
  | some c =>
    if c.isOver || c.spread.contains blk then s
    else
      let d := c.result blk
      let s := modColl id (fun c => { c with spread := blk :: c.spread }) s
      let s := if c.isReduce then s else forward id blk s
      let s := if c.isUpdate then s else deliverTo id blk d (blk * c.outBlk / 16) s
      if c.writesDaddr then collStore id blk (c.daddr + blk * c.outBlk) d s else s

/-- Sends the result's declarations once its entries are known (R277). -/
def spreadDecl (id : Nat) (s : State) : State :=
  match findColl s id with
  | none => s
  | some c =>
    if !c.isVar || c.declDown || c.isOver || (c.isReduce && !c.topLead) || (c.isBcast && c.farRoot && c.downDecl.isNone) then s
    else match c.outEntries with
      | none => s
      | some n =>
        let s := modColl id (fun c => { c with declDown := true }) s
        let s := if c.isReduce then s else forward id declBlk s
        deliverTo id declBlk (declBytes n) declOff s

/-- Sends the up-phase declaration once the entries are known (R277). -/
def sendDeclUp (id : Nat) (s : State) : State :=
  match findColl s id with
  | none => s
  | some c =>
    if !c.isVar || c.declUp || c.isOver || c.topLead || !(c.isReduce || c.farRoot) then s
    else match c.entries, c.stages[c.lastStage]? with
      | some n, some t =>
        let st := c.lastStage
        let i := if c.isReduce then t.me.getD 0 + 1 else t.members.length - 1
        sendColl c 0x10 st (t.members.getD i 0) declOff (upMember st) declBlk (declBytes n)
          (modColl id (fun c => { c with declUp := true }) s)
      | _, _ => s

/-! ## Arrivals -/

/-- The ordinal of a packet's source when SRC and STG are as the group expects (R268). -/
def Coll.expects (c : Coll) (p : Packet) (result : Bool) : Option Nat :=
  let a := collAddrOf p
  match c.stages[a.stg]? with
  | none => none
  | some t =>
    match (ListOps.findIdx (· == p.src.toNat) t.members 0).map (·.1) with
    | none => none
    | some i =>
      if result then
        -- from a member of the chain above this module, or from the lead to the root of a REDUCE
        if t.level != 0 && t.me.isSome && t.me != some i && (!c.isReduce || c.farRoot) && !t.lead then some i else none
      else if c.isBcast then (if c.topLead && a.stg == 0 && c.root == i && t.me != some i then some i else none)
      else if t.level = 0 then some i
      else if t.me = some (i + 1) then some i else none

/-- Where a packet's data belongs: its block, its piece of it, and the bytes of one block of its stream. -/
def Coll.place (c : Coll) (p : Packet) (result : Bool) : Option (Nat × Nat) :=
  let a := collAddrOf p
  let o := 16 * a.off
  let size := if result then c.outBlk
    else if c.isBcast then 4096
    else if a.stg = 0 ∧ !c.mod0 then blockBytes c.inF else c.accBlk
  if o % size % 4096 = 0 then some (o / size, o % size / 4096) else none

/-- Lands an expected contribution or declaration: declared counts drop what lies beyond the capacity (R276). -/
def Coll.land (c : Coll) (p : Packet) (m : Nat) : Coll :=
  let a := collAddrOf p
  if a.off = declOff then
    { c with decl := if (Tbl.find c.decl (128 * a.stg + m)).isSome then c.decl
        else Tbl.set c.decl (128 * a.stg + m) (field p.payload 0 8) }
  else match c.place p false with
    | none => c
    | some (blk, pc) =>
      let room := c.inputBytes a.stg (entriesIn c.inF c.cap blk) - 4096 * pc
      let d := p.payload.take (min room 4096)
      let key := pieceKey a.stg m blk pc
      if d.isEmpty || (Tbl.find c.staged key).isSome then c
      else
        let seen := Tbl.get c.arrived blk []
        { c with staged := Tbl.set c.staged key d,
                 arrived := if a.stg = 0 then Tbl.set c.arrived blk (seen ++ [m]) else c.arrived }

/-- Lands a result piece or the result's declaration. -/
def Coll.landResult (c : Coll) (p : Packet) : Coll :=
  let a := collAddrOf p
  if a.off = declOff then
    { c with downDecl := some (c.downDecl.getD (min c.cap (field p.payload 0 8))) }
  else match c.place p true with
    | none => c
    | some (blk, pc) =>
      let room := c.outLen (entriesIn c.inF c.cap blk) - 4096 * pc
      let d := p.payload.take (min room 4096)
      if d.isEmpty || (Tbl.find c.down (4 * blk + pc)).isSome then c
      else { c with down := Tbl.set c.down (4 * blk + pc) d }

/-- A chunk lies within the window of the down phase: its oldest incomplete chunk is the first that is not done here
(R288). -/
def Coll.inDown (c : Coll) (ch : Nat) : Bool := ch < c.done + c.w

/-- Whether a collective may take a packet's block now (R288, R291); declarations wait for no window. -/
def Coll.takes (c : Coll) (p : Packet) (result : Bool) : Bool :=
  let a := collAddrOf p
  if a.off = declOff then true
  else match c.place p result with
    | some (blk, _) =>
      (if result then c.inDown (blk / c.kBlocks) else c.inWindow a.stg (blk / c.kBlocks)) ||
        ceilDiv c.cap (blockElems c.inF) ≤ blk
    | none => true

/-- Entry to staging: the second check over a packet's bytes agrees with the carried one (R285). -/
def entersWhole (p : Packet) : Bool := p.crc == p.check

/-- Lands a packet in its collective, which a mismatch at the entry to staging ends (R285). -/
def landPacket (id : Nat) (p : Packet) (m : Nat) (result : Bool) (s : State) : State :=
  if entersWhole p then
    modColl id (fun c => { (if result then c.landResult p else c.land p m) with cameAt := some s.time }) s
  else checkFailed id s

/-! ## Progress (R292, R293, R299) -/

/-- Spreads the result blocks that are complete at this module and in the window of the down phase (R288).  The down phase
of a group with no ring begins once the top lead has every chunk; a group of one rack-level stage, and a REDUCE, have no
down phase, and their blocks are delivered as they come (R271, R292). DEDUCED, log entry 85: unsafe. -/
def spreadReady (id : Nat) (s : State) : State :=
  match findColl s id with
  | none => s
  | some c =>
    if c.isOver || c.phase != 0 then s
    else match c.outEntries with
      | none => s
      | some n =>
        let nb := ceilDiv n (blockElems c.inF)
        let ready := (upto nb).filter fun b => c.resultLen n b ≤ (c.result b).length
        let wait := c.topLead && !c.ring && !c.isReduce && (c.stages.any fun t => t.level != 0) && ready.length < nb
        if wait then s
        else (ready.filter fun b => !c.spread.contains b && c.inDown (b / c.kBlocks)).foldl (fun s b => spreadBlock id b s) s

/-- What a block still waits for at this module in the present data phase. -/
def Coll.blockDone (c : Coll) (b : Nat) : Bool :=
  let up := c.phase == 0 && !c.topLead && (!c.isBcast || c.farRoot)
  let down := c.phase == 2 || !c.isReduce || c.topLead || c.farRoot
  let beyond := fun (n : Option Nat) => n.any fun n => ceilDiv n (blockElems c.inF) ≤ b
  (!up || c.upSent.contains b || beyond c.entries) &&
    (!down || c.spread.contains b || (c.phase == 0 && beyond c.outEntries)) && Tbl.get c.outst b 0 == 0

/-- Early packets of a collective in flight that its windows now take. -/
def takeEarly (id : Nat) (s : State) : State :=
  s.rtv.early.foldl (fun s a =>
    match findColl s id with
    | none => s
    | some c =>
      let result := a.pkt.opc == 0x11
      if c.flying && c.ownEarly (s.kennel c.k).ktag a then
        match c.expects a.pkt result with
        | none => { s with rtv := { s.rtv with early := s.rtv.early.erase a } }
        | some m =>
          if c.takes a.pkt result then
            landPacket id a.pkt m result { s with rtv := { s.rtv with early := s.rtv.early.erase a } }
          else s
      else s) s

/-- The chunks done from `done` on, in order; each one done lets the windows go on.  `n` bounds them. -/
def countDone (id : Nat) : Nat → State → State
  | 0, s => s
  | n + 1, s =>
    match findColl s id with
    | none => s
    | some c =>
      match c.isOver, c.blocks, c.chunks with
      | false, some nb, some nc =>
        if c.done < nc ∧ (c.chunkBlocks nb c.done).all c.blockDone then
          let up := fun (c : Coll) => { c with done := c.done + 1, doneAll := c.doneAll + 1 }
          let s := (modColl id up s).count F.CTR_KNL_COUNT (16 * c.k + 10)
          countDone id n (spreadReady id (takeEarly id (applyAdd c.k (c.chunkW.map fun w => (w, 1)) s)))
        else s
      | _, _, _ => s

/-- The collective completes at this module (R277, R299). -/
def completeColl (id : Nat) (s : State) : State :=
  match findColl s id with
  | none => s
  | some c =>
    let code := if c.unreached ≠ 0 ∨ !c.skips.isEmpty then Code.partialDelivery
      else if c.droppedAll ≠ 0 then Code.capacityDropped else Code.ok
    let s := (s.count F.RTV_COLL_CNT_COUNT).count F.CTR_KNL_COUNT (16 * c.k + 9)
    endColl id code s

/-- A CANCEL met a collective all of whose chunks, as its declarations show now, had started (R215). -/
def cancelWasLost (c : Coll) (n : Nat) (s : State) : State :=
  if c.stopAt.isSome && (upto n).all c.begun.contains then modCmd c.k c.q c.seq (fun m => { m with cancelLost := true }) s
  else s

/-- The end of a data phase: of UPDATE's first its program starts, of any other the collective completes; one that a
CANCEL met before every chunk had started ends with CANCELLED (R215, R274). -/
def endPhase (id : Nat) (s : State) : State :=
  match findColl s id with
  | none => s
  | some c =>
    if c.isOver || c.phase == 1 || !c.admitted then s
    else
      let decls := !c.isVar || (Tbl.get c.outst declBlk 0 == 0 && (c.isBcast || c.topLead || c.declUp) &&
        (c.declDown || (c.isReduce && !c.topLead) || (c.isBcast && c.farRoot)))
      match c.chunks with
      | none => s
      | some n =>
        if c.stopAt.any fun m => m ≤ c.done && c.done < n then endColl id Code.cancelled s
        else if c.done < n || !decls then s
        else if c.stopAt.isSome && !((upto n).all c.begun.contains) then endColl id Code.cancelled s
        else if c.isUpdate && c.phase == 0 then
          let a := launchArgs c.launch
          let s := touchImage c.k a s
          let code := if a.reserved then Code.badDescriptor else checkImage s c.k a false
          if code ≠ 0 then endColl id code s
          else
            let s := modColl id (fun c => { c with phase := 1, prog := some s.isl.nextProg, spread := [], done := 0 }) s
            startProg c.k c.q c.seq a c.repro (some id) s
        else completeColl id (cancelWasLost c n s)

/-- Chain copies that must go to the next ordinal (R298). -/
def resend (id : Nat) (s : State) : State :=
  match findColl s id with
  | none => s
  | some c =>
    if c.isOver then s
    else c.redo.foldl (fun s r => sendChain id r.1 r.2.1 r.2.2 s) (modColl id (fun c => { c with redo := [] }) s)

/-- Everything of a collective that may go on goes on. DEDUCED, log entry 85: unsafe. -/
def advance (id : Nat) (s : State) : State :=
  let s := takeEarly id (resend id s)
  let s := spreadReady id (spreadDecl id (sendDeclUp id s))
  let n := ((findColl s id).bind fun c => c.chunks).getD 0
  askOwn id (endPhase id (countDone id n s))

/-- An access has been answered: when a collective asked for it, that goes on; `s` is the state before. -/
def advanceFor (s : State) (acc : Nat) (t : State) : State :=
  match s.pool.accs.find? fun a => a.id == acc with
  | none => t
  | some a =>
    match a.asker with
    | .retr id _ => advance id t
    | _ => t

def execHbmAccessDone (id : Nat) (errs : List Flip) (s : State) : Out :=
  live (fun s => advanceFor s id (accessDone id (disturb errs s))) s

def advanceAll (s : State) : State := s.rtv.colls.foldl (fun s c => advance c.id s) s

end Sys2Proof.Machine
end

