-- ==== Sys2Proof/Machine/Commands.lean ====
section
/-! DEFINITION. The commands of a queue (R198, R203 to R216, R226, R229, R230): descriptors read, commands validated and
started, cancelled and completed. -/

namespace Sys2Proof.Machine

/-! ## Reading descriptors (R198, R203) -/

/-- A power-down reads no descriptor and issues no command (R483). -/
def stopping (s : State) : Bool := s.pwr.seq == .down

/-- A sequence number in a run of `n` from `a` on. -/
def inRun (a : W32) (n : Nat) (x : W32) : Bool := (x - a).toNat < n

/-- A slot that cannot be read: a record with the status, OPC 0 and no signal (R198); CANCELLED when a CANCEL has reached
it (R215). -/
def badSlot (k q : Nat) (seq : W32) (code : Nat) (s : State) : State :=
  let skipped := (s.queue k q).any fun x => x.skip.contains seq
  let code := if skipped then Code.cancelled else code
  postRecord k { record := recordBytes code 0 q seq 0 0 s.nowNs, quietDrop := false, add := none }
    ((modQueue k q (fun y => { y with skip := y.skip.filter (· != seq) }) s).count F.CTR_KNL_COUNT (16 * k + 1))

/-- A command that ends before it issued: its record and, under SIGFAIL, its add (R206, R215). -/
def endUnissued (k q : Nat) (d : Desc) (code : Nat) (s : State) : State :=
  finishCmd { k := k, q := q, seq := d.seq, desc := d.bytes, opc := d.opc } code s

/-- A descriptor that has been read: put ahead of issue, or skipped when a CANCEL has reached it.
DEDUCED, log entry 84: unsafe. -/
def takeDesc (k q : Nat) (x : Queue) (b : List Byte) (s : State) : State :=
  let d : Desc := { seq := x.head, bytes := b }
  let s := scentLog k 1 0 q d.seq 0 [] (some d.bytes) s
  if x.skip.contains x.head then
    endUnissued k q d Code.cancelled
      (modQueue k q (fun y => { y with skip := y.skip.filter (· != x.head) }) s)
  else modQueue k q (fun y => { y with ahead := y.ahead ++ [d] }) s

/-- Reads the slot at HEAD and advances HEAD past it. -/
def readDesc (k q : Nat) (x : Queue) (s : State) : State :=
  let slot := x.head.toNat % 2 ^ x.log2
  let s := modQueue k q (fun y => { y with head := y.head + 1 }) s
  if s.part = .s then takeDesc k q x (Tbl.get x.ring slot (List.replicate 64 0)) s
  else
    let va := x.base + 64 * slot
    match pageEntry s k (va / 2 ^ 21), physAddr s k va with
    | some _, some pa =>
      if s.cryptoErr then badSlot k q x.head Code.checkFail s
      else match readBlock (pa / 64) s with
        | (true, s) => takeDesc k q x (readVa s k va 64) (s.count F.CTR_KNL_COUNT (16 * k + 6) 64)
        | (false, s) => badSlot k q x.head Code.checkFail s
    | _, _ => badSlot k q x.head Code.protection (walkRaise k va (.read 64) s)

def descriptorRead (k q : Nat) (s : State) : State :=
  match s.queue k q with
  | none => s
  | some x =>
    if (s.kennel k).st ≠ .open ∨ s.fatal ∨ stopping s ∨ (s.dieOut ∧ s.part ≠ .s) ∨ x.head = x.tail ∨
       16 ≤ x.ahead.length then s
    else readDesc k q x s

def execDescriptorRead (k q : Nat) (errs : List Flip) (s : State) : Out :=
  fabricUnit k 4096 (fun s => descriptorRead k q (disturb errs s)) s

/-! ## Issue (R204, R206, R226, R388) -/

/-- Whether the command at the head of a queue may issue. -/
def mayIssue (s : State) (k q : Nat) (x : Queue) (d : Desc) : Bool :=
  let kn := s.kennel k
  kn.st == .open && !stopping s && !x.collWait && !waitHolds' s k q && waitMet s k d && fenceMet s k q d &&
  (issuedOf s k q).length < 256 && s.cmds.length < 16384 && kn.held.isEmpty && !kn.ringFull && !scentHolds s k

/-- The header's tests for reserved bits (R205). -/
def headerBad (d : Desc) : Bool :=
  8 ≤ d.flags || bits d.waitw 14 12 != 0 || bits d.sigw 13 12 != 0

/-- The header's tests for whistle indices (R207). -/
def headerProt (s : State) (k : Nat) (d : Desc) : Bool :=
  let n := (s.kennel k).nWh
  (d.wen && n ≤ d.waitw % 4096) || (bit d.sigw 15 && n ≤ d.sigw % 4096)

/-- Bytes of a descriptor that its layout fixes at 0. -/
def nonzero (d : Desc) (lo hi : Nat) : Bool := ((d.bytes.drop lo).take (hi + 1 - lo)).any (· != 0)

/-- Tests of a command's own fields, in the steps of R207. -/
structure Tests where
  feature : Bool := false
  bad : Bool := false
  prot : Bool := false
  repro : Bool := false

/-- The status of validation (R207): the first failing step, 0 when none fails.
DESIGN CHOICE, log entry 77: unsafe. -/
def validate (s : State) (k : Nat) (d : Desc) (t : Tests) : Nat :=
  if 0x10 ≤ d.opc then Code.badOpcode
  else if t.feature || (bit d.flags 1 && !(s.kennel k).feature 14) then Code.featureNotAccepted
  else if headerBad d || t.bad then Code.badDescriptor
  else if headerProt s k d || t.prot then Code.protection
  else if t.repro then Code.notReproducible
  else Code.ok

/-- Issues the head of a queue when it is one of the opcodes `p` accepts and may issue: what it names is read, it is
validated, and started or ended with the status. DESIGN CHOICE, log entry 77: unsafe. -/
def issueReading (k q : Nat) (p : Nat → Bool) (reads : Desc → State → State) (check : State → Desc → Nat)
    (start : Cmd → State → State) (s : State) : State :=
  match s.queue k q, headOf s k q with
  | some x, some d =>
    if p d.opc && mayIssue s k q x d then
      let c : Cmd :=
        { k := k, q := q, seq := d.seq, desc := d.bytes, opc := d.opc,
          repro := bit d.flags 1 || (s.kennel k).repro, fen := d.fence, issuedAt := s.time }
      let s := reads d (modQueue k q (fun y => { y with ahead := y.ahead.drop 1 }) s)
      let code := check s d
      let s := { s with cmds := s.cmds ++ [c] }
      if code ≠ 0 then modCmd k q d.seq (fun c => { c.fail code with done := true }) s else start c s
    else s
  | _, _ => s

/-- Validation translates the ranges a command names once no earlier step of R207 has failed (R237). -/
def translate (k : Nat) (rs : List (Nat × Nat)) (code : Nat) (s : State) : State :=
  cond' (!([Code.badOpcode, Code.featureNotAccepted, Code.badDescriptor].contains code)) (walkRanges k rs) s

/-- Issue of a command whose validation translates the local ranges `rs`. -/
def issueRanges (k q : Nat) (p : Nat → Bool) (rs : State → Desc → List (Nat × Nat)) (check : State → Desc → Nat)
    (start : Cmd → State → State) (s : State) : State :=
  issueReading k q p (fun d s => translate k (rs s d) (check s d) s) check start s

/-- Issue of a command whose validation reads no memory. -/
def issue (k q : Nat) (p : Nat → Bool) (check : State → Desc → Nat) (start : Cmd → State → State) (s : State) : State :=
  issueReading k q p (fun _ s => s) check start s

/-- Changes an issued command. -/
def onCmd (c : Cmd) (f : Cmd → Cmd) (s : State) : State := modCmd c.k c.q c.seq f s

def finished (c : Cmd) : Cmd := { c with done := true }

/-- Ranks: the worst of their statuses, BAD_DESCRIPTOR and PROTECTION apart (R155). -/
def ranksBad (s : State) (k : Nat) (l : List Nat) : Bool := l.any fun r => (rankEid s k r).1 == Code.badDescriptor
def ranksProt (s : State) (k : Nat) (l : List Nat) : Bool := l.any fun r => (rankEid s k r).1 == Code.protection

/-! ## Short commands (R208, R209) -/

/-- NOP, and with it every reserved opcode, which fails validation. -/
def execNop (k q : Nat) (s : State) : Out :=
  fabricUnit k 4096 (issue k q (fun o => o == 0x00 || 0x10 ≤ o)
    (fun s d => validate s k d { bad := nonzero d 16 63 }) (fun c => onCmd c finished)) s

/-- WAIT issues at once, and completes when its condition holds. -/
def execWait (k q : Nat) (s : State) : Out :=
  fabricUnit k 4096 (issue k q (· == 0x01)
    (fun s d => validate s k d { bad := !d.wen || nonzero d 20 63 })
    (fun c s =>
      let v := s.whistle k (field c.desc 2 2 % 4096)
      onCmd c (fun c => { c with cnt0 := v.toNat, done := field c.desc 6 6 ≤ v.toNat }) s)) s

/-- TMO of a WAIT has expired. DESIGN CHOICE, log entry 8: safe. -/
def waitTimeout (k q : Nat) (seq : W32) (s : State) : State :=
  match findCmd s k q seq with
  | some c =>
    if c.opc = 0x01 ∧ !c.done ∧ field c.desc 16 4 ≠ 0 then
      onCmd c (fun c => { c.fail Code.timeout with done := true }) s
    else s
  | none => s

def execWaitTimeout (k q : Nat) (seq : W32) (s : State) : Out := fabricUnit k 4096 (waitTimeout k q seq) s

/-- SIGNAL: a local add is applied at once; a remote one waits for its packet's answer, once that is sent. -/
def execSignal (k q : Nat) (s : State) : Out :=
  fabricUnit k 4096 (issue k q (· == 0x02)
    (fun s d =>
      let remote := bit (field d.bytes 20 1) 0
      let rank := field d.bytes 16 2
      let w := field d.bytes 18 2
      validate s k d
        { bad := 4096 ≤ w || 2 ≤ field d.bytes 20 1 || nonzero d 21 23 || nonzero d 32 63 ||
            (remote && ranksBad s k [rank]),
          prot := if remote then ranksProt s k [rank] else (s.kennel k).nWh ≤ w })
    (fun c s =>
      if bit (field c.desc 20 1) 0 then s
      else onCmd c finished (applyAdd k (some (field c.desc 18 2, field c.desc 24 8)) s))) s

/-- FENCE waits for the commands issued before it in its scope. -/
def execFence (k q : Nat) (s : State) : Out :=
  fabricUnit k 4096 (issue k q (· == 0x0D)
    (fun s d => validate s k d { bad := 1 < field d.bytes 16 1 || nonzero d 17 63 })
    (fun c s =>
      let all := field c.desc 16 1 = 1
      let mine := s.cmds.filter fun m => m.k == k && (all || m.q == q) && !isCmd k q c.seq m
      onCmd c (fun c => { c with targets := mine.map fun m => (m.q, m.seq) }) s)) s

/-- The checks of an 8-byte store, which needs no 16-byte alignment (R209). -/
def store8 (k va : Nat) (s : State) : Option Nat × State := fullCheck k (va / 16 * 16) (.write (leBytes 16 0)) s

/-- TIMESTAMP completes when it issues. -/
def execTimestamp (k q : Nat) (s : State) : Out :=
  fabricUnit k 4096 (issueRanges k q (· == 0x0E) (fun _ d => if bit (field d.bytes 24 1) 0 then [(field d.bytes 16 6, 8)] else [])
    (fun s d =>
      let write := bit (field d.bytes 24 1) 0
      let va := field d.bytes 16 6
      validate s k d
        { feature := write && !(s.kennel k).feature 1,
          bad := nonzero d 22 23 || 2 ≤ field d.bytes 24 1 || nonzero d 25 63 || (write && va % 8 != 0),
          prot := write && !mapped s k va 8 })
    (fun c s =>
      let now := s.nowNs
      let va := field c.desc 16 6
      let s := onCmd c (fun c => { c with cnt0 := now, rd := 1 }) s
      if bit (field c.desc 24 1) 0 then
        match store8 k va s with
        | (some code, s) => onCmd c (fun c => { c.fail code with done := true }) s
        | (none, s) =>
          unitStore k va (leBytes 8 now) (.cmd k q c.seq 0) (onCmd c (fun c => { c with outst := c.outst + 1 }) s)
      else onCmd c finished s)) s

/-! ## COPY and FILL (R210) -/

/-- A COPY or a FILL starts: its accesses to the local pool follow one another, and its packets to a remote end. -/
def startMoving (c : Cmd) (s : State) : State := moveOn c.k c.q c.seq s

/-- The local ranges that a COPY names. -/
def copyRanges (d : Desc) : List (Nat × Nat) :=
  let b := d.bytes
  ((if bit (field b 36 1) 0 then [field b 16 6] else []) ++ (if bit (field b 36 1) 1 then [field b 24 6] else [])).map
    fun a => (a, field b 40 8)

def execCopy (k q : Nat) (s : State) : Out :=
  fabricUnit k 4096 (issueRanges k q (· == 0x03) (fun _ d => copyRanges d)
    (fun s d =>
      let b := d.bytes
      let fl := field b 36 1
      let n := field b 40 8
      let far := (if bit fl 0 then [] else [field b 32 2]) ++ (if bit fl 1 then [] else [field b 34 2])
      let near := (if bit fl 0 then [field b 16 6] else []) ++ (if bit fl 1 then [field b 24 6] else [])
      let kn := s.kennel k
      validate s k d
        { feature := (!near.isEmpty && !kn.feature 1) || (bit fl 2 && !kn.feature 16),
          bad := 8 ≤ fl || nonzero d 22 23 || nonzero d 30 31 || nonzero d 37 39 || nonzero d 48 63 ||
            field b 16 6 % 16 != 0 || field b 24 6 % 16 != 0 || n % 16 != 0 || n == 0 || 2 ^ 40 < n || ranksBad s k far,
          prot := near.any (fun a => !mapped s k a n) || ranksProt s k far }) startMoving) s

def execFill (k q : Nat) (s : State) : Out :=
  fabricUnit k 4096 (issueRanges k q (· == 0x04)
    (fun _ d => if bit (field d.bytes 26 1) 0 then [(field d.bytes 16 6, field d.bytes 40 8)] else [])
    (fun s d =>
      let b := d.bytes
      let fl := field b 26 1
      let n := field b 40 8
      let near := bit fl 0
      let kn := s.kennel k
      validate s k d
        { feature := (near && !kn.feature 1) || (bit fl 2 && !kn.feature 16),
          bad := fl != (fl &&& 5) || nonzero d 22 23 || nonzero d 27 31 || nonzero d 48 63 || field b 16 6 % 16 != 0 ||
            n % 16 != 0 || n == 0 || 2 ^ 40 < n || (!near && ranksBad s k [field b 24 2]),
          prot := if near then !mapped s k (field b 16 6) n else ranksProt s k [field b 24 2] }) startMoving) s

/-! ## ATOMIC (R211) -/

/-- The atomic that a descriptor asks for. -/
def descAtomic (d : List Byte) : PoolOp := atomOp (field d 27 1) (field d 32 8) (field d 40 8)

/-- A local atomic goes to the pool; a remote one waits for its packet's answer. -/
def startAtomic (c : Cmd) (s : State) : State :=
  let va := field c.desc 16 6
  let op := descAtomic c.desc
  if bit (field c.desc 26 1) 0 then
    match poolCheck s c.k va op false with
    | some code => onCmd c (fun c => { c.fail code with done := true }) (walkRaise c.k va op s)
    | none =>
      newAcc { id := 0, k := c.k, va := va, op := op, asker := .cmd c.k c.q c.seq 0 }
        (onCmd c (fun c => { c with outst := 1, rd := 1 }) s)
  else s

def execAtomic (k q : Nat) (s : State) : Out :=
  fabricUnit k 4096 (issueRanges k q (· == 0x05)
    (fun _ d => if bit (field d.bytes 26 1) 0 then [(field d.bytes 16 6, (descAtomic d.bytes).len)] else [])
    (fun s d =>
      let b := d.bytes
      let near := bit (field b 26 1) 0
      let op := descAtomic b
      let kn := s.kennel k
      validate s k d
        { feature := near && !(kn.feature 1 && kn.feature 2),
          bad := nonzero d 22 23 || 2 ≤ field b 26 1 || 4 ≤ field b 27 1 || nonzero d 28 31 || nonzero d 48 63 ||
            field b 16 6 % op.align != 0 || (!near && ranksBad s k [field b 24 2]),
          prot := if near then !mapped s k (field b 16 6) op.len else ranksProt s k [field b 24 2],
          repro := field b 27 1 == 2 && (bit d.flags 1 || kn.repro) }) startAtomic) s

/-! ## LAUNCH (R333) -/

/-- The image's checks follow the descriptor's, each in its step of R207; with the compute die out of service a LAUNCH
completes with CHECK_FAIL (R471). -/
def launchStatus (s : State) (k : Nat) (d : Desc) : Nat :=
  if s.dieOut then Code.checkFail else
  let a := launchArgs d.bytes
  let own := validate s k d { feature := !(s.kennel k).feature 5, bad := a.reserved }
  let img := checkImage s k a true
  if own = Code.featureNotAccepted ∨ img = Code.featureNotAccepted then Code.featureNotAccepted
  else if own = Code.badDescriptor ∨ img = Code.badDescriptor then Code.badDescriptor
  else if own ≠ 0 then own
  else img

def execLaunch (k q : Nat) (s : State) : Out :=
  fabricUnit k 4096 (issueReading k q (· == 0x06) (fun d => touchImage k (launchArgs d.bytes)) (fun s d => launchStatus s k d)
    (fun c s => startProg c.k c.q c.seq (launchArgs c.desc) c.repro none s)) s

/-! ## Collectives: issue (R271, R274, R284, R290) -/

/-- The status of a collective's validation: the header's tests and the descriptor's, step by step; one that uses the
compute die while that is out of service ends with CHECK_FAIL (R14, R471). -/
def collStatus (s : State) (k : Nat) (d : Desc) : Nat :=
  if s.dieOut && s.part != .s && (collOf s k 0 d.seq d.bytes false).usesPool then Code.checkFail else
  let own := validate s k d {}
  let c := checkColl s k d.bytes
  if own = Code.featureNotAccepted ∨ c = Code.featureNotAccepted then Code.featureNotAccepted
  else if own = Code.badDescriptor ∨ c = Code.badDescriptor then Code.badDescriptor
  else if own ≠ 0 then own else c

/-- Reads what a collective reads at issue: the key block of R284 and UPDATE's LAUNCH descriptor (R274).
DESIGN CHOICE, log entry 105: unsafe. -/
def collAtIssue (c : Coll) (laddr : Nat) (s : State) : Nat × Coll × State :=
  let (e, key, s) := if c.stoch then collRead c.k c.raddr 32 s else (0, [], s)
  let c := { c with seed := field key 0 16, step := field key 16 8, stream := field key 24 4 }
  if e ≠ 0 then (e, c, s)
  else
    let (e, l, s) := if c.isUpdate then collRead c.k laddr 64 s else (0, [], s)
    (e, { c with launch := l }, s)

/-- The Retriever takes a command's collective, which waits in its queue. -/
def enterColl (c : Cmd) (x : Coll) (s : State) : State :=
  let s := { s with rtv := { s.rtv with colls := s.rtv.colls ++ [x], nextId := s.rtv.nextId + 1 } }
  onCmd c (fun c => { c with coll := some x.id }) (modQueue c.k c.q (fun y => { y with collWait := true }) s)

/-- A validated collective waits in its queue for its admission; one that can never be admitted, or whose reads at issue
fail, ends at once, with a report as every other (R290, R301). -/
def startColl (c : Cmd) (s : State) : State :=
  let x := collOf s c.k c.q c.seq c.desc c.repro
  let w := s.rd F.RTV_CTL_WIN + 1
  let q := ({ x with repro := x.repro || s.rdB F.DET_CTL_NOFAST } : Coll).need w
  if stagingBytes < q ∨ quotaBytes s c.k < q then endColl x.id Code.resourceFull (enterColl c x s)
  else
    let (e, x, s) := collAtIssue x (field c.desc 58 6) s
    if e ≠ 0 then failColl x.id e (enterColl c x s) else enterColl c x s

def issueColl (k q opc : Nat) (s : State) : State :=
  issueRanges k q (· == opc)
    (fun s d => collUses (collOf s k q d.seq d.bytes false) (field d.bytes 58 6)) (fun s d => collStatus s k d) startColl s

def execBcast (k q : Nat) (s : State) : Out := fabricUnit k 4096 (issueColl k q 0x07) s
def execBcastv (k q : Nat) (s : State) : Out := fabricUnit k 4096 (issueColl k q 0x08) s
def execReduce (k q : Nat) (s : State) : Out := fabricUnit k 4096 (issueColl k q 0x09) s
def execReducev (k q : Nat) (s : State) : Out := fabricUnit k 4096 (issueColl k q 0x0A) s
def execAllred (k q : Nat) (s : State) : Out := fabricUnit k 4096 (issueColl k q 0x0B) s
def execUpdate (k q : Nat) (s : State) : Out := fabricUnit k 4096 (issueColl k q 0x0C) s

/-! ## CANCEL (R214 to R216) -/

/-- The flows of a packet that the crossbar has not granted yet. -/
def ungranted (s : State) (p : Packet) : List Flow :=
  s.xbr.flows.filter fun f => 144 ≤ f.inp && f.mirror.isNone && !f.admitted && f.hdr.dst == p.dst &&
    f.hdr.ktag == p.ktag && f.hdr.win == p.win && f.hdr.psn == p.psn && f.hdr.opc == p.opc

/-- The packets of a command that have not left. -/
def ownerOf (c : Cmd) : Owner → Bool
  | .cmd k q seq _ => k == c.k && q == c.q && seq == c.seq
  | _ => false

/-- Recalls what of a moving command has not been granted: its waiting requests are removed, and a packet none of whose
copies was granted is no longer outstanding. -/
def takeBack (c : Cmd) (s : State) : State :=
  (s.ni.outst.filter fun o => ownerOf c o.owner).foldl (fun s o =>
    let fs := ungranted s o.pkt
    if fs.isEmpty then s
    else
      let s := fs.foldl (fun s f => removeFlow f s) s
      if fs.length < o.copies then
        let less := fun (o : Outst) => { o with copies := o.copies - fs.length }
        { s with ni := { s.ni with outst := ListOps.update (sameRequest o.pkt) less s.ni.outst } }
      else
        onCmd c (fun c => { c with outst := c.outst - 1, pkts := c.pkts - 1 })
          { s with ni := { s.ni with outst := s.ni.outst.filter fun x => !sameRequest o.pkt x } }) s

/-- Whether a moving command has sent every packet, and all were granted. -/
def allGranted (s : State) (c : Cmd) : Bool :=
  let n := field c.desc 40 8
  let sent := match c.opc with
    | 0x03 => (bit (field c.desc 36 1) 0 || c.rd == n) && (bit (field c.desc 36 1) 1 || c.wr == n)
    | 0x04 => c.wr == n
    | _ => c.rd == 1
  sent && !(s.ni.outst.any fun o => ownerOf c o.owner && !(ungranted s o.pkt).isEmpty)

/-- A CANCEL reaches an issued command (R215). -/
def cancelIssued (c : Cmd) (s : State) : State :=
  let stop := onCmd c fun c => { c.fail Code.cancelled with cancelled := true, done := true }
  let lost := onCmd c fun c => { c with cancelLost := true }
  match c.opc with
  | 0x06 =>
    match c.prog.bind (findProg s) with
    | some p =>
      if p.cores.isEmpty then
        stop { s with isl := { s.isl with progs := s.isl.progs.filter fun x => x.id != p.id } }
      else lost s
    | none => lost s
  | 0x01 => stop s
  | 0x0D => stop s
  | 0x0F => stop s
  | o =>
    if 0x07 ≤ o ∧ o ≤ 0x0C then
      match c.coll.bind (findColl s) with
      | none => lost s
      | some x =>
        if !x.admitted then endColl x.id Code.cancelled s
        else
          let far := x.chunks.any fun n => (upto n).all x.started
          if x.stopAt.isSome then s
          else if far || x.phase ≠ 0 then lost s
          else
            let l := (upto x.capChunks).filter x.started
            let m := l.foldl (fun a i => max a (i + 1)) 0
            let s := onCmd c (fun c => { c with cancelled := true })
              (modColl x.id (fun y => { y with stopAt := some m, begun := l }) s)
            advance x.id s
    else if allGranted s c then lost s
    else
      let s := takeBack c s
      let s := onCmd c (fun c => { c.fail Code.cancelled with cancelled := true }) s
      onCmd c Cmd.settle s

/-- CANCEL: the commands it reaches are named as its targets. DEDUCED, log entry 84: unsafe. -/
def startCancel (c : Cmd) (s : State) : State :=
  let k := c.k
  let q := field c.desc 16 1
  let from' : W32 := BitVec.ofNat 32 (field c.desc 20 4)
  let n := field c.desc 24 4
  match s.queue k q with
  | none => onCmd c finished s
  | some x =>
    let live := (issuedOf s k q).filter fun m => inRun from' n m.seq && !m.done
    let read := x.ahead.filter fun d => inRun from' n d.seq
    let unread := ((upto (x.tail - x.head).toNat).map fun i => x.head + BitVec.ofNat 32 i).filter fun i =>
      inRun from' n i && !x.skip.contains i
    let s := modQueue k q (fun y =>
      { y with ahead := y.ahead.filter fun d => !inRun from' n d.seq, skip := y.skip ++ unread }) s
    let s := live.foldl (fun s m => cancelIssued m s) s
    let s := read.foldl (fun s d => endUnissued k q d Code.cancelled s) s
    let reached := live.length + read.length + unread.length
    onCmd c (fun c => { c with cnt0 := reached, targets := (live.map (·.seq) ++ unread).map fun i => (q, i) }) s

def execCancel (k q : Nat) (s : State) : Out :=
  fabricUnit k 4096 (issue k q (· == 0x0F)
    (fun s d =>
      let b := d.bytes
      let n := field b 24 4
      let tq := field b 16 1
      let ahead := (d.seq - BitVec.ofNat 32 (field b 20 4)).toNat
      validate s k d
        { bad := 16 ≤ tq || nonzero d 17 19 || n == 0 || 65536 < n || nonzero d 28 63 ||
            (tq == q && (ahead == 0 || 2 ^ 31 ≤ ahead || ahead < n)) }) startCancel) s

/-! ## Completion (R220, R226, R229) -/

/-- A command whose effects are complete writes its record and gives its signal. -/
def completeOne (k q : Nat) (seq : W32) (s : State) : State :=
  let s := match (findCmd s k q seq).bind (·.coll) with
    | some id => advance id s
    | none => s
  match findCmd s k q seq with
  | none => s
  | some c =>
    if isDone s c then
      let s := match c.coll with
        | some id => closeColl id c.finalStatus s
        | none => s
      let c := (findCmd s k q seq).getD c
      finishCmd c.counted c.finalStatus s
    else s

/-- The commands that go before a reproducible command's record: those of its kennel, reproducible too and complete, with a
lower queue or, in its queue, issued before it (R225, R230). -/
def recordsBefore (s : State) (c : Cmd) : List Cmd :=
  ((kennelCmds s c.k).takeWhile fun m => !isCmd c.k c.q c.seq m).filter fun m => m.repro && isDone s m

/-- A command completes; in reproducible mode the completions of one cycle are written by queue and then sequence number.
DEDUCED, log entry 84: unsafe. -/
def complete (k q : Nat) (seq : W32) (s : State) : State :=
  let first := match findCmd s k q seq with
    | some c => if c.repro && isDone s c then recordsBefore s c else []
    | none => []
  completeOne k q seq (first.foldl (fun s m => completeOne m.k m.q m.seq s) s)

def execCommandComplete (k q : Nat) (seq : W32) (s : State) : Out := fabricUnit k 4096 (complete k q seq) s

end Sys2Proof.Machine
end

