-- ==== Sys2Proof/Machine/SlotM.lean ====
section
/-! DEFINITION. The M slot: static posts, transfers, core network sends, whistles, waits and posted completion records
(R356 to R363). -/

namespace Sys2Proof.Machine

/-! ## Encodings that depend on the program (R358, R363) -/

/-- In a program whose image sets SEALED, an M instruction outside the sealed set is a reserved encoding. -/
def unsealed (s : State) (c : Nat) : Bool := (coreProg s c).all fun p => !p.sealed_

def isStatic (s : State) (c : Nat) : Bool := (coreProg s c).any fun p => p.static

/-- The kennel of the program on a core. -/
def coreKennel (s : State) (c : Nat) : Nat := ((coreProg s c).map (·.k)).getD 0

/-! ## Transfers -/

/-- Adds a transfer to a core's move engine. -/
def Core.addMove (x : Core) (t ctr : Nat) (op : MoveOp) : Core :=
  { x with moves := x.moves ++ [{ id := x.nextMove, ctr := ctr, op := op, issued := t }], nextMove := x.nextMove + 1 }

/-- Transfers that have issued but not started; Static posts do not wait. -/
def Core.waitingMoves (x : Core) : Nat :=
  (x.moves.filter fun m => (m.op.post?).isNone && !m.started).length

/-- Issues a transfer: the queue takes 1,024 that have not started, and one more fails the program (R359). -/
def issueMove (c : Nat) (ctr : BitVec 3) (op : MoveOp) (s : State) : State :=
  if 1024 ≤ (s.core c).waitingMoves then failCore c Code.resourceFull s
  else startMoves c (coreKennel s c) (s.modCore c fun x => x.addMove s.cyc.toNat ctr.toNat op)

/-- A rank operand, for a remote transfer. -/
def rankOf (x : Core) (rem : Bool) (rr : BitVec 5) : Option Nat :=
  if rem then some ((x.sreg rr.toNat).toNat % 2 ^ 16) else none

/-- The status of a remote rank, 0 when the transfer is local or the rank names an endpoint. -/
def rankStatus (s : State) (c : Nat) (r : Option Nat) : Nat :=
  match r with
  | some n => (rankEid s (coreKennel s c) n).1
  | none => 0

/-- Fails the program with a status other than 0, and goes on otherwise. -/
def orFail (c code : Nat) (f : State → State) (s : State) : State := if code ≠ 0 then failCore c code s else f s

def usesMD (s : State) (c : Nat) (f : MD) (x : Core) : Uses :=
  let n := (x.sreg f.nr.toNat).toNat
  let l := (x.sreg f.lr.toNat).toNat
  { bad := f.rsv != 0 || !unsealed s c,
    s := [f.vr.toNat, f.lr.toNat, f.nr.toNat] ++ (if f.rem then [f.rr.toNat] else []),
    other := if 1 ≤ n ∧ n ≤ 32768 ∧ spadLines < l + n then some Cause'.addr else none }

/-- A line count of 1 to 32,768. DEDUCED, log entry 86: unsafe. -/
def countStatus (n : Nat) : Nat := if 1 ≤ n ∧ n ≤ 32768 then 0 else Code.badDescriptor

/-- The first status that is not 0. -/
def firstStatus (l : List Nat) : Nat := (l.find? (· != 0)).getD 0

def execMnop (c : Nat) (g : Guard) (f : NoFmt) (s : State) : Out := slotCmd c (nopSlot c g f) s

def execMld (c : Nat) (g : Guard) (f : MD) (s : State) : Out :=
  slotCmd c (slotS c g (usesMD s c f) fun s =>
    let x := s.core c
    let n := (x.sreg f.nr.toNat).toNat
    let r := rankOf x f.rem f.rr
    orFail c (firstStatus [countStatus n, rankStatus s c r])
      (issueMove c f.ctr (.load (x.sreg f.vr.toNat).toNat (x.sreg f.lr.toNat).toNat n r)) s) s

/-- DEDUCED, log entry 31: unsafe. -/
def execMst (c : Nat) (g : Guard) (f : MD) (s : State) : Out :=
  slotCmd c (slotS c g (usesMD s c f) fun s =>
    let x := s.core c
    let n := (x.sreg f.nr.toNat).toNat
    let r := rankOf x f.rem f.rr
    let twin := if f.twin && !(s.kennel (coreKennel s c)).feature 16 then Code.featureNotAccepted else 0
    orFail c (firstStatus [twin, countStatus n, rankStatus s c r])
      (issueMove c f.ctr (.store (x.sreg f.vr.toNat).toNat (x.sreg f.lr.toNat).toNat n r f.twin)) s) s

def usesMA (s : State) (c : Nat) (f : MA) : Uses :=
  { bad := f.rsv != 0 || !unsealed s c,
    s := [f.vr.toNat, f.opr.toNat] ++ (if f.aop = 3 then [f.cr.toNat] else []) ++
      (if f.rem then [f.rr.toNat] else []),
    other := if spadLines ≤ f.line.toNat then some Cause'.addr else none }

def execMatom (c : Nat) (g : Guard) (f : MA) (s : State) : Out :=
  slotCmd c (slotS c g (fun _ => usesMA s c f) fun s =>
    let x := s.core c
    let r := rankOf x f.rem f.rr
    let repro := if f.aop = 2 ∧ (coreProg s c).any (·.repro) then Code.notReproducible else 0
    orFail c (firstStatus [rankStatus s c r, repro])
      (issueMove c f.ctr (.atom (x.sreg f.vr.toNat).toNat f.aop.toNat (x.sreg f.opr.toNat)
        (x.sreg f.cr.toNat) r f.line.toNat)) s) s

/-! ## Static posts (R358) -/

/-- The start of the entry an msp issued in cycle `t` names. -/
def postStart (f : MS) (t : Nat) : Nat := (t / passCycles + b2n f.wrap) * passCycles + 18 * f.entry.toNat

def usesMS (s : State) (c : Nat) (f : MS) (x : Core) : Uses :=
  let t := s.cyc.toNat
  let n := f.nm1.toNat + 1
  let write := (slotEntry s f.entry.toNat).dir == 1
  { bad := f.rsv != 0 || !isStatic s c, s := [f.vr.toNat],
    lines := if write then lineRun f.line.toNat n else [],
    other := if spadLines < f.line.toNat + n then some Cause'.addr
      else if postRefused s c (coreKennel s c) x t f.entry.toNat (postStart f t) (x.sreg f.vr.toNat).toNat n then
        some Cause'.staticSlot
      else none }

def execMsp (c : Nat) (g : Guard) (f : MS) (s : State) : Out :=
  slotCmd c (slot c g (usesMS s c f) fun t x =>
    let n := f.nm1.toNat + 1
    let va := (x.sreg f.vr.toNat).toNat
    let st := postStart f t
    x.addMove t f.ctr.toNat
      (if (slotEntry s f.entry.toNat).dir = 1 then
        .postWrite st va ((lineRun f.line.toNat n).map x.line)
      else .postRead st va f.line.toNat n)) s

/-! ## The core network (R324, R325) -/

/-- The core network slot of cycle `t` allows logical core `i` of `n` to send to `d`. -/
def slotAllows (n t t0 i d : Nat) : Bool :=
  let k := (t - t0) % n
  k != 0 && (i + k) % n == d

def usesMN (s : State) (c : Nat) (f : MN) (x : Core) : Uses :=
  let line := x.lineAt f.lr.toNat (f.loff.zeroExtend 64)
  { bad := f.rsv != 0, s := [f.lr.toNat], v := [f.vs.toNat],
    other := match coreProg s c with
      | some p =>
        if !slotAllows p.ncore s.cyc.toNat (p.t0.getD 0) x.lidx f.dst.toNat then some Cause'.slot
        else if spadLines ≤ line then some Cause'.addr else none
      | none => some Cause'.slot }

def execMsend (c : Nat) (g : Guard) (f : MN) (s : State) : Out :=
  slotCmd c (slotS c g (usesMN s c f) fun s =>
    let x := s.core c
    match (coreProg s c).bind fun p => p.cores[f.dst.toNat]? with
    | none => s
    | some d =>
      let n : NetLine :=
        { due := s.cyc.toNat + 20, src := c, line := x.lineAt f.lr.toNat (f.loff.zeroExtend 64),
          data := laneBytes (laneGroup (x.vreg f.vs.toNat) f.li.toNat) }
      (s.modCore d fun y => { y with net := y.net ++ [n] }).count F.CTR_CORE_COUNT (8 * c + 5)) s

/-! ## Whistles, waits and posts (R360, R361) -/

/-- A whistle index at or beyond the kennel's whistle count. DEDUCED, log entry 30: unsafe. -/
def whistleStatus (s : State) (c w : Nat) : Nat :=
  if (s.kennel (coreKennel s c)).nWh ≤ w then Code.protection else 0

def usesMW (s : State) (c : Nat) (f : MW) (out far : Bool) : Uses :=
  { bad := f.rsv != 0 || (out && !unsealed s c), s := f.sr.toNat :: (if far && f.rem then [f.rr.toNat] else []) }

def execWhs (c : Nat) (g : Guard) (f : MW) (s : State) : Out :=
  slotCmd c (slotS c g (fun _ => usesMW s c f true true) fun s =>
    let x := s.core c
    let r := rankOf x f.rem f.rr
    orFail c (firstStatus [rankStatus s c r, whistleStatus s c f.widx.toNat])
      (issueMove c f.ctr (.whs f.widx.toNat (x.sreg f.sr.toNat) r)) s) s

/-- Whether a waiting core's condition holds; an add of this cycle makes it true from the next one on (R360). -/
def waitHolds (s : State) (c : Nat) : Wait → Bool
  | .whistle w thr => BitVec.ule thr (seenWhistle s (coreKennel s c) w)
  | .counter m thr => BitVec.ule thr ((s.core c).mreg m)

/-- A wait: the bundle of a core that has just been released issues; any other tests its condition, and the core
waits when it does not hold. -/
def wait (c : Nat) (w : Wait) (s : State) : State :=
  if (s.core c).resumeAt = s.cyc.toNat ∧ s.cyc ≠ 0 ∨ waitHolds s c w then s
  else s.modCore c fun x => { x with waiting := some w }

/-- DEDUCED, log entry 86: unsafe. -/
def execWaitw (c : Nat) (g : Guard) (f : MW) (s : State) : Out :=
  slotCmd c (slotS c g (fun _ => usesMW s c f true false) fun s =>
    orFail c (whistleStatus s c f.widx.toNat)
      (wait c (.whistle f.widx.toNat ((s.core c).sreg f.sr.toNat))) s) s

def execWaitm (c : Nat) (g : Guard) (f : MW) (s : State) : Out :=
  slotCmd c (slotS c g (fun _ => usesMW s c f false false) fun s =>
    wait c (.counter f.ctr.toNat ((s.core c).sreg f.sr.toNat)) s) s

def execPost (c : Nat) (g : Guard) (f : MP) (s : State) : Out :=
  slotCmd c (slotS c g (fun _ => { bad := f.rsv != 0 || !unsealed s c, s := [f.a.toNat, f.b.toNat] }) fun s =>
    let x := s.core c
    issueMove c f.ctr (.post (x.sreg f.a.toNat) (x.sreg f.b.toNat)) s) s

end Sys2Proof.Machine
end

