-- ==== Sys2Proof/Machine/Programs.lean ====
section
/-! DEFINITION. Programs on the compute cores (R322 to R324, R329, R330, R334 to R337, R342, R357, R360, R385, R390,
R491): cores claimed and loaded, the start, results and lines that reach their registers, and the end. -/

namespace Sys2Proof.Machine

/-! ## The governor's view of the cores (R488, R489, R491, R503) -/

/-- The goal of a core: 64 while claimed or running, or held after a program's end. -/
def coreGoal (s : State) (c : Nat) : Nat :=
  let x := s.core c
  if x.st = .load ∨ x.st = .run ∨ (x.held ∧ !s.rdB F.PWR_STS_THROT) then 64 else 0

/-- The present cores. DESIGN CHOICE, log entry 18: unsafe. -/
def presentCores (s : State) : List Nat := (upto 32).filter (bit s.part.cores)

/-- GCAP in mW, from the ACTIVE bank or its template. -/
def gcap (s : State) : Nat := 1000 * (if s.spg.active.power.isEmpty then 1300 else field s.spg.active.power 4 2)

/-- UNIT in mW. -/
def govUnit (s : State) : Nat := s.rd F.PWR_GOV_UNIT

/-- A program that alone exceeds GCAP. -/
def overCap (s : State) (p : Prog) : Bool := gcap s < 64 * p.ncore * govUnit s

/-- The sum of goals leaves room for a program. DEDUCED, log entry 88: unsafe. -/
def capRoom (s : State) (p : Prog) : Bool :=
  ((presentCores s).foldl (fun n c => n + coreGoal s c) 0 + 64 * p.ncore) * govUnit s ≤ gcap s

/-! ## Claiming cores (R334, R491) -/

/-- The IDLE cores of a kennel. DESIGN CHOICE, log entry 78: unsafe. -/
def idleCores (s : State) (k : Nat) : List Nat := (heldCores s k).filter fun c => (s.core c).st == .idle

/-- The cores that a program would claim, in logical order. DESIGN CHOICE, log entry 78: unsafe. -/
def coresFor (s : State) (p : Prog) : Option (List Nat) :=
  let idle := idleCores s p.k
  match p.placed with
  | some m =>
    let l := (upto 32).filter (bit m)
    if l.all idle.contains then some l else none
  | none => if p.ncore ≤ idle.length then some (idle.take p.ncore) else none

/-- The named cores become the program's. -/
def claim (p : Prog) (l : List Nat) (s : State) : State :=
  let s := (l.zipIdx).foldl (fun s x =>
    (s.modCore x.1 fun y => { y with st := .load, prog := some p.id, lidx := x.2 }).wr F.CMP_FLT_CAUSE 0 x.1) s
  modProg p.id (fun p => { p with cores := l }) s

/-- DESIGN CHOICE, log entry 78: unsafe. -/
def coreClaim (k q : Nat) (seq : W32) (s : State) : State :=
  match ((findCmd s k q seq).bind (·.prog)).bind (findProg s) with
  | none => s
  | some p =>
    if !p.cores.isEmpty then s
    else if overCap s p then endProg p.id Code.resourceFull 0 s
    else if (p.static && (staticPending s || s.rd F.POL_STS_CUR == 0)) || !capRoom s p then s
    else match coresFor s p with
      | none => s
      | some l => claim p l s

def execCoreClaim (k q : Nat) (seq : W32) (s : State) : Out := computeUnit k 4096 (coreClaim k q seq) s

/-! ## Loading (R335) -/

/-- The ranges of the pool that a logical core loads. -/
def loadRanges (p : Prog) (i : Image) (n : Nat) : List (Nat × Nat) :=
  let mine := (upto (min i.nseg 1024)).filter fun j => (i.seg j).2.1 == n
  (p.paddr + (i.text n).1, 32 * (i.text n).2) :: mine.map fun j => (p.paddr + (i.seg j).1, (i.seg j).2.2.2)

/-- Bundles of a text by index. -/
def bundlesOf (b : List Byte) : Tbl Nat :=
  (upto (b.length / 32)).map fun j => (j, leVal ((b.drop (32 * j)).take 32))

/-- The lines of a segment. -/
def segLines (b : List Byte) : List (List Byte) := (upto (b.length / 64)).map fun j => (b.drop (64 * j)).take 64

/-- The state that a core starts a program with; a line of an earlier program that is still on the core network has landed
by then. -/
def Core.loaded (x : Core) (p : Prog) (text : List Byte) (n : Nat) : Core :=
  let x := x.net.foldl (fun x n => x.setLine n.line n.data) x
  { x with s := [(1, x.lidx), (2, p.ncore), (3, p.aadr.toNat)].filter fun e => e.2 != 0,
           p := 1, v := [], acc := [], latch := [], x := [], m := [], step := p.step, seed := p.seed,
           text := bundlesOf text, nbun := n, pc := 0, jumps := [], ended := none, waiting := none, resumeAt := 0,
           pend := [], tBusy := [], lUse := [], lWr := [], accNext := [], accReady := [], accWas := [], vBusy := [], banks := [],
           moves := [], net := [] }

/-- The load of a claimed core ends. -/
def programLoadDone (c : Nat) (s : State) : State :=
  let x := s.core c
  match coreProg s c with
  | none => s
  | some p =>
    if x.st ≠ .load ∨ p.loaded.contains x.lidx then s
    else
      let a : LaunchArgs := { paddr := p.paddr, aadr := 0, step := 0, ncore := p.ncore, tlim := 0, seed := 0, reserved := false }
      let i := readImage s p.k a
      let rs := loadRanges p i x.lidx
      let s := touch p.k rs s
      if i.cores.isNone || i.segs.isNone || rs.any fun r => !mapped s p.k r.1 r.2 then failProg p.id Code.protection s
      else if rs.any fun r => unreadable s p.k r.1 r.2 then failProg p.id Code.checkFail s
      else
        let text := (imgText s p.k a i x.lidx).getD []
        let x := x.loaded p text (i.text x.lidx).2
        let segs := (upto (min i.nseg 1024)).filter fun j => (i.seg j).2.1 == x.lidx
        let x := segs.foldl (fun x j =>
          let (src, _, dst, len) := i.seg j
          x.setLines (dst / 64) (segLines (readVa s p.k (p.paddr + src) len))) x
        let s := s.count F.CTR_KNL_COUNT (16 * p.k + 6) (rs.foldl (fun n r => n + r.2) 0)
        let t := s.cyc.toNat
        modProg p.id (fun p => { p with loaded := p.loaded ++ [x.lidx], lastLoad := t }) (s.setCore c x)

def execProgramLoadDone (c : Nat) (s : State) : Out := computeUnit c 32 (programLoadDone c) s

/-! ## The start (R336, R385, R389, R491) -/

/-- The START barrier armed for a program's command. -/
def barrierOf (s : State) (p : Prog) : Option Start :=
  s.det.barriers.find? fun b => b.k == p.k && b.q == p.q && b.seq == p.seq

/-- The conditions of R336 other than the barrier's cycle. -/
def startable (s : State) (p : Prog) : Bool :=
  let t := s.cyc.toNat
  !p.running && !p.cores.isEmpty && p.loaded.length == p.ncore && p.lastLoad + 64 ≤ t &&
  (!p.static || t % passCycles == 0) && p.cores.all fun c => (s.core c).level == 64

/-- Whether this cycle is the program's T0. -/
def atStart (s : State) (p : Prog) : Bool :=
  startable s p && (barrierOf s p).all fun b => b.cycle ≤ s.cyc.toNat

/-- A barrier is disarmed. -/
def disarm (k q : Nat) (seq : W32) (s : State) : State :=
  let left := s.det.barriers.filter fun b => !(b.k == k && b.q == q && b.seq == seq)
  { s with det := { s.det with barriers := left } }

def programStart (pid : Nat) (s : State) : State :=
  match findProg s pid with
  | none => s
  | some p =>
    if !atStart s p then s
    else
      let t := s.cyc.toNat
      let b := barrierOf s p
      let missed := b.any fun b => b.cycle != t
      let s := if missed then s.count F.DET_MISS_CNT_COUNT else s
      let s := disarm p.k p.q p.seq s
      let s := p.cores.foldl (fun s c => s.modCore c fun x => { x with st := .run }) s
      let s := modProg pid (fun p => { p with t0 := some t, running := true }) s
      scentLog p.k 6 (2 * b2n missed) p.ncore p.seq p.step.toNat (leBytes 16 p.seed.toNat) none s

def execProgramStart (pid : Nat) (s : State) : Out := onCompute (programStart pid) s

/-! ## Results and lines that arrive (R310, R312, R322, R324, R342) -/

/-- An accumulator is cleared; in order-free mode its odd partner's storage is taken (R311, R312).  A tmma whose result
comes later than the clear keeps its result. -/
def Core.clearTile (x : Core) (a : Nat) (mode : Bool) (eb : Int) (due : Nat) : Core :=
  if due < Tbl.get x.accReady a 0 then x
  else
    let x := x.setTile a { free := mode, eb := if mode then eb else 0 }
    if mode && a % 2 == 0 then x.setTile (a + 1) { x.tile (a + 1) with lost := true } else x

/-- The plain results. -/
def Core.applyRes (x : Core) (q : Pend) : Core :=
  match q.res with
  | .s r v => if r = 0 then x else { x with s := Tbl.put x.s r v.toNat 0 }
  | .p r v => if r = 0 then x else
      { x with p := if v then x.p ||| ((1 : BitVec 8) <<< r) else x.p &&& ~~~((1 : BitVec 8) <<< r) }
  | .v r l => { x with v := Tbl.put x.v r l zeroLanes }
  | .vGroups r i l => { x with v := Tbl.put x.v r (putLanes (x.vreg r) i l) zeroLanes }
  | .vBytes r o b => { x with v := Tbl.put x.v r (wordsOf 512 (putBytes (laneBytes (x.vreg r)) o b)) zeroLanes }
  | .x r v => { x with x := Tbl.put x.x r (v.toNat % 2 ^ 304) 0 }
  | .xScale r n v => { x with x := Tbl.put x.x r (putBits (x.xreg r) 0 (8 * n) v) 0 }
  | .xTscale r v => { x with x := Tbl.put x.x r (putBits (x.xreg r) 256 32 v.toNat) 0 }
  | .xEb r v => { x with x := Tbl.put x.x r (putBits (x.xreg r) 288 16 v.toNat) 0 }
  | .step v => { x with step := v }
  | .tile a m eb => x.clearTile a m eb q.due
  | .latch i o => { x with latch := Tbl.set x.latch i o.bytes }
  | .tlbTail i o => { x with pend := x.pend ++ [{ issued := q.issued, due := q.issued + 8, res := .latch i (o.read x) }] }
  | .tmmaTail _ _ _ _ _ => x

/-- A result whose latency ends. -/
def landResult (c : Nat) (q : Pend) (s : State) : State :=
  match q.res with
  | .tmmaTail mask acc ls _ o => tmmaApply c mask acc ls (o.read (s.core c)) s
  | _ => s.modCore c fun x => x.applyRes q

/-- Every result of a core that this cycle's bundles may read is written. -/
def resultWriteback (c : Nat) (s : State) : State :=
  let t := s.cyc.toNat
  let x := s.core c
  let s := s.setCore c { x with pend := x.pend.filter fun q => t < q.due, banks := x.banks.filter fun b => t ≤ b.1 }
  (x.pend.filter fun q => q.due ≤ t).foldl (fun s q => landResult c q s) s

def execResultWriteback (c : Nat) (s : State) : Out := computeUnit c 32 (resultWriteback c) s

/-- One line lands in its fixed cycle; it meets another access of its bank with cause BANK (R321).
DESIGN CHOICE, log entry 25: unsafe. -/
def landLine (c line : Nat) (d : List Byte) (s : State) : State :=
  let x := s.core c
  let t := s.cyc.toNat
  let b := line % 48
  if (x.banksAt t).contains b ∧ x.st = .run then hazardStop c Cause'.bank s
  else s.setCore c { x.setLine line d with banks := x.banks ++ [(t, b)] }

/-- The lines of Static read entries that land in this cycle. -/
def staticLanding (c : Nat) (s : State) : State :=
  (staticLandings (s.core c) s.cyc.toNat).foldl (fun s y =>
    match findMove s c y.1 with
    | none => s
    | some m =>
      let n := (m.op.post?.map fun p => p.2.2).getD 0
      match m.data with
      | d :: rest =>
        if m.served && y.2.1 + m.data.length == n then
          landLine c y.2.2 d (modMove c y.1 (fun m => { m with data := rest }) s)
        else s
      | [] => s) s

def execStaticLanding (c : Nat) (s : State) : Out := computeUnit c 32 (staticLanding c) s

/-- The lines of the core network that land in this cycle (R324). -/
def networkLanding (c : Nat) (s : State) : State :=
  let t := s.cyc.toNat
  let x := s.core c
  (x.net.filter fun n => n.due ≤ t).foldl (fun s n => landLine c n.line n.data s)
    (s.setCore c { x with net := x.net.filter fun n => t < n.due })

def execNetworkLanding (c : Nat) (s : State) : Out := computeUnit c 32 (networkLanding c) s

/-! ## Transfers and waits (R357, R360) -/

/-- A transfer is complete: its move counter goes up by 1. -/
def moveComplete (c id : Nat) (s : State) : State :=
  match findMove s c id with
  | none => s
  | some m =>
    if !m.done s.cyc.toNat then s
    else
      let s := s.modCore c fun x =>
        { x with moves := x.moves.filter fun y => y.id != id, m := Tbl.put x.m m.ctr (x.mreg m.ctr + 1).toNat 0 }
      let s := s.count F.CTR_CORE_COUNT (8 * c + 4) m.op.bytes
      startMoves c ((coreProg s c).map (·.k) |>.getD 0) s

def execMoveComplete (c id : Nat) (s : State) : Out := computeUnit c 32 (moveComplete c id) s

/-- A waiting bundle whose condition holds issues in the next cycle. -/
def waitResume (c : Nat) (s : State) : State :=
  match (s.core c).waiting with
  | none => s
  | some w =>
    if waitHolds s c w then s.modCore c fun x => { x with waiting := none, resumeAt := s.cyc.toNat + 1 } else s

def execWaitResume (c : Nat) (s : State) : Out := computeUnit c 32 (waitResume c) s

/-! ## The end (R337, R390) -/

/-- Every core has ended and every request has been answered. -/
def allEnded (s : State) (p : Prog) : Bool :=
  p.running && p.cores.all fun c =>
    let x := s.core c
    x.ended.isSome && x.moves.all fun m => m.done s.cyc.toNat

/-- The last cycle in which an end instruction issued. -/
def lastEnd (s : State) (p : Prog) : Nat := p.cores.foldl (fun n c => max n ((s.core c).ended.getD 0)) 0

/-- Digests that the program's end calls for. -/
def digestsDue (s : State) (p : Prog) : Bool :=
  !p.digested && ((s.scent p.k).map (·.nDig)).getD 0 != 0

/-- One region of the digest table: its record, without a digest when the region or its entry fails R241's tests.
DESIGN CHOICE, log entry 98: unsafe. -/
def digestRegion (p : Prog) (i : Nat) (x : Scent) (stepEnd : Nat) (s : State) : State :=
  let ent := x.dig + 16 * i
  let (bad, s) := fullCheck p.k ent (.read 16) s
  let e := readVa s p.k ent 16
  let va := field e 0 8
  let n := field e 8 8
  let (bad, s) := if bad.isSome then (bad, s) else fullCheck p.k va (.read n) s
  let ok := bad.isNone && va % 64 == 0 && n % 64 == 0
  let s := if ok then s.count F.CTR_KNL_COUNT (16 * p.k + 6) n else s
  scentLog p.k 7 (b2n !ok) i p.seq stepEnd (e.take 16) (if ok then some (readVa s p.k va n) else none) s

/-- The tensor digests of an ended program are written, in table order. -/
def tensorDigestDone (pid : Nat) (s : State) : State :=
  match findProg s pid with
  | none => s
  | some p =>
    match s.scent p.k with
    | none => s
    | some x =>
      if !allEnded s p || !digestsDue s p then s
      else
        let st := ((p.cores.head?).map fun c => (s.core c).step.toNat).getD 0
        let s := (upto x.nDig).foldl (fun s i => digestRegion p i x st s) s
        modProg pid (fun p => { p with digested := true }) s

def execTensorDigestDone (pid : Nat) (s : State) : Out := onCompute (tensorDigestDone pid) s

/-- The program ends with OK; results and lines still in flight arrive on schedule (R324, R347). -/
def programEnd (pid : Nat) (s : State) : State :=
  match findProg s pid with
  | none => s
  | some p =>
    if !allEnded s p || digestsDue s p then s
    else
      endProg pid 0 (lastEnd s p - p.t0.getD 0) s

def execProgramEnd (pid : Nat) (s : State) : Out := onCompute (programEnd pid) s

/-- TLIM expires before the program has ended. -/
def launchTimeLimit (pid : Nat) (s : State) : State :=
  match findProg s pid with
  | none => s
  | some p => if p.tlim = 0 ∨ allEnded s p then s else failProg pid Code.timeout s

def execLaunchTimeLimit (pid : Nat) (s : State) : Out := onCompute (launchTimeLimit pid) s

/-! ## The end of a scrub (R329, R330) -/

def scrubDone (c : Nat) (clean : Bool) (s : State) : State :=
  if (s.core c).st ≠ .scrub then s
  else
    let s := s.wr F.CMP_SCRUB_BUSY (clearBits (s.rd F.CMP_SCRUB_BUSY) (2 ^ c))
    if clean then
      (upto 8).foldl (fun s i => s.wr F.CTR_CORE_COUNT 0 (8 * c + i)) (s.setCore c { nextMove := (s.core c).nextMove })
    else
      let s := (s.modCore c fun x => { x with st := .fault }).wr F.CMP_FLT_CAUSE Cause'.scrubFail c
      raise (676 + c) (s.wr F.CMP_FLTCYC_CYCLE s.cyc.toNat c)

def execScrubDone (c : Nat) (clean : Bool) (s : State) : Out := computeUnit c 32 (scrubDone c clean) s

end Sys2Proof.Machine
end

