-- ==== Sys2Proof/Machine/SprigOps.lean ====
section
/-! DEFINITION. Sprig images: their form (R393 to R395), the bank an image becomes, and content validation (R396). -/

namespace Sys2Proof.Machine

/-! ## The header and the directory (R393) -/

structure SecEntry where
  typ : Nat
  zero : Nat
  off : Nat
  bytes : Nat
  count : Nat

def secEntry (b : List Byte) (i : Nat) : SecEntry :=
  let o := 64 + 16 * i
  ⟨field b o 2, field b (o + 2) 2, field b (o + 4) 4, field b (o + 8) 4, field b (o + 12) 4⟩

def secEntries (b : List Byte) : List SecEntry := (upto 9).map (secEntry b)

/-- LENGTH. -/
def spgLength (b : List Byte) : Nat := field b 12 4

/-- The size a COUNT implies, none for a COUNT that the type does not have (R394). -/
def secSize (typ count : Nat) : Option Nat :=
  match typ with
  | 1 => if count = 144 then some 2320 else none
  | 2 => if count = 144 then some 144 else none
  | 3 => if count = 1 then some 724 else none
  | 4 => if count = 64 then some 1536 else none
  | 5 => if count = 1 then some 2240 else none
  | 6 => if count ≤ 4096 then some (8 * count) else none
  | 7 => if count ≤ 8192 then some (16 * count) else none
  | 8 => if count = 1 then some 48 else none
  | 9 => if count = 1 then some 16 else none
  | _ => none

/-- A sectionOfs bytes. -/
def sectionOf (b : List Byte) (typ : Nat) : List Byte :=
  match (secEntries b).find? fun e => e.typ == typ with
  | some e => (b.drop e.off).take e.bytes
  | none => []

/-- The little-endian words of a byte list. -/
def leWords (b : List Byte) : List Nat := (upto (b.length / 4)).map fun i => field b (4 * i) 4

/-- Two sections share a byte. -/
def overlaps (a b : SecEntry) : Bool :=
  a.bytes != 0 && b.bytes != 0 && decide (a.off < b.off + b.bytes) && decide (b.off < a.off + a.bytes)

def allZero (b : List Byte) : Bool := b.all (· == 0)

/-- The header and the directory are well formed. -/
def headerOk (b : List Byte) : Bool :=
  let n := spgLength b
  let es := secEntries b
  208 ≤ b.length && field b 0 4 == 0x47525053 && field b 4 2 == 1 && field b 6 2 == 9 && n % 16 == 0 &&
  208 ≤ n && n ≤ 2 ^ 20 && n + 7412 ≤ b.length && allZero ((b.drop 16).take 48) &&
  ((upto 9).all fun t => (es.filter fun e => e.typ == t + 1).length == 1) &&
  (es.all fun e => e.zero == 0 && e.off % 16 == 0 && 208 ≤ e.off && e.off + e.bytes ≤ n &&
    secSize e.typ e.count == some e.bytes) &&
  ((upto 9).all fun i => (upto i).all fun j => !overlaps (secEntry b i) (secEntry b j))

/-! ## The signature block (R393, R395) -/

structure SigBlock where
  ecKey : List Byte
  mlKey : List Byte
  ecSig : List Byte
  mlSig : List Byte

/-- The signature block that follows `n` bytes. -/
def sigBlock (b : List Byte) (n : Nat) : SigBlock :=
  let k := b.drop n
  ⟨k.take 97, (k.drop 97).take 2592, (k.drop 2689).take 96, (k.drop 2785).take 4627⟩

def SigBlock.keysAre (k : SigBlock) (h : List Byte × List Byte) : Bool :=
  digestOf k.ecKey == h.1 && digestOf k.mlKey == h.2

/-- The two signatures over the digest of the first `n` bytes. -/
def ecdsaValid (b : List Byte) (n : Nat) : Bool :=
  Config.ecdsaOk (sigBlock b n).ecKey (digestOf (b.take n)) (sigBlock b n).ecSig
def mldsaValid (b : List Byte) (n : Nat) : Bool :=
  Config.mldsaOk (sigBlock b n).mlKey (digestOf (b.take n)) (sigBlock b n).mlSig

/-- The key hashes of SPG_POLICY. -/
def policyHashes (s : State) : List Byte × List Byte :=
  let w := fun i => leBytes 4 (s.rd F.SPG_POLICY_HASH i)
  ((upto 12).flatMap w, (upto 12).flatMap fun i => w (12 + i))

/-! ## Register images (R394) -/

/-- The elements of whole arrays. -/
def wholeRegs (l : List (Reg × Nat)) : List (Reg × Nat) := l.flatMap fun x => (upto x.2).map fun i => (x.1, i)

/-- The register image words of sections 0x03 to 0x05, each with its register and element. -/
def regImages (b : List Byte) : List ((Reg × Nat) × Nat) :=
  (wholeRegs [(.RTE_LOCAL, 128), (.RTE_XTAB, 32), (.RTE_YTAB, 16), (.RTE_DIRP, 4), (.RTE_LIFE, 1)]).zip
    (leWords (sectionOf b 3)) ++
  ((upto 64).flatMap fun n => (.RTE_RSET_CTL, n) :: (upto 5).map fun w => (.RTE_RSET_PORTS, 5 * n + w)).zip
    (leWords (sectionOf b 4)) ++
  (wholeRegs [(.XBR_INCOL, 144), (.OUB_CLS, 144), (.OUB_WEIGHT, 144), (.OUB_WRED, 96), (.OUB_WREDP, 32)]).zip
    (leWords (sectionOf b 5))

/-- The bits of a register element that a field holds. -/
def fieldMask (r : Reg) (i : Nat) : Nat :=
  if r = .RTE_RSET_PORTS ∧ i % 5 = 4 then 0xFFFF
  else (Reg.fields r).foldl (fun m f => m ||| (2 ^ f.w - 1) * 2 ^ f.lo) 0

def mcgWords (b : List Byte) : List (Nat × Nat) :=
  let s := sectionOf b 6
  (upto (s.length / 8)).map fun g => (field s (8 * g) 4, field s (8 * g + 4) 4)

def grpWords (b : List Byte) : List (Nat × Nat × Nat × Nat) :=
  let s := sectionOf b 7
  (upto (s.length / 16)).map fun g =>
    (field s (16 * g) 4, field s (16 * g + 4) 4, field s (16 * g + 8) 4, field s (16 * g + 12) 4)

/-- Reserved bytes and reserved fields are 0. DESIGN CHOICE, log entry 38: unsafe. -/
def reservedOk (b : List Byte) : Bool :=
  let w := sectionOf b 1
  field w 2 2 == 0 && allZero ((w.drop 4).take 12) &&
  ((upto 144).all fun p => allZero ((w.drop (16 * p + 30)).take 2)) &&
  ((regImages b).all fun x => (x.2 &&& fieldMask x.1.1 x.1.2) == x.2) &&
  ((mcgWords b).all fun m => m.1 / 2 ^ 21 == 0 && m.2 / 2 ^ 12 == 0) &&
  ((grpWords b).all fun g => g.1 / 2 ^ 4 == 0 && g.2.1 / 2 ^ 29 == 0 && g.2.2.1 / 2 ^ 29 == 0 && g.2.2.2 / 2 ^ 29 == 0)

/-! ## The bank an image becomes -/

/-- A table of a list's entries that differ from `d`. DEDUCED, log entry 39: unsafe. -/
def tblOf {α : Type} [DecidableEq α] (l : List α) (d : α) : Tbl α :=
  (l.zipIdx.filter fun x => x.1 != d).map fun x => (x.2, x.1)

/-- Stores a register image word's fields. -/
def loadReg (t : Tbl Nat) (r : Reg) (i w : Nat) : Tbl Nat :=
  (Reg.fields r).foldl (fun t f => Tbl.put t (fkey f i) (w / 2 ^ f.lo % 2 ^ f.w) (resetAt f i)) t

def wireEntry (w : List Byte) (p : Nat) : WireEntry :=
  let o := 16 + 16 * p
  { uid := BitVec.ofNat 64 (field w o 8), port := BitVec.ofNat 8 (field w (o + 8) 1),
    kind := BitVec.ofNat 8 (field w (o + 9) 1), cart := BitVec.ofNat 32 (field w (o + 10) 4) }

def roleTable (b : List Byte) : Tbl Nat :=
  let r := sectionOf b 2
  (upto 144).filterMap fun p => let v := field r p 1; if v = defaultRole p then none else some (p, v)

def bankOf (b : List Byte) : Bank :=
  let w := sectionOf b 1
  let regs := (regImages b).foldl (fun t x => loadReg t x.1.1 x.1.2 x.2) []
  { version := field b 8 4
    regs := loadReg regs .RTE_SELF 0 (field w 0 4)
    wiring := (upto 144).map fun p => (p, wireEntry w p)
    roles := roleTable b
    mcg := tblOf (mcgWords b) (0, 0xFFF)
    grp := tblOf (grpWords b) (0, 0, 0, 0)
    power := sectionOf b 8
    flags := field (sectionOf b 9) 0 1
    dig := digestOf (b.take (spgLength b)) }

/-- TWN_LSTS.SPGSTALE against the tray-mate's last MATE message (R456). -/
def spgCompare (s : State) : State :=
  match s.tray.mate with
  | none => s
  | some m =>
    if s.spg.active.version < m.spgver then s.wr F.TWN_LSTS_SPGSTALE 1
    else if s.spg.active.version = m.spgver then s.wr F.TWN_LSTS_SPGSTALE 0
    else s

/-! ## Content validation (R396) -/

/-- A direction in use. -/
def dirUsed (b : Bank) (d : Nat) : Bool := 1 ≤ b.rd F.RTE_DIRP_COUNT d && b.rd F.RTE_DIRP_COUNT d ≤ 16

/-- The racks other than the own whose table entry has DIR 1 or 2, with that DIR. -/
def racksNamed (b : Bank) (f : Fld) (n own : Nat) : List Nat :=
  (upto n).filterMap fun i => let v := b.rd f i; if i ≠ own ∧ (v = 1 ∨ v = 2) then some v else none

def xNamed (b : Bank) : List Nat := racksNamed b F.RTE_XTAB_DIR 32 (eidX (b.rd F.RTE_SELF_SELF))
def yNamed (b : Bank) : List Nat := racksNamed b F.RTE_YTAB_DIR 16 (eidY (b.rd F.RTE_SELF_SELF))

def routesOk (b : Bank) : Bool :=
  (xNamed b).all (fun v => dirUsed b (v - 1)) && (yNamed b).all (fun v => dirUsed b (v + 1))

def datelinesOk (b : Bank) : Bool :=
  let d := fun i => b.rd F.RTE_DIRP_DLINE i != 0
  ((upto 4).all fun i => !d i || dirUsed b i) && !(d 0 && d 1) && !(d 2 && d 3)

/-- The hall ports of a route set. -/
def hallSet (b : Bank) (n : Nat) : List Nat := (upto 144).filter fun p => setHolds b n p && isHall (b.role p)

/-- The owned route sets, each with its owner. -/
def ownedSets (s : State) : List (Nat × Nat) :=
  (upto 64).filterMap fun n => if s.rdB F.RTE_RSET_OWN_VALID n then some (n, s.rd F.RTE_RSET_OWN_KTAG n) else none

/-- Two owned sets of different owners share a hall port of a bank. -/
def ownedOverlap (b : Bank) (l : List (Nat × Nat)) : Bool :=
  l.any fun x => l.any fun y => x.2 != y.2 && (hallSet b x.1).any fun p => (hallSet b y.1).contains p

/-- The channel mask of a set includes VC 6 or VC 7. -/
def mgmtMask (b : Bank) (n : Nat) : Bool := b.rd F.RTE_RSET_CTL_VCMASK n / 64 != 0

/-- THOP, 0 taken as 1. -/
def lifeOk (b : Bank) : Bool := b.rd F.RTE_LIFE_HOPMAX * max 1 (b.rd F.RTE_LIFE_THOP) ≤ 952

/-- R172. DESIGN CHOICE, log entry 38: unsafe. -/
def mcgOk (b : Bank) (m : Nat × Nat) : Bool :=
  let axis := bits m.1 2 0
  let index := bits m.1 6 3
  let mask := bits m.1 15 7
  let hops := bits m.1 20 16
  let rackGroup := fun g => let a := bits (Tbl.get b.mcg g (0, 0xFFF)).1 2 0; a == 1 || a == 2
  axis == 0 ||
  ((match axis with
    | 1 => index ≤ 7 && mask != 0
    | 2 => index ≤ 8 && mask != 0 && mask / 256 == 0
    | 3 | 4 => hops != 0 && hops < 1 + (xNamed b).length
    | 5 | 6 => hops != 0 && hops < 1 + (yNamed b).length
    | _ => false) && (bits m.2 11 0 == 0xFFF || rackGroup (bits m.2 11 0)))

/-- One stage of a descriptor (R263). -/
def stageOk (b : Bank) (w : Nat) : Bool :=
  let index := bits w 7 4
  let start := bits w 14 8
  let stride := bits w 21 15
  let count := bits w 28 22
  let top := start + (count - 1) * stride
  let stepOk := count != 0 && (stride != 0 || count == 1)
  let apart := fun n => ((upto count).all fun i => (upto i).all fun j => (start + i * stride) % n != (start + j * stride) % n)
  match bits w 3 0 with
  | 1 => stepOk && count ≤ 9 && index ≤ 7 && top ≤ 8
  | 2 => stepOk && count ≤ 8 && index ≤ 8 && top ≤ 7
  | 3 => stepOk && count ≤ 72 && index == 0 && top ≤ 71
  | 4 => count == 2 && start == 0 && stride == 0 && index == 0
  | 5 => stepOk && count ≤ 32 && index == 0 && apart 32
  | 6 => stepOk && count ≤ 16 && index == 0 && apart 16
  | 7 => let a := bits (Tbl.get b.mcg (bits w 19 8) (0, 0xFFF)).1 2 0
         (a == 1 || a == 2) && index == 0 && bits w 28 20 == 0
  | _ => false

/-- Levels in strictly ascending order. -/
def ascending : List Nat → Bool
  | [] => true
  | [_] => true
  | a :: b :: t => a < b && ascending (b :: t)

/-- R263, with the order of R262. DESIGN CHOICE, log entry 38: unsafe. -/
def grpOk (b : Bank) (g : Nat × Nat × Nat × Nat) : Bool :=
  let n := bits g.1 3 2
  let ws := [g.2.1, g.2.2.1, g.2.2.2]
  let levels := (ws.take n).map fun w => axisLevel (bits w 3 0)
  !bit g.1 0 ||
  (n != 0 && (ws.take n).all (stageOk b) && (ws.drop n).all (fun w => bits w 3 0 == 0) && ascending levels &&
    (!bit g.1 1 || levels.headD 0 == 0))

/-- DESIGN CHOICE, log entry 38: unsafe. -/
def rolesOk (b : Bank) : Bool :=
  ((upto 144).all fun p => b.role p ≤ 6) &&
  ((upto 36).all fun g => let l := (upto 4).map fun i => b.role (4 * g + i) == 5; l.all id || !l.any id) &&
  ((upto 4).all fun d => !dirUsed b d ||
    (dirPorts b d).all fun p => p < 144 && b.role p == d + 1) &&
  (let l := eidL (b.rd F.RTE_SELF_SELF); 96 ≤ l && l ≤ 113)

/-- No bound port leaves the down role, and no owned set is left undefined. -/
def keepsOk (s : State) (b : Bank) : Bool :=
  (s.binds.all fun x => b.role x.1 == 0) && (ownedSets s).all fun x => b.rd F.RTE_RSET_CTL_VALID x.1 != 0

/-- R495, R503, R515. DESIGN CHOICE, log entry 38: unsafe. -/
def powerOk (s : State) (b : List Byte) : Bool :=
  let p := sectionOf b 8
  let t := sectionOf b 9
  let v := fun o n lo hi => lo ≤ field p o n && field p o n ≤ hi
  v 0 2 5 500 && v 2 2 100 600 && v 4 2 0 1300 && v 6 2 0 1000 && v 8 1 0 2 && v 9 1 0 1 &&
  allZero ((p.drop 10).take 6) &&
  ((upto 16).all fun k => field p (16 + 2 * k) 1 ≤ 8 && field p (17 + 2 * k) 1 ≤ 15) &&
  field t 0 1 / 8 == 0 && allZero (t.drop 1) &&
  (field p 8 1 == 0 || (s.rd F.POL_STS_CUR == 0 && s.rd F.POL_MODE_PEND == 0))

/-- The code of the first row that fails, 0 when all pass.
DESIGN CHOICE, log entry 38: unsafe. DEDUCED, log entry 39: unsafe. -/
def contentCode (s : State) (img : List Byte) (b : Bank) : Nat :=
  let owned := ownedSets s
  if !routesOk b || !datelinesOk b then 5
  else if ownedOverlap b owned || owned.any (fun x => mgmtMask b x.1) then 6
  else if !lifeOk b then 7
  else if !(mcgWords img).all (mcgOk b) then 8
  else if !(grpWords img).all (grpOk b) then 9
  else if !rolesOk b then 10
  else if !keepsOk s b then 11
  else if !powerOk s img then 12
  else 0

end Sys2Proof.Machine
end

