-- ==== Sys2Proof/Machine/Sprig.lean ====
section
/-! DEFINITION. Staging an image, arming and taking an epoch flip, EPOCH packets and the feature lock (R395 to R406). -/

namespace Sys2Proof.Machine

/-! ## Staging (R395) -/

/-- The image that SPG_SRC names: bytes of Kelpie SRAM, none when the range is empty or leaves the 2 MiB.
DESIGN CHOICE, log entry 6: unsafe. -/
def sourceImage (s : State) (image : List Byte) : List Byte :=
  let n := s.rd F.SPG_SRC_LEN
  if n = 0 ∨ 2 ^ 21 < s.rd F.SPG_SRC_ADDR + n then []
  else (image ++ List.replicate (n - image.length) 0).take n

def stage (image : List Byte) (s : State) : State :=
  if s.spg.staging.isSome || s.spg.armed.isSome then s.wr F.SPG_STS_BUSY 1
  else { s with spg := { s.spg with staging := some (sourceImage s image) } }

def execStage (image : List Byte) (s : State) : Out := live (stage image) s

/-- The code of the first check that fails, 0 when all pass; with the crypto island in its error state no key hash is
formed (R429). DESIGN CHOICE, log entry 38: unsafe. DESIGN CHOICE, log entry 45: unsafe. -/
def stageCode (img : List Byte) (s : State) : Nat :=
  let v := field img 8 4
  let n := spgLength img
  if !headerOk img || !reservedOk img then 1
  else if s.cryptoErr || !(sigBlock img n).keysAre (policyHashes s) then 2
  else if !ecdsaValid img n || !mldsaValid img n then 3
  else if v ≤ s.rd F.SPG_FLOOR_VERSION || v ≤ s.rd F.SPG_HIVER_VERSION then 4
  else contentCode s img (bankOf img)

def stageDone (s : State) : State :=
  match s.spg.staging with
  | none => s
  | some img =>
    let code := stageCode img s
    let s := { s with spg := { s.spg with staging := none } }.wr F.SPG_STS_VERR code
    if code = 0 then { s with spg := { s.spg with staged := some (bankOf img) } } else s

def execStageDone (s : State) : Out := live stageDone s

/-! ## Arming (R398 to R400) -/

/-- The EPOCH payload of an armed flip. -/
def epochBytes (a : Armed) : List Byte :=
  leBytes 8 a.tf ++ leBytes 4 a.version ++ leBytes 2 a.master ++ leBytes 1 a.op ++ leBytes 1 (b2n a.newEpb)

/-- The ports that EPOCH packets leave on: the lowest-numbered ACTIVE port of each hall direction and of the tray. -/
def epochPorts (s : State) : List Nat := [1, 2, 3, 4, 5].filterMap fun r => lowestActive s fun p => s.role p == r

/-- Sends an EPOCH payload, except on port `skip`. -/
def sendEpoch (payload : List Byte) (skip : Nat) (s : State) : State :=
  ((epochPorts s).filter (· != skip)).foldl (fun s p =>
    let far := ((s.port p).ident.map fun i => i.eid.toNat).getD 0
    enqueue { moduleMsg s far 0 payload with opc := 0x22 } .module (some p) s) s

/-- A flip is armed: SPG_TF shows its time. -/
def armFlip (a : Armed) (s : State) : State := { s with spg := { s.spg with armed := some a } }.wr F.SPG_TF_TF a.tf

/-- SPG_CMD.OP = COMMIT (1) or ROLLBACK (2). -/
def armWrite (op : Nat) (s : State) : State :=
  let tf := s.rd F.SPG_TF_TF
  if s.spg.armed.isSome || s.spg.staging.isSome then s.wr F.SPG_STS_BUSY 1
  else match nextBank s op with
    | none => s.wr F.SPG_STS_EMPTY 1
    | some b =>
      if tf < s.nowNs + 10000 then s.wr F.SPG_STS_TFLATE 1
      else
        let a : Armed := { tf := tf, master := s.self, op := op, version := b.version, newEpb := !s.spg.epb }
        sendEpoch (epochBytes a) 144 (armFlip a s)

def commit (s : State) : State := armWrite 1 s
def execCommit (s : State) : Out := live commit s

def rollback (s : State) : State := armWrite 2 s
def execRollback (s : State) : Out := live rollback s

/-- What an EPOCH payload asks for; none when byte 15 is not a bit. -/
def epochOf (b : List Byte) : Option Armed :=
  let e := field b 15 1
  if e ≤ 1 then
    some { tf := field b 0 8, version := field b 8 4, master := field b 12 2, op := field b 14 1, newEpb := e == 1 }
  else none

/-- The bank that an EPOCH's operation would make ACTIVE, its version and bit match, and its time is far enough
ahead. -/
def epochMatches (s : State) (a : Armed) : Bool :=
  (nextBank s a.op).any (fun b => b.version == a.version) && a.newEpb != s.spg.epb && s.nowNs + 1000 ≤ a.tf

def epochReject (s : State) : State := (s.count F.SPG_EPREJ_CNT_COUNT).wr F.SPG_STS_EPMIS 1

/-- The table of R400. DEDUCED, log entry 41: unsafe. -/
def epochTable (p : Nat) (payload : List Byte) (s : State) : State :=
  match epochOf payload with
  | none => epochReject s
  | some a =>
    if !epochMatches s a then epochReject s
    else match s.spg.armed with
      | none => sendEpoch payload p (armFlip a s)
      | some x =>
        if a.op != x.op || a.version != x.version || a.newEpb != x.newEpb then epochReject s
        else if a.tf = x.tf then s
        else if a.master < x.master then sendEpoch payload p (armFlip a s)
        else s

/-- DEDUCED, log entry 41: unsafe. -/
def epochMsg (a : Arrival) (s : State) : State :=
  let s := takeArrival a s
  let far := a.port < 144 && (isHall (s.role a.port) || s.role a.port == 5)
  sendAck a.pkt (cond' far (epochTable a.port (a.pkt.payload.take 16)) s)

def execEpoch (a : Arrival) (s : State) : Out := live (cond' (a.pkt.opc == 0x22) (epochMsg a)) s

/-! ## The flip (R401, R491, R495, R515, R439) -/

/-- A port whose role changed leaves ACTIVE and comes up again without climbing. -/
def reRole (old : Bank) (p : Nat) (s : State) : State :=
  if s.portUp p && old.role p != s.role p then comeUpAgain p (s.port p).rung s else s

/-- The Sprig power section comes into force. DESIGN CHOICE, log entry 66: unsafe. -/
def applyPower (p : List Byte) (s : State) : State :=
  if p.isEmpty then
    let s := ((s.wr F.PWR_GOV_RATE 50).wr F.PWR_GOV_UNIT 340).wr F.PWR_GOV_HOLD 10
    if s.rd F.CLK_STS_HBMPT = 0 then s.wr F.CLK_STS_KLPPT 0
    else { s with pool := { s.pool with retrain := s.hasPool } }.wr F.CLK_STS_HBMPT 0 |>.wr F.CLK_STS_KLPPT 0
  else
    let s := ((s.wr F.PWR_GOV_RATE (field p 0 2)).wr F.PWR_GOV_UNIT (field p 2 2)).wr F.PWR_GOV_HOLD (field p 6 2)
    let s := s.wr F.CLK_STS_KLPPT (field p 9 1)
    if s.rd F.CLK_STS_HBMPT = field p 8 1 then s
    else { s with pool := { s.pool with retrain := s.hasPool } }.wr F.CLK_STS_HBMPT (field p 8 1)

/-- Programs that wait for cores and can no longer claim them. -/
def dropOverCap (s : State) : State :=
  (s.isl.progs.filter fun p => p.cores.isEmpty && overCap s p).foldl (fun s p => endProg p.id Code.resourceFull 0 s) s

/-- The hall ports of valid route sets all have link encryption enabled. -/
def certRoutes (s : State) : Bool :=
  let b := s.spg.active
  (upto 64).all fun n => b.rd F.RTE_RSET_CTL_VALID n == 0 || (hallSet b n).all fun p => s.rdB F.MON_LINKSEC_EN p

/-- The configuration stops being certified, until module reset (R439). -/
def uncertify (s : State) : State := { s with klp := { s.klp with certLost := true } }.wr F.KLP_CERT_CERTIFIED 0

/-- The configuration stops being certified when such a port lacks it. -/
def certCheck (s : State) : State := if certRoutes s then s else uncertify s

/-- The banks change and the epoch bit is inverted. DESIGN CHOICE, log entry 40: unsafe. -/
def swapBanks (a : Armed) (b : Bank) (s : State) : State :=
  let g := s.spg
  let g := { g with active := b, previous := some g.active, epb := !g.epb, plan := true, armed := none, drain := true,
                    drainEnd := s.nowNs + 101000 }
  if a.op = 1 then { s with spg := { g with staged := none, rbok := true } }.wr F.SPG_HIVER_VERSION b.version
  else { s with spg := { g with rbok := false } }

/-- DESIGN CHOICE, log entry 98: unsafe. -/
def epochFlip (s : State) : State :=
  match s.spg.armed, armedBank s with
  | some a, some b =>
    if s.nowNs < a.tf || (s.spg.drain && s.nowNs < s.spg.drainEnd) then s
    else
      let old := s.spg.active
      let s := applyPower b.power (swapBanks a b s)
      let s := (upto 144).foldl (fun s p => reRole old p s) s
      let s := (upto 144).foldl (fun s p => if (s.port p).ident.isSome then wiringCompare p s else s) s
      let s := if bit b.flags 2 then (upto 576).foldl (fun s i => s.wr F.OUB_QMAX_CELLS 0 i) s else s
      spgCompare (certCheck (dropOverCap s))
  | _, _ => s

def execEpochFlip (s : State) : Out := live epochFlip s

/-- 101 µs after the flip the module holds no PREVIOUS bank for lookups (R403). -/
def epochDrainEnd (s : State) : State :=
  if s.spg.drain && s.spg.drainEnd ≤ s.nowNs then { s with spg := { s.spg with drain := false } } else s

def execEpochDrainEnd (s : State) : Out := live epochDrainEnd s

/-! ## Features (R406) -/

def execFeaLock (s : State) : Out := live (fun s => s.wr F.FEA_LOCK_LOCK 1) s

end Sys2Proof.Machine
end

