-- ==== Sys2Proof/Machine/KelpieOps.lean ====
section
/-! DEFINITION. Stage-1 and firmware images (R413, R414), the identity layers (R416), locked sequences and debug tokens
(R435 to R438), and what the monitor's register writes do. -/

namespace Sys2Proof.Machine

/-! ## Images (R413, R414) -/

/-- A well-formed header: that of a boot image, or that of a firmware image for FWLOAD (R424). -/
def stage1Ok (fw : Bool) (b : List Byte) : Bool :=
  let len := field b 12 4
  let mon := field b 16 4
  let entry := field b 24 4
  64 ≤ b.length && field b 0 4 == 0x31534C4B && field b 4 2 == 1 && field b 6 1 ≤ 2 && field b 7 1 == 0 &&
  len % 16 == 0 && 64 ≤ len && len ≤ 1536 * 1024 && len + 7412 ≤ b.length && allZero ((b.drop 28).take 36) &&
  mon ≤ entry &&
  (if fw then mon == 0 && field b 20 4 == 0
   else mon % 4096 == 0 && 64 * 1024 ≤ mon && mon ≤ 512 * 1024 && field b 20 4 < mon)

/-- The key pairs that a lifecycle state accepts (R411). -/
def keyAllowed (lcs idx : Nat) : Bool :=
  match lcs with
  | 1 | 3 => idx ≤ 2
  | 2 => idx ≤ 1
  | _ => false

/-- Why an image is refused, as KLP_BOOTSTS.CODE; 0 when it passes. DESIGN CHOICE, log entry 42: unsafe. -/
def imageCode (fw : Bool) (floor : Nat) (s : State) (b : List Byte) : Nat :=
  let idx := field b 6 1
  let len := field b 12 4
  if s.cryptoErr then 7
  else if s.klp.lcs = 0 ∨ 4 ≤ s.klp.lcs then 8
  else if !stage1Ok fw b then 2
  else if !keyAllowed s.klp.lcs idx then 8
  else if Config.revoked idx || !(sigBlock b len).keysAre (Config.manifest idx) then 3
  else if !ecdsaValid b len then 4
  else if !mldsaValid b len then 5
  else if field b 8 4 < floor then 6
  else 0

/-- A flash slot's image. DESIGN CHOICE, log entry 42: unsafe. -/
def slotCode (s : State) (x : FlashSlot) : Nat :=
  if !x.responds && !s.cryptoErr && s.klp.lcs != 0 && s.klp.lcs < 4 then 1 else imageCode false s.klp.svnBoot s x.bytes

/-! ## Identity layers (R416, R417) -/

/-- The UDS, zeroised in RMA. -/
def udsOf (s : State) : List Byte := if s.klp.lcs = 3 then List.replicate 48 0 else Config.uds

/-- What layer 0 measures: lifecycle state, fused floors, debug state. -/
def layer0Inputs (s : State) : List Byte :=
  leBytes 1 s.klp.lcs ++ leBytes 4 s.klp.svnBoot ++ leBytes 4 s.klp.svnFw ++ leBytes 1 (s.rd F.KLP_DBGSTS_UNLOCKED)

/-- The identity of a layer: its secret and the key pairs that derive from it (R416). -/
def idSlot (secret : List Byte) : IdSlot := ⟨secret, Config.ecdsaPair secret, Config.mldsaPair secret⟩

def IdSlot.privates (x : IdSlot) : List Byte × List Byte := (x.ecdsa.1, x.mldsa.1)
def IdSlot.publics (x : IdSlot) : List Byte × List Byte := (x.ecdsa.2, x.mldsa.2)

/-- The certificates of layers above one: each is certified by the layer below it. -/
def certsAbove : IdSlot → List IdSlot → List Byte
  | _, [] => []
  | d, x :: l => Config.layerCert d.privates x.publics ++ certsAbove x l

/-- The certificate chain of layers, DeviceID first (R416, R433). -/
def chainOf : List IdSlot → List Byte
  | [] => []
  | d :: l => Config.deviceCert d.publics ++ certsAbove d l

/-- The chain DeviceID, Alias, FW, and the Alias chain (R430, R433). -/
def certChain (s : State) : List Byte := chainOf s.klp.ids
def aliasChain (s : State) : List Byte := chainOf (s.klp.ids.take 2)

/-- The identity slot of a layer. -/
def idOf (s : State) (n : Nat) : IdSlot := s.klp.ids.getD n ⟨[], ([], []), ([], [])⟩

/-- An operand other than MON_LOCK takes effect (R438): fuses, lifecycle, identity and link slots. -/
def seqStore (s : State) (x : SeqOp) : State :=
  match x with
  | .monLock _ => s
  | .lifecycle t => { s with klp := { s.klp with lcsNext := some t } }
  | .svn b f => { s with klp := { s.klp with svnBoot := b, svnFw := f } }
  | .identity n y => { s with klp := { s.klp with ids := s.klp.ids.take n ++ [y] } }
  | .link p y => match s.linkSec p with
    | some k => setLinkSec p { k with slot := some y } s
    | none => s

/-- Layer 2, derived afresh from the running firmware; with the crypto island in its error state its slot stays empty
(R429). DESIGN CHOICE, log entry 45: unsafe. -/
def deriveFw (s : State) : State :=
  let s := { s with klp := { s.klp with ids := s.klp.ids.take 2, spdm := 0, transcript := [], answer := none } }
  if s.cryptoErr then s else seqStore s (.identity 2 (idSlot (Config.hmac (idOf s 1).secret s.klp.fwDig)))

/-- Module reset is asserted (R481, R483). -/
def inReset (s : State) : Bool := s.pwr.seq == .off || s.pwr.seq == .wait || s.pwr.seq == .early

/-! ## The monitor (R418, R419, R439) -/

/-- Every hart enters the firmware in S mode (R415, R424). -/
def enterFirmware (pc : Nat) (s : State) : State :=
  { s with klp := { s.klp with harts := s.klp.harts.map (Hart.enter .s pc) } }

/-- The monitor writes SPG_POLICY and HND_SEV from the policy block in its signed data, once from a module reset on: a warm
start keeps what it finds (R420, R425, R476); a value below its floor is stored as the floor (R465).
DESIGN CHOICE, log entry 107: unsafe. -/
def writePolicy (s : State) : State :=
  if s.klp.policyIn then s
  else
    let d := s.klp.imageDig
    let s := (upto 24).foldl (fun s i => s.wr F.SPG_POLICY_HASH (Config.policyHash d i).toNat i) s
    let s := (upto 742).foldl (fun s i => s.wr (sevField i) (max (Config.policySev d i).toNat (houndFloor i)) (i / 8)) s
    { s with klp := { s.klp with policyIn := true } }

/-- The conditions of R439. DEDUCED, log entry 47: unsafe. -/
def certifies (s : State) : Bool :=
  s.klp.lcs == 2 && !s.rdB F.KLP_DBGSTS_EVER && !s.cryptoErr && !s.sealed' && certRoutes s && s.klp.policyIn &&
    !s.klp.certLost

/-- Hall ports that entered ACTIVE while no monitor ran begin their exchange (R430). -/
def resumeExchanges (s : State) : State :=
  (upto 144).foldl (fun s p =>
    match s.linkSec p with
    | some k =>
      if s.portUp p && s.rd F.MON_LINKSEC_STATE p == 1 && k.initiator && k.msgs == 0 then openExchange p k s else s
    | none => s) s

/-- MON_LOCK is set once; the monitor then releases harts 1 to 3 and enters the firmware on all four.
DEDUCED, log entry 47: unsafe. -/
def lockMonitor (size : Nat) (s : State) : State :=
  if s.rdB F.MON_LOCK_LOCKED then s
  else
    let s := (s.wr F.MON_LOCK_LOCKED 1).wr F.MON_LOCK_SIZE size
    if s.klp.mode = .monitor then
      let s := writePolicy { s with klp := { s.klp with mode := .running } }
      let s := resumeExchanges (enterFirmware s.klp.sentry (deriveFw s))
      if certifies s then s.wr F.KLP_CERT_CERTIFIED 1 else s
    else s

/-- An operand joins the open sequence; outside one it has no effect (R438). DEDUCED, log entry 48: unsafe. -/
def seqAdd (x : SeqOp) (s : State) : State :=
  if s.klp.seqAt.isSome then { s with klp := { s.klp with seqOps := s.klp.seqOps ++ [x] } } else s

/-- A write of MON_LOCK with LOCKED set, an operand of a locked sequence. DEDUCED, log entry 48: unsafe. -/
def monLockWrite (size : Nat) (s : State) : State :=
  if s.rdB F.MON_LOCK_LOCKED then s else seqAdd (.monLock size) s

/-! ## Locked sequences (R438) -/

/-- The open sequence ends. -/
def seqClose (s : State) : State :=
  { s with klp := { s.klp with seqAt := none, seqOps := [] } }.wr F.KLP_SEQ_OPEN 0

def seqAbort (s : State) : State := if s.klp.seqAt.isSome then (seqClose s).wr F.KLP_SEQ_ABORT 1 else s

/-- An operand takes effect. -/
def seqApply (s : State) (x : SeqOp) : State :=
  match x with
  | .monLock n => lockMonitor n s
  | x => seqStore s x

/-- One millisecond of the always-on clock. -/
def oneMs : Nat := 9000000000

/-- KLP_SEQ.OPEN: refused while a sequence is open. -/
def seqOpen (s : State) : State :=
  if s.klp.seqAt.isSome then s.wr F.KLP_SEQ_BUSY 1
  else { s with klp := { s.klp with seqAt := some s.clock, seqOps := [] } }.wr F.KLP_SEQ_OPEN 1

/-- KLP_SEQ.GO: the operands take effect as one; in the cycle of the expiry the sequence aborts. -/
def seqGo (s : State) : State :=
  match s.klp.seqAt with
  | none => s
  | some t => if t + oneMs ≤ s.clock then seqAbort s else s.klp.seqOps.foldl seqApply (seqClose s)

/-- What a call or the key exchange loads through a locked sequence (R412, R438). DEDUCED, log entry 48: unsafe. -/
def locked (x : SeqOp) (s : State) : State := seqGo (seqAdd x (seqOpen s))

/-! ## Debug tokens (R435, R436) -/

/-- A token: MAGIC, UID, challenge, SCOPE and the signature block over those 48 bytes.
DEDUCED, log entry 43: unsafe. -/
def tokenOk (s : State) (t : List Byte) : Bool :=
  let scope := field t 44 4
  s.klp.lcs == 2 && !s.cryptoErr && 48 + 7412 ≤ t.length && field t 0 4 == 0x4B544244 &&
  field t 4 8 == Config.uid.toNat && s.klp.challenge == some ((t.drop 12).take 32) && scope ≤ 1 &&
  (scope == 0 || s.knl.all fun k => k.2.st == .free) &&
  (sigBlock t 48).keysAre Config.debugKeys && ecdsaValid t 48 && mldsaValid t 48

def unlock (t : List Byte) (s : State) : State :=
  let s := { s with klp := { s.klp with challenge := none } }
  uncertify (((s.wr F.KLP_DBGSTS_UNLOCKED 1).wr F.KLP_DBGSTS_SCOPE (field t 44 4)).wr F.KLP_DBGSTS_EVER 1)

/-! ## Registers written whole -/

/-- Stores every field of a register element. -/
def State.wrAll (s : State) (r : Reg) (i v : Nat) : State :=
  (Reg.fields r).foldl (fun s f => s.wr f (v / 2 ^ f.lo) i) s

/-- The counters: registers of one COUNT field (R116, R505). -/
def counterRegs : List Reg :=
  [
    .LNE_PRBS_ERR, .LNE_FEC_CCW, .LNE_FEC_UCW, .LNE_FEC_HIST, .LNK_RETRY_CNT, .LNK_BADFRM_CNT, .LNK_RESET_CNT,
    .LNK_CHKFAIL_CNT, .LNK_QUARDROP_CNT, .OUB_DROP_CNT, .OUB_RXPKT_CNT, .OUB_TXPKT_CNT, .OUB_STALL_CNT,
    .RTE_WINOVF_CNT, .RTE_LOCDROP_CNT, .POL_CE_CNT, .POL_UE_CNT, .POL_MIRFAIL_CNT, .RTV_STALE_CNT,
    .RTV_RECHK_CNT, .RTV_RESFAIL_CNT, .RTV_CHKFAIL_CNT, .RTV_TMO_CNT, .RTV_COLL_CNT, .DET_MISS_CNT,
    .DET_SCLOST_CNT, .SPG_EPREJ_CNT, .SPG_OLDEPB_CNT, .MON_LINKAUTH_CNT, .TWN_DUP_CNT, .TWN_OLD_CNT,
    .TWN_FULL_CNT, .TWN_TAKE_CNT, .HND_EVT_CNT, .PWR_OVER_CNT, .TCL_ERR_CNT, .TCL_REJ_CNT, .CTR_KNL,
    .CTR_CORE, .CTR_SLOST_CNT, .OUB_RXBYTE_CNT, .OUB_TXBYTE_CNT]

/-- Elements of a register. -/
def Reg.count (r : Reg) : Nat := (Reg.dims r).foldl (· * ·) 1

/-- A counter selector names a counter (R512, R516). -/
def isSelector (sel : Nat) : Bool :=
  counterRegs.any fun r => Reg.base r ≤ 0x10000000 + 8 * sel && 0x10000000 + 8 * sel < Reg.base r + 8 * Reg.count r

/-! ## Route set ownership (R164, R188, R397) -/

/-- The module refuses to make KTAG the owner of a route set. -/
def ownRefused (s : State) (n ktag : Nat) : Bool :=
  let banks := s.spg.active :: (armedBank s).toList
  let others := (ownedSets s).filter fun x => x.1 != n
  ktag == 0 || others.any (fun x => x.2 == ktag) ||
    banks.any fun b => mgmtMask b n || ownedOverlap b ((n, ktag) :: others)

/-! ## Link encryption (R432, R439) -/

/-- A write of MON_LINKSEC.EN. -/
def linksecWrite (p en : Nat) (s : State) : State :=
  if s.rd F.MON_LINKSEC_EN p = en then s
  else
    let s := s.wr F.MON_LINKSEC_EN en p
    let s := if en = 0 then
        { s.wr F.MON_LINKSEC_STATE 0 p with klp := { s.klp with links := Tbl.erase s.klp.links p } }
      else s
    certCheck (if s.portUp p then comeUpAgain p (s.port p).rung s else s)

end Sys2Proof.Machine
end

