-- ==== Sys2Proof/Machine/Kelpie.lean ====
section
/-! DEFINITION. Boot, restart, the monitor's lock, locked sequences, debug, and the monitor calls of spec/13, spec/15
and spec/17 (R411 to R439, R476, R512). -/

namespace Sys2Proof.Machine

/-! ## Boot (R414 to R417) -/

/-- The ROM boots an image from a slot, which it loads at SRAM offset 0, hides the UDS and enters the monitor on hart 0.
DESIGN CHOICE, log entry 42: unsafe. -/
def boot (slot : Nat) (b : List Byte) (s : State) : State :=
  let len := field b 12 4
  let mon := field b 16 4
  let warm := s.rdB F.KLP_BOOTSTS_WARM
  let meas := layer0Inputs s
  let dig := digestOf (b.take len)
  let c0 := Config.hmac (udsOf s) meas
  let (key, s) := if warm then (s.klp.regionKey, s) else s.freeBytes 64
  let s := { s with klp := { s.klp with
    mode := .monitor, bootSvn := field b 8 4, fwSvn := field b 8 4, monSize := mon, sentry := field b 24 4,
    imageDig := dig, fwDig := digestOf ((b.take len).drop mon), bootState := meas, hidden := true,
    sram := sramStore 0 (b.take len) s.klp.sram,
    harts := ListOps.modify resetHarts 0 (Hart.enter .m (field b 20 4)),
    ids := [idSlot c0, idSlot (Config.hmac c0 dig)], regionKey := key, keys := if warm then s.klp.keys else [] } }
  (s.wr F.KLP_BOOTSTS_SLOT slot).wr F.KLP_BOOTSTS_CODE 0

/-- The ROM's pass over the flash slots; in the safe state it runs the reporter only (R474). -/
def romBoot (a b : FlashSlot) (s : State) : State :=
  if s.klp.mode ≠ .rom ∨ inReset s then s
  else if s.sealed' then { s with klp := { s.klp with mode := .reporter } }
  else
    let code := slotCode s a
    if code = 0 then boot 0 a.bytes s
    else if slotCode s b = 0 then boot 1 b.bytes s
    else
      let s := (upto 144).foldl (fun s p => enterOff p s) s
      raise 730 ({ s with klp := { s.klp with mode := .reporter } }.wr F.KLP_BOOTSTS_CODE code)

def execRomBoot (a b : FlashSlot) (s : State) : Out := fin (romBoot a b s)

/-- KLP_CTL.RESTART (R425, R426), in the safe state too (R474). -/
def kelpieRestart (s : State) : State :=
  if inReset s then s
  else
    let s := seqAbort s
    let s := { s with klp := { s.klp with mode := .rom, hidden := false, spdm := 0, transcript := [], answer := none,
                                          harts := resetHarts } }
    ((s.wr F.MON_LOCK_LOCKED 0).wr F.MON_LOCK_SIZE 0).wr F.KLP_BOOTSTS_WARM 1

def execKelpieRestart (s : State) : Out := fin (kelpieRestart s)

/-- MON_LOCK (R419). -/
def execMonLock (by_ : Accessor) (size : Byte) (s : State) : Out := live (monOnly by_ (monLockWrite size.toNat)) s

/-! ## Locked sequences (R438) -/

def execSeqOpen (s : State) : Out := live seqOpen s

def execSeqGo (s : State) : Out := live seqGo s

def execSeqTimeout (s : State) : Out := live seqAbort s

/-! ## Debug (R435, R436) -/

def authdataChallenge (s : State) : State :=
  if s.cryptoErr then s
  else
    let (b, s) := s.freeBytes 32
    { s with klp := { s.klp with challenge := some b } }

def execAuthdataChallenge (s : State) : Out := live authdataChallenge s

def execAuthdataToken (token : List Byte) (s : State) : Out := live (cond' (tokenOk s token) (unlock token)) s

/-- An address argument: a 40-bit physical address that does not touch the monitor region (R421, R521).
DEDUCED, log entry 46: unsafe. -/
def addrRefusals (s : State) (a n : Nat) : List (Bool × Nat) := [bad (2 ^ 40 ≤ a), prot (inMonitor s a n)]

def dbgunlock (addr : Nat) (t : List Byte) (s : State) : State :=
  call (addrRefusals s addr t.length ++ [prot (!tokenOk s t)]) 0 (unlock t) s

def execDbgunlock (addr : W64) (token : List Byte) (s : State) : Out := live (dbgunlock addr.toNat token) s

/-! ## Lifecycle and firmware (R411, R412, R424) -/

/-- Whether a token is signed by Zelholt is an outcome the spec leaves to the token; with the crypto island in its error
state none is valid (R429). DESIGN CHOICE, log entry 44: safe. -/
def lcstrans (target addr : Nat) (t : List Byte) (s : State) : State :=
  let ok := target = s.klp.lcs + 1 ∧ (target ≠ 3 ∨ (s.cryptoErr = false ∧ s.freeB.1))
  call (bad (4 < target) :: addrRefusals s addr t.length ++ [prot (!decide ok)]) 0
    (fun s => locked (.lifecycle target) s.freeB.2) s

def execLcstrans (target addr : W64) (token : List Byte) (s : State) : Out :=
  live (lcstrans target.toNat addr.toNat token) s

/-- A verified firmware image is copied above the monitor region, where its entry offset counts from its first byte, and
S mode starts again on all harts (R424). DESIGN CHOICE, log entry 97: unsafe. -/
def loadFw (b : List Byte) (s : State) : State :=
  let image := b.take (field b 12 4)
  enterFirmware (s.klp.monSize + field b 24 4) (deriveFw { s with klp := { s.klp with
    fwSvn := field b 8 4, sentry := field b 24 4, sram := sramStore s.klp.monSize image s.klp.sram,
    fwDig := digestOf image } })

def fwload (addr : Nat) (b : List Byte) (s : State) : State :=
  call (addrRefusals s addr b.length ++ [prot (imageCode true s.klp.svnFw s b != 0)]) 0 (loadFw b) s

def execFwload (addr : W64) (image : List Byte) (s : State) : Out := live (fwload addr.toNat image) s

def svnfloor (bt fw : Nat) (s : State) : State :=
  call [bad (2 ^ 32 ≤ bt || 2 ^ 32 ≤ fw),
        prot (s.klp.bootSvn < bt || s.klp.fwSvn < fw || bt < s.klp.svnBoot || fw < s.klp.svnFw)] 0
    (locked (.svn bt fw)) s

def execSvnfloor (boot fw : W64) (s : State) : Out := live (svnfloor boot.toNat fw.toNat) s

/-! ## Keys (R423, R428, R429) -/

/-- A key from the DRBG. DESIGN CHOICE, log entry 45: unsafe. -/
def fillKey (slot : Nat) (s : State) : State :=
  let (b, s) := s.freeBytes 64
  { s with klp := { s.klp with keys := Tbl.set s.klp.keys slot b } }

/-- DESIGN CHOICE, log entry 45: unsafe. -/
def keygen (slot : Nat) (s : State) : State :=
  call [bad (4096 ≤ slot), prot (slotFull s slot), (s.cryptoErr, Code.checkFail)] 0 (fillKey slot) s

def execKeygen (slot : W64) (s : State) : Out := live (keygen slot.toNat) s

def keyzero (slot : Nat) (s : State) : State :=
  call [bad (4096 ≤ slot), prot (slotBound s slot)] 0 (zeroKey slot) s

def execKeyzero (slot : W64) (s : State) : Out := live (keyzero slot.toNat) s

/-! ## Mirrors, route sets, quotas, the floor (R147, R164, R423) -/

/-- An analysis port may not be bound to a kennel or lie in a valid route set. DEDUCED, log entry 46: unsafe. -/
def apBad (s : State) (p : Nat) : Bool :=
  p < 144 && ((boundKennel s p).isSome ||
    (upto 64).any fun n => s.act F.RTE_RSET_CTL_VALID n != 0 && setHolds s.spg.active n p)

def mirset (n ctl mtch : Nat) (s : State) : State :=
  call [bad (8 ≤ n || 2 ^ 32 ≤ ctl || 2 ^ 24 ≤ mtch), prot (apBad s (bits ctl 18 11))] 0
    (fun s => (s.wrAll .OUB_MIRCTL n ctl).wrAll .OUB_MIRMATCH n mtch) s

def execMirset (session ctl mtch : W64) (s : State) : Out := onFabric (mirset session.toNat ctl.toNat mtch.toNat) s

def setOwner (n ktag valid : Nat) (s : State) : State :=
  (s.wr F.RTE_RSET_OWN_KTAG ktag n).wr F.RTE_RSET_OWN_VALID valid n

/-- DEDUCED, log entry 79: unsafe. -/
def rsetown (n ktag valid : Nat) (s : State) : State :=
  call [bad (64 ≤ n || 2 ^ 16 ≤ ktag || 2 ≤ valid), prot (valid == 1 && ownRefused s n ktag)] 0
    (setOwner n ktag valid) s

def execRsetown (n ktag valid : W64) (s : State) : Out := onFabric (rsetown n.toNat ktag.toNat valid.toNat) s

def rtvquota (k quota : Nat) (s : State) : State :=
  call [bad (4096 ≤ k || 256 < quota)] 0 (fun s => s.wr F.RTV_QUOTA_QUOTA quota k) s

def execRtvquota (k quota : W64) (s : State) : Out := onFabric (rtvquota k.toNat quota.toNat) s

def spgfloor (v : Nat) (s : State) : State :=
  call [bad (2 ^ 32 ≤ v), prot (v < s.rd F.SPG_FLOOR_VERSION)] 0 (fun s => s.wr F.SPG_FLOOR_VERSION v) s

def execSpgfloor (version : W64) (s : State) : Out := live (spgfloor version.toNat) s

/-! ## Link encryption -/

def linksec (p en : Nat) (s : State) : State :=
  call [bad (144 ≤ p || 2 ≤ en), prot (!isHall (s.role p))] 0 (linksecWrite p en) s

def execLinksec (port enable : W64) (s : State) : Out := live (linksec port.toNat enable.toNat) s

/-! ## Hound (R465, R476) -/

def hndsev (i v : Nat) (s : State) : State :=
  call [bad (742 ≤ i || 8 ≤ v), prot (v < houndFloor i)] 0 (fun s => s.wr (sevField i) v (i / 8)) s

def execHndsev (src sev : W64) (s : State) : Out := live (hndsev src.toNat sev.toNat) s

/-- Sets or clears a force bit; a set one asserts its source. DEDUCED, log entry 88: unsafe. -/
def setForce (i v : Nat) (s : State) : State :=
  let w := s.rd F.HND_FORCE_FORCE (i / 32)
  if v = 1 then raise i (unitAgain i (s.wr F.HND_FORCE_FORCE (setBit w (i % 32)) (i / 32)))
  else s.wr F.HND_FORCE_FORCE (clearBits w (2 ^ (i % 32))) (i / 32)

def hndforce (i v : Nat) (s : State) : State :=
  call [bad (742 ≤ i || 2 ≤ v), prot (v == 1 && 5 ≤ effSev s i && s.knl.any fun k => k.2.st != .free)] 0 (setForce i v) s

def execHndforce (src val : W64) (s : State) : Out := live (hndforce src.toNat val.toNat) s

/-! ## Sampling (R512) -/

def ctrsamp (n sel width en : Nat) (s : State) : State :=
  call [bad (16 ≤ n || !isSelector sel || width < 8 || 47 < width || 2 ≤ en)] 0
    (fun s => ((s.wr F.CTR_SCTL_EN en n).wr F.CTR_SCTL_WIDTH width n).wr F.CTR_SCTL_SEL sel n) s

def execCtrsamp (session sel width enable : W64) (s : State) : Out :=
  live (ctrsamp session.toNat sel.toNat width.toNat enable.toNat) s

end Sys2Proof.Machine
end

