-- ==== Sys2Proof/Machine/Attest.lean ====
section
/-! DEFINITION. The key exchange and the records of encrypted hall links (R430 to R432), and the SPDM responder
(R433, R434). -/

namespace Sys2Proof.Machine

/-! ## Function messages of a link (R520) -/

/-- A message from the far end of the port it arrived on. -/
def fromFar (s : State) (a : Arrival) : Bool :=
  a.port < 144 && (s.port a.port).ident.any fun i => i.eid == a.pkt.src

/-- A function message of the far end: another source's is refused, and each is answered after its action. -/
def farFunction (lenOk : Bool) (act : State → State) (a : Arrival) (s : State) : State :=
  let ok := fromFar s a
  let s := takeArrival a s
  if !ok then sendErr a.pkt Code.protection s
  else if !lenOk then sendErr a.pkt Code.badDescriptor s
  else sendAck a.pkt (act s)

/-! ## Key messages (R430) -/

/-- The message an end awaits. -/
def LinkSec.awaits (k : LinkSec) : Nat :=
  if k.initiator then (if k.msgs = 1 then 2 else 0)
  else if k.msgs = 0 ∨ k.msgs = 3 then 1
  else if k.msgs = 2 then 3 else 0

/-- The bytes of a message whose fragments have all come. -/
def LinkSec.whole (k : LinkSec) : Option (List Byte) :=
  let b := k.inFrags.foldl (fun b f => if b.length = f.1 then b ++ f.2 else b) []
  if k.inTotal != 0 && b.length == k.inTotal then some b else none

/-- Bytes of an ECDSA P-384 and an ML-DSA-87 signature. -/
def sigLen : Nat := 96 + 4627

/-- A key message without its signatures. -/
def unsigned (b : List Byte) : List Byte := b.take (b.length - sigLen)

/-- Both signatures of the Alias keys over the digest of the exchange so far. -/
def aliasSigns (s : State) (script : List Byte) : List Byte :=
  let d := digestOf script
  Config.ecdsaSign (idOf s 1).ecdsa.1 d ++ Config.mldsaSign (idOf s 1).mldsa.1 d

/-- The far end's chain ends at a Zelholt root, its UID is the wiring plan's for the port, and both signatures of message
`b` verify over the exchange so far (R430). -/
def peerOk (s : State) (p : Nat) (chain script b : List Byte) : Bool :=
  let sig := b.drop (b.length - sigLen)
  let keys := Config.chainKeys chain
  let d := digestOf script
  sigLen ≤ b.length && Config.chainRooted chain && Config.chainUid chain == (Tbl.get s.spg.active.wiring p {}).uid &&
    Config.ecdsaOk keys.1 d (sig.take 96) && Config.mldsaOk keys.2 d (sig.drop 96)

/-- The keys of an exchange: HKDF's salt is the two nonces, its info the transcript hash; the initiator sends under the
first key and salt. DESIGN CHOICE, log entry 51: unsafe. -/
def derivedKeys (initiator : Bool) (nonces ikm script : List Byte) : LinkKeys :=
  let o := Config.hkdf nonces ikm (digestOf script)
  let a := (o.take 32, (o.drop 32).take 4)
  let b := ((o.drop 36).take 32, (o.drop 68).take 4)
  let (t, r) := if initiator then (a, b) else (b, a)
  ⟨t.1, t.2, r.1, r.2⟩

/-- The responder's answer to message 1: its nonce, the ciphertext and its share, its start unit and chain, signed.
DESIGN CHOICE, log entry 51: unsafe. -/
def answerKey (p : Nat) (k : LinkSec) (b : List Byte) (s : State) : State :=
  let (n, s) := newStart k s
  let (nonce, s) := s.freeBytes 48
  let (r, s) := s.freeBytes 80
  let (ct, kem) := Config.kemEncaps ((b.drop 48).take 1568) (r.take 32)
  let ikm := kem ++ Config.ecdhSecret (r.drop 32) ((b.drop 1616).take 97)
  let m := nonce ++ ct ++ Config.ecdhShare (r.drop 32) ++ leBytes 8 n ++ aliasChain s
  let script := b.take keyHead ++ m
  sendKeyMsg p 2 (m ++ aliasSigns s script)
    (setLinkSec p { k with msgs := 2, txNext := some n, secret := ikm, script := script } s)

/-- The initiator's answer to message 2: its start unit and chain, signed; its keys are loaded.
DESIGN CHOICE, log entry 51: unsafe. -/
def finishKey (p : Nat) (k : LinkSec) (b : List Byte) (s : State) : State :=
  let m := unsigned b
  let script := k.script ++ m
  if !peerOk s p (m.drop (keyHead + 8)) script b then exchangeFails p k s
  else
    let (n, s) := newStart k s
    let e := leBytes 8 n ++ aliasChain s
    let ikm := Config.kemDecaps (k.secret.take 64) ((b.drop 48).take 1568) ++
      Config.ecdhSecret (k.secret.drop 64) ((b.drop 1616).take 97)
    let keys := derivedKeys true (k.script.take 48 ++ b.take 48) ikm (script ++ e)
    let k := { k with msgs := 3, secret := [], txNext := some n, rxNext := some (field b keyHead 8) }
    sendKeyMsg p 3 (e ++ aliasSigns s (script ++ e)) (locked (.link p keys) (setLinkSec p k s))

/-- Message 3 at the responder, whose keys are loaded. DESIGN CHOICE, log entry 51: unsafe. -/
def acceptKey (p : Nat) (k : LinkSec) (b : List Byte) (s : State) : State :=
  let m := unsigned b
  let script := k.script ++ m
  if !peerOk s p (m.drop 8) script b then exchangeFails p k s
  else
    let nonces := k.script.take 48 ++ (k.script.drop keyHead).take 48
    locked (.link p (derivedKeys false nonces k.secret script))
      (setLinkSec p { k with msgs := 3, secret := [], rxNext := some (field b 0 8) } s)

/-- A whole message of the exchange, which the crypto island's error state fails (R429).
DESIGN CHOICE, log entry 45: unsafe. -/
def keyMessage (p : Nat) (k : LinkSec) (b : List Byte) (s : State) : State :=
  let k := { k with inTotal := 0, inFrags := [] }
  if s.cryptoErr then exchangeFails p k s
  else match k.awaits with
  | 1 => answerKey p k b s
  | 2 => finishKey p k b s
  | 3 => acceptKey p k b s
  | _ => s

/-- A fragment of the message awaited. DESIGN CHOICE, log entry 51: unsafe. -/
def keyFragment (p : Nat) (b : List Byte) (s : State) : State :=
  match s.linkSec p with
  | none => s
  | some k =>
    let total := field b 4 4
    let off := field b 8 4
    if !monitorRuns s || s.rd F.MON_LINKSEC_STATE p == 3 || field b 0 4 != k.awaits || k.awaits == 0 ||
       total ≤ off || off % 4080 != 0 || field b 12 4 != 0 || (k.inTotal != 0 && k.inTotal != total) then s
    else
      let d := (b.drop 16).take (min 4080 (total - off))
      let k := { k with inTotal := total, inFrags := Tbl.set k.inFrags off d }
      match k.whole with
      | some m => keyMessage p k m s
      | none => setLinkSec p k s

def execLinkKeyMessage (a : Arrival) (s : State) : Out :=
  live (cond' (isFunction a.pkt keyAddr)
    (farFunction (1 ≤ a.pkt.len.toNat) (keyFragment a.port a.pkt.payload) a)) s

/-- A new exchange while the port is ACTIVE (R432). DESIGN CHOICE, log entry 51: unsafe. -/
def linkRekey (p : Nat) (s : State) : State :=
  match s.linkSec p with
  | some k =>
    if s.portUp p && s.rd F.MON_LINKSEC_STATE p == 2 && k.initiator && monitorRuns s then openExchange p k s else s
  | none => s

def execLinkRekey (p : Nat) (s : State) : Out := liveUnit p 144 (linkRekey p) s

/-! ## Records (R431) -/

/-- 2 µs after its first unit a record closes. -/
def recordClose (p : Nat) (s : State) : State :=
  match s.linkSec p with
  | some k => if s.portUp p && k.txCount != 0 then closeRecord p k s else s
  | none => s

def execRecordClose (p : Nat) (s : State) : Out := liveUnit p 144 (recordClose p) s

/-- A record that does not authenticate: the port leaves ACTIVE and its link slot is zeroised. -/
def tagFails (p : Nat) (k : LinkSec) (s : State) : State :=
  linkAuthFail p (comeUpAgain p (s.port p).rung (setLinkSec p k.zeroised s))

/-- The next record to be checked and the tags of its and later units, under the keys before as long as any are left. -/
def LinkSec.unchecked (k : LinkSec) : Nat × List (List Byte) := k.rxOld.getD (k.rxRec, k.rxTags)

/-- A record of `n` units has been checked. -/
def LinkSec.checkedOff (k : LinkSec) (n : Nat) : LinkSec :=
  match k.rxOld with
  | some (r, t) => { k with rxOld := if (t.drop n).isEmpty then none else some (r + 1, t.drop n) }
  | none => { k with rxRec := k.rxRec + 1, rxTags := k.rxTags.drop n }

/-- A LINKTAG against the next record: its number, its unit count and the XOR of its unit tags. -/
def linktagCheck (p : Nat) (b : List Byte) (s : State) : State :=
  match s.linkSec p with
  | none => s
  | some k =>
    let n := field b 8 8
    let (r, t) := k.unchecked
    if !k.keyed then s
    else if field b 0 8 == r && 1 ≤ n && n ≤ t.length &&
        (t.take n).foldl xorTags (List.replicate 16 0) == (b.drop 16).take 16 then setLinkSec p (k.checkedOff n) s
    else tagFails p k s

def execLinktag (a : Arrival) (s : State) : Out :=
  live (cond' (isFunction a.pkt tagAddr)
    (farFunction (a.pkt.len == 2) (linktagCheck a.port a.pkt.payload) a)) s

/-- 10 µs after a record's last unit without its LINKTAG. -/
def linktagTimeout (p : Nat) (s : State) : State :=
  match s.linkSec p with
  | some k => if s.portUp p && k.keyed && !k.unchecked.2.isEmpty then tagFails p k s else s
  | none => s

def execLinktagTimeout (p : Nat) (s : State) : Out := liveUnit p 144 (linktagTimeout p) s

/-! ## The crypto island's error state (R429) -/

/-- Hall links stop as after a failed tag. -/
def cryptoFails (s : State) : State :=
  if s.cryptoErr then s
  else
    let s := uncertify { s with cryptoErr := true }
    (upto 144).foldl (fun s p =>
      match s.linkSec p with
      | some k => if s.portUp p && s.rdB F.MON_LINKSEC_EN p && isHall (s.role p) then tagFails p k s else s
      | none => s) s

/-! ## Measurements (R434) -/

/-- A register element's word as its fields are stored. -/
def storedWord (s : State) (r : Reg) (i : Nat) : Nat :=
  (Reg.fields r).foldl (fun n f => n + s.rd f i * 2 ^ f.lo) 0

/-- The digest of measurement block `i`. -/
def measurement (s : State) (i : Nat) : List Byte :=
  let k := s.klp
  match i with
  | 1 => digestOf k.bootState
  | 2 => k.imageDig
  | 3 => k.fwDig
  | 4 => digestOf (leBytes 4 s.spg.active.version ++ s.spg.active.dig)
  | 5 => digestOf (((upto 8).flatMap fun w => leBytes 4 (s.rd F.FEA_ACCEPT_BITS w)) ++ leBytes 4 (s.rd F.FEA_LOCK_LOCK))
  | 6 => digestOf (leBytes 4 (storedWord s .KLP_CERT 0) ++ leBytes 4 (storedWord s .KLP_DBGSTS 0))
  | _ => digestOf ((upto 144).flatMap fun p => leBytes 4 (storedWord s .MON_LINKSEC p))

/-- A measurement block in DMTF measurement format: index, specification, size, type of value, size of value, digest.
PRESUMED, log entry 49: unsafe. -/
def measurementBlock (s : State) (i : Nat) : List Byte :=
  let kind := if i = 2 ∨ i = 3 then 1 else if i = 1 then 2 else 3
  leBytes 1 i ++ leBytes 1 1 ++ leBytes 2 51 ++ leBytes 1 kind ++ leBytes 2 48 ++ measurement s i

/-! ## The responder (R433) -/

/-- Response codes of DMTF SPDM 1.3. PRESUMED, log entry 49: unsafe. -/
def spdmError : Nat := 0x7F

/-- The responder answers, and the exchange joins the transcript. PRESUMED, log entry 49: unsafe. -/
def spdmAnswer (code stage : Nat) (req body : List Byte) (s : State) : State :=
  let k := s.klp
  { s with klp := { k with spdm := stage, transcript := k.transcript ++ req ++ [BitVec.ofNat 8 code] ++ body,
                           answer := some ⟨code, body⟩ } }

/-- An ERROR response leaves the exchange where it stands. -/
def spdmRefuse (err : Nat) (s : State) : State :=
  { s with klp := { s.klp with answer := some ⟨spdmError, leBytes 1 err⟩ } }

/-- A request that is served from stage `need` on, while the firmware runs. PRESUMED, log entry 49: unsafe. -/
def spdmServe (need : Nat) (f : State → State) (s : State) : State :=
  if s.klp.mode ≠ .running then s
  else if s.klp.spdm < need then spdmRefuse 0x04 s
  else f s

/-- A request that needs the crypto island, whose error state refuses it (R429). PRESUMED, log entry 49: unsafe. -/
def spdmCrypto (f : State → State) : State → State :=
  spdmServe 3 fun s => if s.cryptoErr then spdmRefuse 0x05 s else f s

/-- A response signed by the FW key over the transcript, the response itself included.
PRESUMED, log entry 49: unsafe. -/
def spdmSigned (code : Nat) (req body : List Byte) (s : State) : State :=
  let s := spdmAnswer code s.klp.spdm req body s
  let sig := Config.ecdsaSign (idOf s 2).ecdsa.1 s.klp.transcript
  { s with klp := { s.klp with answer := some ⟨code, body ++ sig⟩ } }

/-- The ALGORITHMS response after its code: DMTF measurements hashed with SHA-384, ECDSA P-384 and SHA-384 for signatures,
nothing further. PRESUMED, log entry 49: unsafe. -/
def algorithms : List Byte :=
  leBytes 2 0 ++ leBytes 2 36 ++ leBytes 2 1 ++ leBytes 4 4 ++ leBytes 4 0x80 ++ leBytes 4 2 ++ leBytes 16 0

/-- GET_VERSION opens a new transcript. -/
def execGetVersion (s : State) : Out :=
  live (spdmServe 0 fun s =>
    spdmAnswer 0x04 1 [0x84] (leBytes 2 0x1300) { s with klp := { s.klp with transcript := [] } }) s

def execGetCapabilities (s : State) : Out :=
  live (spdmServe 1 fun s =>
    let (b, s) := s.freeBytes 9
    spdmAnswer 0x61 (max 2 s.klp.spdm) [0xE1] (leBytes 3 0 ++ b.take 1 ++ leBytes 2 0 ++ leBytes 4 0x36 ++ b.drop 1) s) s

def execNegotiateAlgorithms (s : State) : Out :=
  live (spdmServe 2 fun s =>
    spdmAnswer 0x63 3 [0xE3] algorithms s) s

def execGetDigests (s : State) : Out :=
  live (spdmCrypto fun s => spdmAnswer 0x01 3 [0x81] (digestOf (certChain s)) s) s

def execGetCertificate (slot : Byte) (s : State) : Out :=
  live (spdmServe 3 fun s =>
    if slot = 0 then spdmAnswer 0x02 3 [0x82, slot] (certChain s) s else spdmRefuse 0x01 s) s

def execChallenge (slot : Byte) (nonce : List Byte) (s : State) : Out :=
  live (spdmCrypto fun s =>
    if slot = 0 then
      let (n, s) := s.freeBytes 32
      let sum := digestOf ((upto 7).flatMap fun i => measurement s (i + 1))
      spdmSigned 0x03 ([0x83, slot] ++ nonce) (digestOf (certChain s) ++ n ++ sum) s
    else spdmRefuse 0x01 s) s

/-- Index 0 asks how many blocks there are, 0xFF for all of them. -/
def execGetMeasurements (index : Byte) (nonce : List Byte) (s : State) : Out :=
  live (spdmCrypto fun s =>
    let i := index.toNat
    if 8 ≤ i ∧ i ≠ 255 then spdmRefuse 0x01 s
    else
      let (n, s) := s.freeBytes 32
      let blocks := if i = 0 then leBytes 1 7
        else if i = 255 then (upto 7).flatMap fun j => measurementBlock s (j + 1)
        else measurementBlock s i
      spdmSigned 0x60 ([0xE0, index] ++ nonce) (blocks ++ n) s) s

/-- Zelholt's vendor-defined request: the ML-DSA-87 signature of the FW key over the same transcript. -/
def execVendorMlDsaSignature (s : State) : Out :=
  live (spdmCrypto fun s =>
    let sig := Config.mldsaSign (idOf s 2).mldsa.1 s.klp.transcript
    { s with klp := { s.klp with answer := some ⟨0x7E, sig⟩ } }) s

end Sys2Proof.Machine
end

