-- ==== Sys2Proof/Machine/Determinism.lean ====
section
/-! DEFINITION. The time base and its tree (R377 to R380), the START barrier and the alignment of the cycle count
(R383, R384), the determinism switches (R371) and the Scent log's calls (R387, R388). -/

namespace Sys2Proof.Machine

/-! ## TIME messages (R379, R380) -/

/-- The parent port; none for the hall's root and for a module without a parent (R378). -/
def parentPort (s : State) : Option Nat :=
  if s.rdB F.DET_TSRC_ROOT || 144 ≤ s.rd F.DET_TSRC_PORT then none else some (s.rd F.DET_TSRC_PORT)

def timeRec (s : State) (p : Nat) : TimeRec := Tbl.get s.det.recs p {}

def setTimeRec (p : Nat) (x : TimeRec) (s : State) : State :=
  { s with det := { s.det with recs := Tbl.put s.det.recs p x {} } }

/-- A signed value saturated to `n` bits. -/
def satInt (n : Nat) (v : Int) : Nat := (saturate n v).1

/-- Acts on the offset θ = h / 2 ps: a step beyond 1 µs, and a trim below it. -/
def applyOffset (h : Int) (s : State) : State :=
  let s := s.wr F.DET_TSTS_OFFSET (satInt 16 (Int.fdiv h 200))
  if 2000000 < h.natAbs then
    stepped { s with time := ((s.time : Int) - Int.fdiv (9 * h) 2).toNat }
  else
    let lim := fun (v : Int) => max (-250000) (min 250000 v)
    let good := if h.natAbs ≤ 200 then s.det.good + 1 else 0
    let s := { s with det := { s.det with trim := lim (-(Int.fdiv h 2)), good := min good 16 } }
    if 16 ≤ good then s.wr F.DET_TSTS_LOCKED 1 else s

/-- A TIME message on the parent port: delay and offset follow when the four times are known. -/
def parentTime (p : Nat) (x : TimeRec) (b : List Byte) (s : State) : State :=
  let s := s.wr F.DET_TSTS_HOLDOVER 0
  let t1 := field b 0 8
  let t4 := field b 8 8
  let nseq : W32 := BitVec.ofNat 32 (field b 16 4)
  let rseq : W32 := BitVec.ofNat 32 (field b 20 4)
  match x.sent.find? fun y => y.1 == rseq with
  | some (_, t3) =>
    if x.rxLast ≠ 0 ∧ x.rxSeq + 1 = nseq ∧ t4 ≠ 0 then
      let fwd : Int := (x.rxLast : Int) - t1
      let back : Int := (t4 : Int) - t3
      let d := Int.fdiv (fwd + back) 2
      let s := (s.wr F.DET_LINKDLY_DELAY (min d.toNat (2 ^ 24 - 1)) p).wr F.DET_LINKDLY_VALID 1 p
      applyOffset (fwd - back) s
    else s
  | none => s

/-- A TIME message arrives: it is answered, its times are recorded, and one from the parent is acted on. -/
def timeMsg (a : Arrival) (s : State) : State :=
  let s := takeArrival a s
  if a.pkt.len ≠ 2 then sendErr a.pkt Code.badDescriptor s
  else
    let x := timeRec s a.port
    let s := if parentPort s = some a.port then parentTime a.port x a.pkt.payload s else s
    let y := { timeRec s a.port with rxLast := a.timePs, rxSeq := BitVec.ofNat 32 (field a.pkt.payload 16 4) }
    sendAck a.pkt (if a.port < 144 then setTimeRec a.port y s else s)

def execTime (a : Arrival) (s : State) : Out := onFabric (cond' (isFunction a.pkt timeAddr) (timeMsg a)) s

/-- The TIME message of a port, every 62.5 µs; the instant at which it crosses the pins is recorded when it does.
DESIGN CHOICE, log entry 98: unsafe. -/
def timeSend (p : Nat) (s : State) : State :=
  let ok := (s.rdB F.DET_TSRC_ROOT || s.rdB F.DET_TSTS_LOCKED) && s.portUp p && parentPort s != some p
  match ok, (s.port p).ident with
  | true, some f =>
    let x := timeRec s p
    let b := leBytes 8 x.txLast ++ leBytes 8 x.rxLast ++ leBytes 4 x.txSeq.toNat ++ leBytes 4 x.rxSeq.toNat ++ leBytes 8 0
    let y := { x with txSeq := x.txSeq + 1 }
    enqueue (moduleMsg s f.eid.toNat timeAddr b) .module (some p) (setTimeRec p y s)
  | _, _ => s

def execTimeSend (p : Nat) (s : State) : Out := fabricUnit p 144 (timeSend p) s

/-- 1 ms without a TIME message from the parent. -/
def timeHoldover (s : State) : State := if (parentPort s).isSome then s.wr F.DET_TSTS_HOLDOVER 1 else s

def execTimeHoldover (s : State) : Out := onFabric timeHoldover s

/-! ## DET_CTL (R371, R383) -/

def execNoadapt (v : Bool) (s : State) : Out := onFabric (fun s => s.wr F.DET_CTL_NOADAPT (b2n v)) s
def execNofast (v : Bool) (s : State) : Out := onFabric (fun s => s.wr F.DET_CTL_NOFAST (b2n v)) s

/-- A write of ALIGN waits for its conditions. -/
def execAlign (s : State) : Out := onFabric (fun s => { s with det := { s.det with alignWait := true } }) s

/-- The alignment takes effect. -/
def alignEffect (s : State) : State :=
  let busy := (upto 32).any fun c => (s.core c).st == .load || (s.core c).st == .run
  if s.det.alignWait && s.rdB F.DET_TSTS_LOCKED && !busy && s.rd F.POL_STS_CUR == 0 then
    let s := { s with cyc := BitVec.ofNat 64 (s.time / 5000), det := { s.det with alignWait := false } }
    s.wr F.DET_TSTS_ALIGNED 1
  else s

def execAlignEffect (s : State) : Out := onFabric alignEffect s

/-! ## START (R384) -/

/-- A command whose program can still be started: not read yet, read ahead, or issued with a program that does not run
(log: what lies behind HEAD). DEDUCED, log entry 35: unsafe. -/
def canStart (s : State) (k q : Nat) (x : Queue) (seq : W32) : Bool :=
  let behind := 0 < (x.head - seq).toNat && (x.head - seq).toNat < 2 ^ 31
  !behind || (x.ahead.any fun d => d.seq == seq) ||
  (match findCmd s k q seq with
    | some c => !c.done && (match c.prog.bind (findProg s) with
        | some p => !p.running
        | none => true)
    | none => false)

/-- A barrier whose program has finished loading. -/
def barrierLoaded (s : State) (b : Start) : Bool :=
  s.isl.progs.any fun p => p.k == b.k && p.q == b.q && p.seq == b.seq && !p.cores.isEmpty && p.loaded.length == p.ncore

/-- Arms a barrier, in place of one whose program has not finished loading. DEDUCED, log entry 35: unsafe. -/
def armBarrier (b : Start) (s : State) : State :=
  let left := s.det.barriers.filter fun x => !(x.k == b.k && x.q == b.q) || barrierLoaded s x
  let l := if left.any fun x => x.k == b.k && x.q == b.q && x.seq == b.seq then left else left ++ [b]
  { s with det := { s.det with barriers := l } }

/-- A START packet of a kennel. DEDUCED, log entry 35: unsafe. DEDUCED, log entry 87: unsafe. -/
def startMsg (k : Nat) (p : Packet) (s : State) : State :=
  let b := p.payload
  let q := field b 8 1
  let ts := field b 0 8
  let whs := field b 10 2
  let seq : W32 := BitVec.ofNat 32 (field b 12 4)
  if p.len ≠ 1 ∨ 16 ≤ q ∨ field b 9 1 ≠ 0 ∨ bits whs 14 12 ≠ 0 then sendErr p Code.badDescriptor s
  else if (s.kennel k).st ≠ .open ∨ (bit whs 15 ∧ (s.kennel k).nWh ≤ whs % 4096) then sendErr p Code.protection s
  else match s.queue k q with
    | none => sendErr p Code.protection s
    | some x =>
      if !canStart s k q x seq then sendAck p (s.count F.DET_MISS_CNT_COUNT)
      else
        let s := scentLog k 5 0 q seq ts [] none (armBarrier { k := k, q := q, seq := seq, cycle := ceilDiv (ts * 9) 5 } s)
        sendAck p (if bit whs 15 then
          let w := whs % 4096
          let s := applyAdd k (some (w, 1)) s
          scentLog k 3 0 w 0 (s.whistle k w).toNat (leBytes 2 p.src.toNat) none s
        else s)

def execStart (a : Arrival) (s : State) : Out := onFabric (cond' (a.pkt.opc == 0x21) (forKennel a startMsg)) s

/-! ## The Scent log (R387, R388) -/

/-- Whether a range is mapped with W. -/
def writable (s : State) (k va n : Nat) : Bool :=
  mapped s k va n && (pagesOf va n).all fun p => Pte.w ((pageEntry s k p).getD 0)

/-- The bits that an event mask has: the record types of R389. -/
def scentTypes : Nat := 0x80FE

/-- DEDUCED, log entry 37: unsafe. -/
def kscent (k ring log2 mode mask dig n : Nat) (s : State) : State :=
  let size := 128 + 128 * 2 ^ min log2 24
  call
    [feat (!s.hasPool || !(s.kennel k).feature 15),
     bad (4095 < k || log2 < 10 || 24 < log2 || 2 < mode || 64 < n || ring % 2 ^ 21 != 0 || dig % 2 ^ 21 != 0 ||
       2 ^ 46 ≤ ring || 2 ^ 46 ≤ dig || (mask &&& scentTypes) != mask),
     prot (!inState s k [.created, .open]),
     prot (!writable s k ring size || (n != 0 && !mapped s k dig (16 * n)))]
    0 (setScent k (if mode = 0 then none
      else some { va := ring, log2 := log2, mode := mode, mask := mask, dig := dig, nDig := n })) s

def execKscent (k ring log2 mode mask digest count : W64) (s : State) : Out :=
  onFabric (kscent k.toNat ring.toNat log2.toNat mode.toNat mask.toNat digest.toNat count.toNat) s

/-- Space returns in a full ring: what was lost is recorded, and what was held may go on. -/
def scentSpaceReturn (k : Nat) (s : State) : State :=
  match s.scent k with
  | none => s
  | some x =>
    let (x, s) := reread k x s
    if x.appearsFull then setScent k (some x) s
    else if x.lost = 0 then setScent k (some x) s
    else scentPut k { x with lost := 0 } (scentRecord 0x0F 0 0 0 x.eno s.nowNs x.lost [] []) s

def execScentSpaceReturn (k : Nat) (s : State) : Out := fabricUnit k 4096 (scentSpaceReturn k) s

end Sys2Proof.Machine
end

