-- ==== Sys2Proof/Machine/Lanes.lean ====
section
/-! DEFINITION. The commands of ports and lanes: the fields of LNE_PCTL and LNE_PRBS, the steps of bring-up, the
control blocks, codewords, width changes and deep sleep (spec/02). -/

namespace Sys2Proof.Machine

/-! ## LNE_PCTL (R64) -/

/-- A write of MODE with value `m` that starts the new mode: it changes the value, the port is not held in OFF,
no port-fatal source blocks it, and Kelpie does not run the reporter alone, which leaves every port OFF (R414). -/
def modeWrite (p m : Nat) (f : State → State) (s : State) : State :=
  if s.rd F.LNE_PCTL_MODE p = m ∨ modeBlocked s p ∨ s.klp.mode = .reporter then s
  else
    let s := s.wr F.LNE_PCTL_MODE m p
    if (s.port p).forced then s else f s

/-- A change of MODE ends a come-up with a retained width: DETECT waits for all four lanes (R58). -/
def fullWidth (p : Nat) (s : State) : State := s.modPort p fun x => { x with retained := 0 }

/-- The main path that MODE = 1 starts. -/
def startMain (p : Nat) (s : State) : State := mainPath p (fullWidth p s)

/-- TEST: step 1 of R63. -/
def startTest (p : Nat) (s : State) : State :=
  let s := flushOut p (fullWidth p s)
  (enterDetect p (s.rd F.LNE_PCTL_MAXRUNG p) s).modPort p fun x =>
    { x.begin with climbing := false, testing := true, fails := 0, hold := false, prevSame := false }

def execPortOff (p : Nat) (s : State) : Out := fabricUnit p 144 (modeWrite p 0 (enterOff p)) s
def execPortBringup (p : Nat) (s : State) : Out := fabricUnit p 144 (modeWrite p 1 (startMain p)) s
def execPortTest (p : Nat) (s : State) : Out := fabricUnit p 144 (modeWrite p 2 (startTest p)) s

def execMaxrung (p : Nat) (v : BitVec 2) (s : State) : Out :=
  fabricUnit p 144 (fun s => s.wr F.LNE_PCTL_MAXRUNG v.toNat p) s

/-- RETRAIN acts on a port that has come up or is coming up; a step is abandoned, so the port comes up at the rung
before it (R45).  OFF, TEST and SLEEP stay, and so does a port that is on its way to TEST.
DEDUCED, log entry 83: unsafe. DESIGN CHOICE, log entry 90: unsafe. -/
def retrain (p : Nat) (s : State) : State :=
  let x := s.port p
  match x.st with
  | .off | .test | .sleep => s
  | .step => comeUpAgain p (x.worked.getD x.rung) s
  | _ => if x.testing then s else comeUpAgain p x.rung s

def execRetrain (p : Nat) (s : State) : Out := fabricUnit p 144 (retrain p) s

/-- CEILCLR clears the ceiling; it takes effect at the next bring-up (R64). -/
def clearCeiling (p : Nat) (s : State) : State := s.modPort p fun x => { x with ceilClr := true }

def execCeilclr (p : Nat) (s : State) : Out := fabricUnit p 144 (clearCeiling p) s

/-- FLAPCLR re-admits excluded lanes, which go on retraining in the background (R53). -/
def clearFlap (p : Nat) (s : State) : State := tryRestore p (s.modLanes p fun x => { x with excluded := false })

def execFlapclr (p : Nat) (s : State) : Out := fabricUnit p 144 (clearFlap p) s

def execSleepreq (p : Nat) (mask : BitVec 4) (s : State) : Out :=
  fabricUnit p 144 (sleepRequest p mask.toNat) s

/-! ## LNE_PRBS (R68): the fields hold what is written, and act in TEST only -/

def prbsTx (l : Nat) (v : Bool) (s : State) : State := s.wr F.LNE_PRBS_TXEN (b2n v) l

/-- The checker starts unsynchronised each time it is switched on. -/
def prbsRx (l : Nat) (v : Bool) (s : State) : State :=
  let was := s.rdB F.LNE_PRBS_RXEN l
  let s := s.wr F.LNE_PRBS_RXEN (b2n v) l
  if v && was then s else s.modLane l fun x => { x with sync := false, prbs := [] }

def execPrbsTxen (l : Nat) (v : Bool) (s : State) : Out := fabricUnit l 576 (prbsTx l v) s
def execPrbsRxen (l : Nat) (v : Bool) (s : State) : Out := fabricUnit l 576 (prbsRx l v) s

/-- One received bit of the pattern (R61): the checker synchronises on the first 31 or 13 bits that are not all 0, keeps
that synchronism, and then counts every bit that differs from what the pattern predicts.
DESIGN CHOICE, log entry 90: unsafe. -/
def patternBit (l : Nat) (s : State) (b : Bool) : State :=
  let x := s.lane l
  let n := if (s.port (l / 4)).rung = 0 then 31 else 13
  if x.sync then
    let want := if n = 31 then prbs31Next x.prbs else prbs13Next x.prbs
    let s := s.modLane l fun x => { x with prbs := (want :: x.prbs).take 31 }
    if b = want then s else s.count F.LNE_PRBS_ERR_COUNT l
  else
    s.modLane l fun x =>
      let h := (b :: x.prbs).take 31
      { x with prbs := h, sync := n ≤ h.length && h.any id }

def patternCheck (l : Nat) (bits : List Bool) (s : State) : State :=
  if (s.port (l / 4)).st = .test ∧ s.rdB F.LNE_PRBS_RXEN l then bits.foldl (patternBit l) s else s

def execPatternCheck (l : Nat) (bits : List Bool) (s : State) : Out := fabricUnit l 576 (patternCheck l bits) s

/-! ## Bring-up (R38 to R45) -/

/-- A receiver detect that sees the far end on the lanes it needs; the cartridge identity is the one read at the
entry to DETECT (R500). -/
def receiverDetect (p : Nat) (seen : BitVec 4) (cart : W32) (s : State) : State :=
  let x := s.port p
  if x.st = .detect then
    let s := s.modPort p fun x => { x with ownCart := cart }
    let need : BitVec 4 := if x.retained = 0 then 0xF else x.retained
    if !x.hold ∧ seen &&& need = need then enterTrain p s else s
  else s

def execReceiverDetect (p : Nat) (seen : BitVec 4) (cart : W32) (s : State) : Out :=
  fabricUnit p 144 (receiverDetect p seen cart) s

/-- A tap moved as requested, by 1, unless it is at its limit. -/
def moveTap (t : Int) (req : BitVec 2) (limit : Bool) : Int :=
  if limit then t else if req = 1 then t + 1 else if req = 2 then t - 1 else t

/-- The answer to a tap request: not updated, updated, or at the limit. -/
def tapAnswer (req : BitVec 2) (limit : Bool) : Nat := if req = 1 ∨ req = 2 then (if limit then 2 else 1) else 0

/-- The status field that answers a training frame (R38); a preset request answers no tap request. -/
def statusField (f : TrainFrame) : Nat :=
  (if f.preset then 0
   else tapAnswer f.reqPre f.limPre + 4 * tapAnswer f.reqMain f.limMain + 16 * tapAnswer f.reqPost f.limPost) +
  128 * b2n f.ownReady

/-- Preset gives every tap the value 0 and an increment is 1. DESIGN CHOICE, log entry 90: unsafe. -/
def applyTraining (f : TrainFrame) (x : Lane) : Lane :=
  let x := if f.preset then { x with tapPre := 0, tapMain := 0, tapPost := 0 }
    else { x with tapPre := moveTap x.tapPre f.reqPre f.limPre, tapMain := moveTap x.tapMain f.reqMain f.limMain,
                  tapPost := moveTap x.tapPost f.reqPost f.limPost }
  { x with polInv := f.inverted, status := BitVec.ofNat 8 (statusField f),
           rdyRun := if f.rxReady && f.ownReady then x.rdyRun + 1 else 0 }

/-- BITLOCK: block streams start and the precoder starts at 0 (R25). -/
def enterBitlock (p : Nat) (s : State) : State :=
  ((s.setLine p {}).modPort p fun x => { x with st := .bitlock, sinceFill := 0 }).modLanes p
    fun x => { x with precode := 0 }

/-- A training frame on a lane that retrains in the background: its third ready frame takes it to BITLOCK (R25, R53). -/
def retrained (f : TrainFrame) (x : Lane) : Lane :=
  let x := applyTraining f x
  if x.rdyRun = 3 then { x with precode := 0 } else x

def trainingFrame (l : Nat) (f : TrainFrame) (s : State) : State :=
  let p := l / 4
  match (s.port p).st with
  | .train =>
    if (s.port p).map.getLsbD (l % 4) then
      let s := s.modLane l (applyTraining f)
      if (upto 4).all fun i => !(s.port p).map.getLsbD i || 3 ≤ (s.lane (4 * p + i)).rdyRun then
        enterBitlock p s
      else s
    else s
  | .active => if (s.lane l).lost then s.modLane l (retrained f) else s
  | _ => s

def execTrainingFrame (l : Nat) (f : TrainFrame) (s : State) : Out := fabricUnit l 576 (trainingFrame l f) s

/-- Bit lock: on every active lane of a port in BITLOCK, or, on an ACTIVE port, on the lanes that have retrained
in the background or are waking.  A lane that drops bit lock on the way from MARKLOCK or in TEST regains it so. -/
def bitlock (p : Nat) (s : State) : State :=
  match (s.port p).st with
  | .bitlock =>
    let m := (s.port p).map
    let s := (upto 4).foldl (fun s i =>
      if m.getLsbD i then s.modLane (4 * p + i) fun x => { x with bitLock := true } else s) s
    if (s.port p).testing then s.modPort p fun x => { x with st := .test }
    else s.modPort p fun x => { x with st := .marklock }
  | .marklock | .capx | .test =>
    let m := (s.port p).tx
    (upto 4).foldl (fun s i =>
      if m.getLsbD i then s.modLane (4 * p + i) fun x => { x with bitLock := true } else s) s
  | .active =>
    s.modLanes p fun x => if (x.lost && 3 ≤ x.rdyRun) || x.exiting then { x with bitLock := true } else x
  | _ => s

def execBitlockAchieved (p : Nat) (s : State) : Out := fabricUnit p 144 (bitlock p) s

/-- The timeout of a state that has one (R38). DESIGN CHOICE, log entry 8: safe. -/
def stateTimeout (p : Nat) (s : State) : State :=
  match (s.port p).st with
  | .train | .bitlock | .marklock | .capx | .step => attemptFailed p s
  | _ => s

def execStateTimeout (p : Nat) (s : State) : Out := fabricUnit p 144 (stateTimeout p) s

def execNolinkHoldEnd (p : Nat) (s : State) : Out :=
  fabricUnit p 144 (fun s => s.modPort p fun x => { x with hold := false }) s

def stepEnd (p : Nat) (s : State) : State := if (s.port p).st = .step then enterTrain p s else s

def execStepEnd (p : Nat) (s : State) : Out := fabricUnit p 144 (stepEnd p) s

/-! ## Markers (R32 to R35) -/

/-- Lock after two markers one period apart whose numbers differ by 1. -/
def applyMarker (m : MarkerBlk) (x : Lane) : Lane :=
  let hit := m.onTime && (x.lastSeq.any fun q => m.mseq == q + 1)
  { x with farLane := m.lane, seen := true, lastSeq := some m.mseq, missed := 0, skew := m.skewNs,
           early := m.earlyNs, markLock := x.markLock || hit }

/-- The spread of the active lanes' markers, taken with that of one more lane (R35). -/
def spread (s : State) (l : Nat) : Nat :=
  (lanesOf (l / 4)).foldl (fun n k => if laneActive s k then max n (s.lane k).skew else n) (s.lane l).skew +
    (if laneActive s l then 0 else (s.lane l).early)

/-- MARKLOCK ends when every active lane holds marker lock: within 64 ns of skew in CAPX, otherwise as a failed
attempt. -/
def marklockDone (p : Nat) (s : State) : State :=
  let act := (upto 4).filter fun i => (s.port p).map.getLsbD i
  if act.all fun i => (s.lane (4 * p + i)).markLock then
    if act.all fun i => (s.lane (4 * p + i)).skew ≤ 64 then
      let m := act.foldl (fun m i => setBit m (logical s (4 * p + i))) 0
      enterCapx p (s.modPort p fun x => { x with map := BitVec.ofNat 4 m })
    else attemptFailed p (event F.LNE_EVT_DESKEW p s)
  else s

/-- A MARKER found; after MARKLOCK a spread above 64 ns is an event and no more (R35, R66). -/
def marker (l : Nat) (m : MarkerBlk) (s : State) : State :=
  let p := l / 4
  if m.errored then s
  else
    match (s.port p).st with
    | .marklock => if (s.lane l).bitLock then marklockDone p (s.modLane l (applyMarker m)) else s
    | .capx | .active =>
      if (s.lane l).bitLock then
        let s := s.modLane l (applyMarker m)
        if 64 < spread s l then event F.LNE_EVT_DESKEW p s else s
      else s
    | _ => s

def execMarker (l : Nat) (m : MarkerBlk) (s : State) : Out := fabricUnit l 576 (marker l m) s

/-- Two expected markers missed in a row drop marker lock, and a lane of an ACTIVE port is then lost (R33, R47). -/
def markerMissed (l : Nat) (s : State) : State :=
  let x := s.lane l
  if x.markLock then
    if x.missed = 0 then s.modLane l fun x => { x with missed := 1 }
    else
      let s := s.modLane l fun x => { x with markLock := false, missed := 0, lastSeq := none }
      if (s.port (l / 4)).st = .active then laneDown l s else s
  else s

def execMarkerMissed (l : Nat) (s : State) : Out := fabricUnit l 576 (markerMissed l) s

/-- The MARKER block of a transmit lane (R32): width and map are those of the sets that are sent. -/
def ownMarker (x : Port) (i : Nat) : Blk :=
  markerBlk i (mapCount (txMap x).toNat) (txMap x).toNat x.mseq.toNat x.rung

/-- Every active lane sends a MARKER: the codeword-set index is 0 modulo 16,384 (R32).  It goes before a WIDTH block
that waits. -/
def markerSend (p : Nat) (s : State) : State :=
  let x := s.port p
  if streaming x.st then
    let x := { x with mseq := x.mseq + 1, setIdx := 0 }
    (s.setPort p x).modLine p fun y => { y with local' := (upto 4).foldl (fun t i =>
      if (txMap x).getLsbD i then Tbl.put t i (ownMarker x i :: Tbl.get t i []) [] else t) y.local' }
  else s

def execMarkerSend (p : Nat) (s : State) : Out := fabricUnit p 144 (markerSend p) s

/-! ## CAP (R41) -/

/-- A valid CAP block; the first one with ACK set at the parent port gives the time pair (R378). -/
def cap (p : Nat) (b : CapBlk) (s : State) : State :=
  let x := s.port p
  if x.st = .capx ∧ !b.errored ∧ b.rungs.getLsbD x.rung then
    let s := s.modPort p fun x =>
      { x with capFar := true, farRungs := b.rungs, farCaps := b.caps, ident := some b.ident,
               farAck := x.farAck || b.ack, farStep := x.farStep || (b.ack && b.step) }
    if b.ack && s.rd F.DET_TSRC_PORT == p && s.det.pair.all (·.1 != p) then
      { s with det := { s.det with pair := some (p, b.stampNs.toNat, b.arrivalPs) } }
    else s
  else s

def execCap (p : Nat) (b : CapBlk) (s : State) : Out := fabricUnit p 144 (cap p b) s

/-- Codeword sets until no block of the port stream waits. DESIGN CHOICE, log entry 102: unsafe. -/
def sendRest (p : Nat) : Nat → State → State
  | 0, s => s
  | n + 1, s => if (s.line p).stream.isEmpty then s else sendRest p n (codewordSet p s)

/-- A lane of the active map that holds no bit lock or no marker lock when the port enters ACTIVE is lost (R47). -/
def judgeLocks (p : Nat) (s : State) : State :=
  (lanesOf p).foldl (fun s l =>
    let x := s.lane l
    if s.portUp p && laneActive s l && !x.lost && !(x.bitLock && x.markLock) then laneDown l s else s) s

/-- The eighth CAP block with ACK after the far end's first ACK ends CAPX: STEP, once the blocks that wait have been
sent at this rung, when both ends sent STEP, otherwise ACTIVE. -/
def leaveCapx (p : Nat) (s : State) : State :=
  let x := s.port p
  if x.stepSent ∧ x.farStep then
    (sendRest p (s.line p).stream.length s).modPort p fun x =>
      { x with st := .step, worked := some x.rung, rung := x.rung + 1, fails := 0 }
  else judgeLocks p (enterActive p s)

/-- The CAP block of this end (R41): FINAL once the far end's rungs show no step to come.
DESIGN CHOICE, log entry 89: unsafe. -/
def ownCap (s : State) (p : Nat) : CapBlk :=
  let x := s.port p
  { ack := x.capFar, step := x.capFar && (x.stepSent || wantsStep s p), final := x.capFar && !wantsStep s p,
    rungs := 0xF, lanes := 0xF, version := 1, caps := 3, ident := ownIdent s p,
    stampNs := BitVec.ofNat 64 (s.time / 9000), errored := false, arrivalPs := 0 }

/-- A CAP block joins the port stream (R41); with ACK and the far end's ACK it counts toward the end of CAPX. -/
def capSend (p : Nat) (s : State) : State :=
  let x := s.port p
  if x.st = .capx then
    let want := wantsStep s p
    let s := sendBlks p [capBlk (ownCap s p)] s
    if x.capFar then
      let s := s.modPort p fun x =>
        { x with stepSent := x.stepSent || want, acksSent := if x.farAck then x.acksSent + 1 else x.acksSent }
      if 8 ≤ (s.port p).acksSent then leaveCapx p s else s
    else s
  else s

def execCapSend (p : Nat) (s : State) : Out := fabricUnit p 144 (capSend p) s

/-! ## Fillers, idles and reserved blocks (R31, R36, R37, R74, R75) -/

def fillerSend (p : Nat) (s : State) : State :=
  if streaming (s.port p).st then sendBlks p [fillerBlk] s else s

def execFillerSend (p : Nat) (s : State) : Out := fabricUnit p 144 (fillerSend p) s

/-- A received FILLER is deleted, so nothing changes. -/
def execFiller (p : Nat) (s : State) : Out := fabricUnit p 144 id s

/-- An IDLE block ends RESYNC: the receiver is framed from the next data block.  One inside a frame enters RESYNC
(R75), and the frame it cuts is discarded. -/
def idleBlock (p : Nat) (inside : Bool) (s : State) : State :=
  if !s.portUp p || !passing s p then s
  else if inside && (s.link p).framed then (s.count F.LNK_BADFRM_CNT_COUNT p).modLink p Link.resync
  else s.modLink p fun l => { l with framed := true, sepSeen := true }

def execIdle (p : IdleAt) (s : State) : Out := fabricUnit p.port 144 (idleBlock p.port p.inside) s

/-- A control block of a reserved type is discarded. -/
def execReservedControlBlock (p : Nat) (_typ : Byte) (s : State) : Out := fabricUnit p 144 id s

/-! ## Codewords (R27, R28, R47) -/

/-- A codeword's blocks go to the descrambler and to the port stream; one that begins with a MARKER is of the set with
index 0 (R32). -/
def handOn (l : Nat) (bad : Bool) (w : List Nat) (s : State) : State :=
  let p := l / 4
  let msg := symbolBits (w.take 514)
  let (bs, r) := receivedBlks bad msg (s.lane l).rxScr
  let n := if !bad && markerFirst msg then 0 else (s.lane l).rxSet + 1
  let s := s.modLane l fun x => { x with rxScr := r, rxSet := n }
  let m := rxMap (s.port p)
  if m.getLsbD (logical s l) && (s.lane l).markLock then
    reassemble p (logical s l) n ((upto 4).filter fun i => m.getLsbD i) (passing s p) bs s
  else s

/-- A lane's codeword. DESIGN CHOICE, log entry 7: unsafe. -/
def codeword (l : Nat) (rx : List (BitVec 10)) (s : State) : State :=
  let p := l / 4
  if streaming (s.port p).st ∧ (s.lane l).bitLock then
    match rsDecode (rx.map BitVec.toNat) with
    | some (w, n) =>
      let s := handOn l false w (s.modLane l fun x => { x with ucRun := 0 })
      if n = 0 then s
      else
        let s := s.count F.LNE_FEC_CCW_COUNT l
        if laneActive s l && bit s.spg.active.flags 0 then s.count F.LNE_FEC_HIST_COUNT (16 * p + n) else s
    | none =>
      let s := handOn l true (rx.map BitVec.toNat) (s.count F.LNE_FEC_UCW_COUNT l)
      if laneActive s l then
        let s := s.modLane l fun x => { x with ucRun := x.ucRun + 1 }
        let s := if s.portUp p then s.modLink p Link.resync else s
        if s.portUp p && 4 ≤ (s.lane l).ucRun then laneDown l s else s
      else s.modLane l fun x => { x with ready := false }
  else s

def execCodeword (l : Nat) (rx : List (BitVec 10)) (s : State) : Out := fabricUnit l 576 (codeword l rx) s

/-! ## Width changes (R47 to R55) -/

def execLaneLoss (l : Nat) (s : State) : Out := fabricUnit l 576 (laneLost l) s

/-- The width and map two crossed fallbacks agree on (R51): the narrower one, or at equal widths the
lowest-numbered lanes healthy in both. -/
def crossed (w1 m1 w2 m2 : Nat) : Nat × Nat :=
  if w1 < w2 then (w1, m1) else if w2 < w1 then (w2, m2)
  else
    let m := m1 &&& m2
    let w := fitWidth (mapCount m)
    (w, lowestLanes w m)

/-- A received WIDTH block on an ACTIVE port (R49, R51, R54, R57, R58). DESIGN CHOICE, log entry 100: unsafe. -/
def widthBlock (p : Nat) (b : WidthBlk) (s : State) : State :=
  if !s.portUp p then s
  else
    let kind := if b.sleep then WKind.sleep else if b.up then .restore else .fallback
    if b.sleep && b.width == 0 then enterSleep p (s.setLine p {})
    else
      match (s.port p).chg with
      | none =>
        if b.ack then s else startChange p kind b.width (farMap s p kind b.map.toNat) (some b.switch) s
      | some c =>
        if c.kind = kind then
          match kind with
          | .fallback =>
            let far := farMap s p kind b.map.toNat
            let (w, m) := if b.ack ∧ c.rxAt.isNone ∧ b.width = c.width ∧ far = c.map.toNat then (c.width, far)
              else crossed c.width c.map.toNat b.width far
            let c' := { c with width := w, map := BitVec.ofNat 4 m, tx := txLanes s p kind m, rxAt := some b.switch, sentAck := c.sentAck || !b.ack }
            let s := s.modPort p fun x => { x with chg := some c' }
            if !b.ack && !c.sentAck then sendWidth p c' true s else s
          | _ =>
            s.modPort p fun x => { x with chg := some { c with rxAt := some b.switch }, paused := true }
        else if c.kind = .restore ∧ kind = .fallback then
          let s := abandonRestore p c s
          startChange p .fallback b.width (farMap s p kind b.map.toNat) (some b.switch) s
        else s

def execWidth (p : Nat) (b : WidthBlk) (s : State) : Out := fabricUnit p 144 (widthBlock p b) s

/-- A switch index is reached: the transmitter's own, or the far end's at the receiver.  The change is complete
when both are. -/
def switchIndex (p : Nat) (tx : Bool) (s : State) : State :=
  match (s.port p).chg with
  | none => s
  | some c =>
    if c.rxAt.isNone then s
    else
      let c := if tx then { c with txDone := true } else { c with rxDone := true }
      let s := s.modPort p fun x =>
        { x with chg := some c, setIdx := if tx then c.txAt else x.setIdx }
      if c.txDone ∧ c.rxDone then completeChange p c s else s

def execSwitchIndex (p : Nat) (tx : Bool) (s : State) : Out := fabricUnit p 144 (switchIndex p tx) s

/-- A lane is ready to rejoin: marker lock within the skew limit, not excluded (R53, R54), and not asked to sleep. -/
def laneReady (l : Nat) (s : State) : State :=
  let p := l / 4
  let x := s.lane l
  if s.portUp p && !laneActive s l && x.bitLock && x.markLock && spread s l ≤ 64 && !x.excluded && !x.asleep &&
      !x.entering && !sleepAsked s l then
    tryRestore p (s.modLane l fun x => { x with ready := true })
  else s

def execLaneReady (l : Nat) (s : State) : Out := fabricUnit l 576 (laneReady l) s

/-! ## Deep sleep (R56) -/

def sleepEntryDone (l : Nat) (s : State) : State :=
  if (s.lane l).entering then
    s.modLane l fun x => { x with entering := false, asleep := true, bitLock := false, markLock := false }
  else s

def execSleepEntryDone (l : Nat) (s : State) : Out := fabricUnit l 576 (sleepEntryDone l) s

/-- A waking lane without bit lock after 60 µs is treated as lost and retrains in the background. -/
def sleepExitTimeout (l : Nat) (s : State) : State :=
  if (s.lane l).exiting && !(s.lane l).bitLock then recordLoss l s else s

def execSleepExitTimeout (l : Nat) (s : State) : Out := fabricUnit l 576 (sleepExitTimeout l) s

end Sys2Proof.Machine
end

