-- ==== Sys2Proof/Machine/Links.lean ====
section
/-! DEFINITION. The link layer's commands: received frames, timeouts and the wiring sweep (R71 to R86, R101). -/

namespace Sys2Proof.Machine

/-! ## Frame bytes (R71, R72, R76) -/

def slotBytes (x : Slot) : List Byte :=
  if x.data then
    leBytes 3 (x.seq.toNat + x.vc.toNat * 2 ^ 12 + 2 ^ 15 + x.fill.toNat * 2 ^ 16) ++
      (x.bytes ++ List.replicate 256 0).take 256
  else List.replicate 259 0

/-- The eight running totals, 12 bits each. -/
def creditField (l : List (BitVec 12)) : Nat := l.foldr (fun c n => c.toNat + 4096 * n) 0

/-- Bytes 0 to 1,051 of a frame. -/
def frameBody (f : Frame) : List Byte :=
  leBytes 2 (f.ack.toNat + b2n f.ackv * 2 ^ 12 + b2n f.nak * 2 ^ 13) ++ leBytes 12 (creditField f.credit) ++
  leBytes 2 0 ++ f.slots.flatMap slotBytes

/-- The 1,056 bytes of a frame. -/
def frameBytes (f : Frame) : List Byte := frameBody f ++ leBytes 4 f.lcrc.toNat

def frameGood (f : Frame) : Bool := f.lcrc.toNat == crc32 (frameBody f)

/-! ## Receiving -/

/-- Credits of a good frame: each channel gains what its total has grown by (R85). -/
def applyCredit (f : Frame) (l : Link) : Link :=
  let grow := (l.farTot.zip f.credit).map fun x => (x.2 - x.1).toNat
  { l with farTot := f.credit, credits := (l.credits.zip grow).map fun x => x.1 + x.2 }

/-- A sequence number has been sent since the entry to ACTIVE. -/
def Link.wasSent (l : Link) (n : BitVec 12) : Bool := l.anySent && (l.wrapped || n.toNat < l.txSeq.toNat)

/-- The acknowledgement of a good frame frees the units it covers, and one of units that are free already none; none is
answered when it names a number that was never sent (R78, R81). -/
def applyAck (f : Frame) (l : Link) : Option Link :=
  if f.ackv then
    let oldest := l.txSeq - BitVec.ofNat 12 l.replay.length
    let d := (f.ack - oldest + 1).toNat
    if 0 < d ∧ d ≤ l.replay.length then
      let rest := l.replay.drop d
      some { l with replay := rest, resend := min l.resend rest.length, retries := 0 }
    else if l.wasSent f.ack then some l
    else none
  else some l

/-- A carried check that failed at ingress of port `p` (R113, R116). -/
def checkMissed (p : Nat) (s : State) : State := (event F.LNK_EVT_CHKFAIL p s).count F.LNK_CHKFAIL_CNT_COUNT p

/-- The bytes of a packet carry the check that they form. -/
def bytesGood (l : List Byte) : Bool :=
  let pkt := Packet.ofBytes l
  pkt.check == pkt.crc

/-- The check of a discarded packet, once it has arrived whole (R95). -/
def checkJunk (p v : Nat) (s : State) : State :=
  let x := (s.link p).vc v
  if x.left = 0 ∧ !x.junk.isEmpty then
    let s := s.modLink p fun l => l.setVc v { l.vc v with junk := [] }
    if bytesGood x.junk then s else checkMissed p s
  else s

/-- Two records are of one received packet: the original and its copies. -/
def sameArrival (f g : Flow) : Bool := f.inp == g.inp && f.vc == g.vc && f.off == g.off

/-- An ingress copy has been made: the original goes to that analysis port no second time (R148). -/
def noteCopy (f : Flow) (s : State) : State :=
  { s with xbr := { s.xbr with flows := s.xbr.flows.map fun g =>
    if g.mirror.isNone && sameArrival f g then { g with copied := g.copied ++ [f.out] } else g } }

/-- The copy of a twin-marked packet that was accepted in this cycle from a higher ingress position: the one at the lower
position is accepted in its place (R445). -/
def twinRival (s : State) (f : Flow) : Option Flow :=
  s.xbr.flows.find? fun g => g.twinAt == some s.time && f.inp < g.inp && !g.admitted && g.hdr.src == f.hdr.src &&
    g.hdr.win == f.hdr.win && g.hdr.psn == f.hdr.psn

/-- The check of a packet that has arrived whole (R95): a failure is counted, and a packet that an output holds
store-and-forward is discarded.  An ingress copy is made once the check has passed, an egress copy goes ahead (R145).  A
twin copy addressed to the module passes the elimination of R445. -/
def checkWhole (id : Nat) (s : State) : State :=
  match findFlow s id with
  | none => s
  | some f =>
    if f.bytes.length < f.total ∨ 144 ≤ f.inp then s
    else if f.mirror.isSome then
      if !f.mirIn then s
      else if !bytesGood f.bytes then removeFlow f s
      else
        let n := if f.trunc then min f.total 256 else f.total
        let s := noteCopy f s
        modFlow id (fun f => { f with mirIn := false, total := n, bytes := f.bytes.take n }) s
    else if bytesGood f.bytes then
      if 144 ≤ f.out ∧ f.hdr.twn ∧ f.hdr.dst.toNat = s.self then
        match acceptTwin f.hdr s with
        | (true, s) => modFlow id (fun f => { f with twinAt := some s.time }) s
        | (false, s) => removeFlow ((twinRival s f).getD f) s
      else s
    else
      let s := modFlow id (fun f => { f with chkBad := true }) (checkMissed f.inp s)
      if f.admitted ∧ f.saf ∧ !f.started then dropFlow { f with chkBad := true } .safchk s else s

/-- Bytes of the stream join a packet, and once it is whole its check is made. -/
def appendTo (d : List Byte) (s : State) (id : Nat) : State :=
  checkWhole id (modFlow id (fun f => { f with bytes := (f.bytes ++ d).take f.total }) s)

/-- The bytes of one accepted unit join the channel's stream: first those of the packet in progress, then those
that belong to no parsed packet yet.  Bytes of a discarded packet leave staging at once, and its check is made with the
last of them. -/
def stageUnit (p : Nat) (u : Slot) (s : State) : State :=
  let v := u.vc.toNat
  let n := u.fill.toNat + 1
  let data := u.bytes.take n
  let x := (s.link p).vc v
  let now := data.take (min x.left n)
  let later := data.drop now.length
  let lo := x.off
  let s := s.modLink p fun l => l.setVc v
    { x with off := lo + n, left := x.left - now.length, bytes := x.bytes ++ later,
             units := x.units ++ [⟨lo, lo + n, n⟩], junk := if x.flow.isNone then x.junk ++ now else [] }
  if now.isEmpty then s
  else
    let s := x.also.foldl (appendTo now) (s.count F.OUB_RXBYTE_CNT_COUNT p now.length)
    match x.flow with
    | some id => appendTo now s id
    | none => checkJunk p v (s.modLink p fun l => l.leave v lo (lo + now.length))

/-- One slot of a good frame (R78, R79).  A number is ahead of the expected one within half of the number range.
DESIGN CHOICE, log entry 91: unsafe. -/
def acceptSlot (p : Nat) (s : State) (u : Slot) : State :=
  let l := s.link p
  if !u.data then s
  else if u.seq = l.expE then
    if l.nakWait && !l.sepSeen then s
    else
      let s := s.modLink p fun l =>
        { l with expE := l.expE + 1, accepted := true, nakWait := false, nakOut := false }
      stageUnit p u (countRxUnit p (slotBytes u) s)
  else if l.nakWait then s
  else if (u.seq - l.expE).toNat < 2048 then
    s.modLink p fun l => { l with nakWait := true, sepSeen := false, nakOut := true }
  else s

/-- A link reset: the port comes up again without climbing (R81). DEDUCED, log entry 83: unsafe. -/
def linkReset (p : Nat) (s : State) : State :=
  comeUpAgain p (s.port p).rung (s.count F.LNK_RESET_CNT_COUNT p)

def linkFrame (p : Nat) (f : Frame) (s : State) : State :=
  if !s.portUp p || !passing s p then s
  else if !(s.link p).framed then s.count F.LNK_BADFRM_CNT_COUNT p
  else if !frameGood f then (s.count F.LNK_BADFRM_CNT_COUNT p).modLink p Link.resync
  else
    match applyAck f (applyCredit f (s.link p)) with
    | none => linkReset p (event F.LNK_EVT_PROTO p s)
    | some l =>
      let s := f.slots.foldl (acceptSlot p) (s.setLink p l)
      if f.nak ∧ s.portUp p then startReplay p false s else s

def execLinkFrame (p : Nat) (f : Frame) (s : State) : Out := fabricUnit p 144 (linkFrame p f) s

/-- The NAK wait has lasted RTO: NAK is sent again (R79). DESIGN CHOICE, log entry 8: safe. -/
def nakTimeout (p : Nat) (s : State) : State :=
  if s.portUp p && (s.link p).nakWait then s.modLink p fun l => { l with nakOut := true } else s

def execNakTimeout (p : Nat) (s : State) : Out := fabricUnit p 144 (nakTimeout p) s

def replayTimeout (p : Nat) (s : State) : State :=
  if s.portUp p && !(s.link p).replay.isEmpty then startReplay p true s else s

def execReplayTimeout (p : Nat) (s : State) : Out := fabricUnit p 144 (replayTimeout p) s

/-! ## The wiring sweep (R101, R114, R115) -/

/-- Word `k` of a port's far-end identity. DESIGN CHOICE, log entry 103: unsafe. -/
def faridWord (s : State) (p k : Nat) : Nat :=
  let i := (s.port p).ident
  match k with
  | 0 => (i.map fun i => i.uid.toNat % 2 ^ 32).getD 0
  | 1 => (i.map fun i => i.uid.toNat / 2 ^ 32).getD 0
  | 2 =>
    (i.map fun i => i.port.toNat + i.kind.toNat % 16 * 2 ^ 8 + i.eid.toNat * 2 ^ 16).getD 0 +
      b2n (s.portUp p) * 2 ^ 12 + b2n ((s.link p).quar || (s.link p).dup) * 2 ^ 13
  | _ => (i.map fun i => i.cart.toNat).getD 0

def sweepStart (s : State) : State :=
  if s.sweep.busy then s
  else { s with sweep := { s.sweep with busy := true, pos := 0, events := 0 } }.wr F.LNK_SWEEP_DONE 0

def execLinkSweepStart (s : State) : Out := onFabric sweepStart s

def sweepAbort (s : State) : State :=
  if s.sweep.busy then { s with sweep := { s.sweep with busy := false } } else s

def execLinkSweepAbort (s : State) : Out := onFabric sweepAbort s

def sweepStep (s : State) : State :=
  if s.sweep.busy then
    let p := s.sweep.pos
    let snap := (upto 4).foldl (fun t k => Tbl.put t (4 * p + k) (faridWord s p k) 0) s.sweep.snap
    let s := { s with sweep := { s.sweep with snap := snap, pos := p + 1, busy := p + 1 < 144 } }
    if p + 1 < 144 then s else s.wr F.LNK_SWEEP_DONE 1
  else s

def execSweepStep (s : State) : Out := onFabric sweepStep s

end Sys2Proof.Machine
end

