-- ==== Sys2Proof/Machine/Switch.lean ====
section
/-! DEFINITION. The switch core's commands: ingress, admission, cell slots, resequencing, serving an output, the
per-hop limit, and the planes (R87 to R91, R117 to R151, R156, R167, R168). -/

namespace Sys2Proof.Machine

/-! ## Mirror copies (R145, R146) -/

/-- The mirror sessions, in order, that copy a packet of port `p` in a direction (bit 0 ingress, bit 1 egress). -/
def mirrorsOf (s : State) (p dir : Nat) (pkt : Packet) : List Nat :=
  (upto 8).filter fun n =>
    s.rdB F.OUB_MIRCTL_EN n && bit (s.rd F.OUB_MIRCTL_DIR n) dir && s.rd F.OUB_MIRCTL_SPORT n == p &&
    s.rd F.OUB_MIRCTL_APORT n < 144 &&
    (!s.rdB F.OUB_MIRCTL_FLOW n ||
      ((!s.rdB F.OUB_MIRMATCH_KTAGEN n || s.rd F.OUB_MIRMATCH_KTAG n == pkt.ktag.toNat) &&
       (!s.rdB F.OUB_MIRMATCH_OPCEN n || s.rd F.OUB_MIRMATCH_OPC n == pkt.opc.toNat)))

/-- The analysis port of a session. -/
def aport (s : State) (n : Nat) : Nat := s.rd F.OUB_MIRCTL_APORT n

/-- Ingress copies of a packet that are not made yet: an egress copy to the same analysis port takes their place
(R148). -/
def pendingCopies (s : State) (f : Flow) (out : Nat) : List Flow :=
  s.xbr.flows.filter fun g => g.mirIn && g.out == out && sameArrival f g

/-- Makes the copies of a packet whose record is `f`: one for each analysis port that has none of it yet.  Bytes still
to come reach a copy through its stream; an egress copy with TRUNC set is cell 0 at once, an ingress copy once its check
has passed. DESIGN CHOICE, log entry 104: unsafe. -/
def makeMirrors (f : Flow) (p dir : Nat) (s : State) : State :=
  let ns := (mirrorsOf s p dir f.hdr).filter fun n => !f.copied.contains (aport s n)
  let ns := ns.filter fun n => !(ns.any fun m => m < n && aport s m == aport s n)
  ns.foldl (fun s n =>
    let trunc := s.rdB F.OUB_MIRCTL_TRUNC n
    let total := if trunc && dir == 1 then min f.total 256 else f.total
    let id := s.xbr.nextId
    let s := (pendingCopies s f (aport s n)).foldl (fun s g => removeFlow g s) s
    let g := { f with id := id, out := aport s n, evc := 7, total := total, bytes := f.bytes.take total, cells := [],
                      admitted := false, held := false, saf := true, chkBad := false, started := false, sent := 0,
                      mirror := some n, mirIn := dir == 0, trunc := trunc }
    let s := addFlow g s
    if f.inp < 144 ∧ f.bytes.length < total then
      s.modLink f.inp fun l => l.setVc f.vc { l.vc f.vc with also := (l.vc f.vc).also ++ [id] }
    else checkWhole id s) s

/-! ## Ingress (R156) -/

/-- The endpoint identity of the endpoint on a down port: the local entry of the ACTIVE tables that covers the
port, in this module's rack. DEDUCED, log entry 83: unsafe. -/
def sourceOk (s : State) (p : Nat) (src : Nat) : Bool :=
  let l := eidL src
  eidX src == eidX s.self && eidY src == eidY s.self && s.act F.RTE_LOCAL_KIND l == 1 &&
    s.act F.RTE_LOCAL_PORT l ≤ p && p ≤ s.act F.RTE_LOCAL_PORT l + s.act F.RTE_LOCAL_CNT l

/-- A down port carries its bound tag and no other (R91). -/
def tagOk (s : State) (p : Nat) (h : Packet) : Bool := boundTag s p == some h.ktag

/-- The colour floor of an ingress port and class. -/
def colourFloor (s : State) (p c : Nat) : Nat :=
  match c with
  | 0 => s.act F.XBR_INCOL_FLOOR0 p | 1 => s.act F.XBR_INCOL_FLOOR1 p
  | 2 => s.act F.XBR_INCOL_FLOOR2 p | _ => s.act F.XBR_INCOL_FLOOR3 p

/-- The packet carries another GEN than the live kennel of its tag (R187). -/
def genBad (s : State) (h : Packet) : Bool :=
  h.ktag != 0 && (match liveKennel s h.ktag with
    | some k => (s.kennel k).gen != h.gen
    | none => false)

/-- The checks of R90 and R91 that a header fails. DEDUCED, log entry 83: unsafe. -/
def headerCause (s : State) (p : Nat) (h : Packet) : Option Cause :=
  if 256 < h.len.toNat ∨ opcClass h.opc.toNat ≠ some (vcClass h.vc.toNat) ∨ eidReserved h.dst.toNat then
    some .malformed
  else if s.role p = 0 ∧ !(tagOk s p h && sourceOk s p h.src.toNat) then some .ktag
  else none

/-- The first check of a header at ingress that fails, in the order of the rules (R90, R91, R97, R187, R167,
R403). DEDUCED, log entry 83: unsafe. -/
def ingressCause (s : State) (p : Nat) (h : Packet) : Option Cause :=
  match headerCause s p h with
  | some c => some c
  | none =>
    if s.quarantined p ∧ vcClass h.vc.toNat ≠ 3 then some .quarantine
    else if genBad s h then some .gen
    else if s.act F.RTE_LIFE_HOPMAX < h.hop.toNat + 1 then some .lifetime
    else none

/-- The header as it goes on: HOP incremented, EPB written by the first module, colour raised to the floor
(R89, R129, R402). -/
def ingressHeader (s : State) (p : Nat) (h : Packet) : Packet :=
  let first := s.role p == 0
  { h with hop := h.hop + 1, epb := if first then s.spg.epb else h.epb,
           col := BitVec.ofNat 2 (min 2 (max h.col.toNat (colourFloor s p (vcClass h.vc.toNat)))) }

/-- Takes the next packet of a channel out of its stream: its ingress copies are made after the checks of R90, R91 and
R95, whatever becomes of the packet (R145); a discarded packet's check is made all the same (R95).
DESIGN CHOICE, log entry 13: unsafe. -/
def packetIngress (p v : Nat) (s : State) : State :=
  let x := (s.link p).vc v
  if !s.portUp p ∨ 0 < x.left ∨ x.bytes.length < 24 then s
  else
    let h := Packet.ofHeader x.bytes
    let total := h.size
    let n := min total x.bytes.length
    let off := x.off - x.bytes.length
    let now := x.bytes.take n
    let s := (s.count F.OUB_RXPKT_CNT_COUNT p).count F.OUB_RXBYTE_CNT_COUNT p n
    let s := s.modLink p fun l => l.setVc v
      { l.vc v with bytes := x.bytes.drop n, left := total - n, flow := none, also := [], junk := now }
    let cause := headerCause s p h
    let s := if cause.isSome then s
      else makeMirrors { id := s.xbr.nextId, inp := p, out := p, vc := v, evc := v, hdr := h, total := total,
                         bytes := now, off := off, at' := s.time } p 0 s
    let copied := (s.xbr.flows.filter fun g =>
      g.mirror.isSome && !g.mirIn && g.inp == p && g.vc == v && g.off == off).map (·.out)
    let drop := fun (c : Cause) (s : State) =>
      checkJunk p v ((countDrop p p h.ktag c s).modLink p fun l => l.leave v off (off + n))
    match ingressCause s p h with
    | some c => drop c s
    | none =>
      let h := ingressHeader s p h
      match lookupBank s h.epb with
      | none => drop .noroute (countOldEpb s)
      | some b =>
        let mk := fun (out evc : Nat) (dln : BitVec 2) (s : State) =>
          let f : Flow :=
            { id := s.xbr.nextId, inp := p, out := out, vc := v, evc := evc, hdr := leaveOn h evc dln, total := total,
              bytes := now, off := off, copied := copied, at' := s.time }
          let s := s.modLink p fun l => l.setVc v { l.vc v with flow := some f.id, junk := [] }
          checkWhole f.id (addFlow f s)
        match route s b p h with
        | (.port out evc dln, s) => mk out evc dln s
        | (.internal, s) => mk (internalPos h) h.vc.toNat h.dln s
        | (_, s) => drop .noroute s

def execPacketIngress (p : Nat) (v : BitVec 3) (s : State) : Out := fabricUnit p 144 (packetIngress p v.toNat) s

/-! ## Profiles (R126, R131, R148) -/

def profileOf (s : State) (o c : Nat) : Nat :=
  8 * c + (match c with
    | 0 => s.act F.OUB_CLS_PRF0 o | 1 => s.act F.OUB_CLS_PRF1 o
    | 2 => s.act F.OUB_CLS_PRF2 o | _ => s.act F.OUB_CLS_PRF3 o)

/-- One step of the register of R131, polynomial x^32 + x^22 + x^2 + x + 1. -/
def lfsrStep (r : W32) : W32 :=
  (r <<< 1) ||| (if r.getLsbD 31 ^^ r.getLsbD 21 ^^ r.getLsbD 1 ^^ r.getLsbD 0 then 1 else 0)

/-- The next random value of an output: the register after one step. DESIGN CHOICE, log entry 12: safe. -/
def lfsrDraw (p : Nat) (s : State) : Nat × State :=
  let r := lfsrStep ((s.outp p).lfsr.getD (Config.lfsrSeed s.xbr.resets p))
  (r.toNat, s.modOutp p fun o => { o with lfsr := some r })

/-- Random early drop at output `p` of colour `k` in profile `n` at an average with 8 fraction bits (R131).
DESIGN CHOICE, log entry 12: safe. -/
def wredDrop (p n k avg : Nat) (s : State) : Bool × State :=
  let i := 3 * n + k
  let lo := s.act F.OUB_WRED_MIN i * 1024
  let hi := s.act F.OUB_WRED_MAX i * 1024
  if hi ≤ lo then (decide (lo ≤ avg), s)
  else if avg < lo then (false, s)
  else if hi ≤ avg then (true, s)
  else
    let (draw, s) := lfsrDraw p s
    (decide (draw * (256 * (hi - lo)) < s.act F.OUB_WRED_PMAX i * (avg - lo) * 2 ^ 32), s)

/-! ## Admission (R124 to R132) -/

/-- The planes that take new cells: those enabled and in service, or, when faults have left draining ones only, these.
DESIGN CHOICE, log entry 92: unsafe. -/
def planesFor (s : State) : List Nat :=
  let ps := (upto 4).filter fun k =>
    bit (s.rd F.XBR_CTL_PLANEEN) k && s.xbr.up.getLsbD k && !s.xbr.drain.getLsbD k
  if ps.isEmpty then (upto 4).filter fun k => s.xbr.up.getLsbD k else ps

/-- The place of a triple's next sequence number. -/
def tripleKey (f : Flow) : Nat := (f.inp * 272 + f.out) * 16 + f.vc + (if f.mirror.isSome then 8 else 0)

/-- Sequence numbers and planes of an admitted packet's cells (R120). -/
def giveCells (f : Flow) (s : State) : State :=
  let ps := planesFor s
  let n0 := Tbl.get s.xbr.seqs (tripleKey f) 0
  let n := cellsOf f.total
  let cells := (upto n).map fun i =>
    let q := (n0 + i) % 1024
    { seq := q, plane := ps.getD (q % ps.length) 0, st := .waiting : CellRec }
  let s := { s with xbr := { s.xbr with seqs := Tbl.put s.xbr.seqs (tripleKey f) ((n0 + n) % 1024) 0 } }
  modFlow f.id (fun f => { f with cells := cells, admitted := true, held := false }) s

/-- Line rate of a port in units of 26.5625 Gb/s. -/
def portRate (s : State) (p : Nat) : Nat := 2 ^ (s.port p).rung * (s.port p).width

/-- Store-and-forward, decided at admission (R135). -/
def safFor (s : State) (f : Flow) : Bool :=
  f.mirror.isSome || 144 ≤ f.out || !bit (s.act F.OUB_CLS_CT f.out) f.cls ||
    (f.inp < 144 && (portRate s f.inp < portRate s f.out || (s.port f.inp).width < 4))

/-- OUB_QMAX follows the reserved cells (R151). -/
def noteQmax (p c : Nat) (s : State) : State :=
  let o := s.outp p
  let n := o.occ.getD c 0 + (if c = 3 then o.mirOcc else 0)
  if s.rd F.OUB_QMAX_CELLS (4 * p + c) < n then s.wr F.OUB_QMAX_CELLS n (4 * p + c) else s

/-- Discards mirror copies that have not started, newest first, until `need` cells are free. -/
def discardMirrors (o need : Nat) (s : State) : State :=
  let cs := (s.xbr.flows.filter fun f => f.out == o && f.mirror.isSome && f.admitted && !f.started).reverse
  cs.foldl (fun s f => if need + (s.outp o).reserved ≤ bufferCells s o then s else dropFlow f .mirror s) s

/-- Whether the oldest unanswered request of its triple is this one (R125); mirror copies are a triple of their own. -/
def isFirstRequest (s : State) (f : Flow) : Bool :=
  ((s.xbr.flows.find? fun g => !g.admitted && tripleKey g == tripleKey f).map (·.id)) == some f.id

/-- The held requests of an output that this slot has not decided yet, and all of them when the next slot begins. -/
def undecided (s : State) (out : Nat) : List Flow :=
  let held := s.xbr.flows.filter fun g => g.held && g.out == out && g.mirror.isNone
  let rest := held.filter fun g => !(s.outp out).round.contains g.id
  if rest.isEmpty then held else rest

/-- Held requests of a port output are decided in turn, every one of them in every slot: the class whose turn it is,
oldest first (R126). DESIGN CHOICE, log entry 92: unsafe. -/
def heldTurn (s : State) (f : Flow) : Bool :=
  let held := undecided s f.out
  let cls := ((upto 4).map fun i => ((s.outp f.out).lastCls + 1 + i) % 4).find? fun c => held.any fun g => g.cls == c
  match cls with
  | some c => ((held.find? fun g => g.cls == c).map (·.id)) == some f.id
  | none => true

/-- A held request is decided in this slot. -/
def tookTurn (f : Flow) (s : State) : State :=
  let fresh := ((s.xbr.flows.filter fun g => g.held && g.out == f.out && g.mirror.isNone).all fun g =>
    (s.outp f.out).round.contains g.id)
  s.modOutp f.out fun o => { o with lastCls := f.cls, round := (if fresh then [] else o.round) ++ [f.id] }

/-- ADMIT at a port output: space is reserved and the packet marked when its class average is high. -/
def admitPort (f : Flow) (s : State) : State :=
  let c := f.cls
  let n := cellsOf f.total
  let o := s.outp f.out
  let mark := 4 * s.act F.OUB_WREDP_MARK (profileOf s f.out c) * 256
  let s := noteQmax f.out c (s.setOutp f.out { o with occ := ListOps.modify o.occ c (· + n) })
  let cmk : BitVec 2 :=
    if mark ≤ o.avg.getD c 0 ∧ (f.hdr.cmk = 0 ∨ f.hdr.cmk = 3) then 1 else f.hdr.cmk
  let saf := safFor s f
  let f := { f with hdr := { f.hdr with cmk := cmk }, saf := saf }
  let s := modFlow f.id (fun g => { g with hdr := f.hdr, saf := saf }) s
  let s := makeMirrors f f.out 1 (giveCells f s)
  if saf ∧ f.chkBad then dropFlow { f with admitted := true } .safchk s else s

/-- The decision of R126 on a request to a port output. DESIGN CHOICE, log entry 104: unsafe. -/
def decidePort (f : Flow) (s : State) : State :=
  let c := f.cls
  let k := min f.hdr.col.toNat 2
  let n := profileOf s f.out c
  let held := bit (s.act F.OUB_WREDP_ACT n) k
  if !s.portUp f.out then dropFlow f .portdown s
  else if s.quarantined f.out ∧ c ≠ 3 then dropFlow f .quarantine s
  else
    let (drop, s) := if held then (false, s) else wredDrop f.out n k ((s.outp f.out).avg.getD c 0) s
    if drop then dropFlow f .wred s
    else
      let need := cellsOf f.total
      let qmax := min (4 * s.act F.OUB_WREDP_QMAX n) (bufferCells s f.out)
      let full := fun (s : State) =>
        bufferCells s f.out < (s.outp f.out).reserved + need || qmax < (s.outp f.out).occ.getD c 0 + need
      let s := if full s then discardMirrors f.out need s else s
      if full s then
        if held then modFlow f.id (fun f => { f with held := true }) s else dropFlow f .tail s
      else admitPort f s

/-- The decision on a mirror copy (R146). -/
def decideMirror (f : Flow) (n : Nat) (s : State) : State :=
  if f.bytes.length < f.total then s
  else
    let need := cellsOf f.total
    let o := s.outp f.out
    if s.xbr.up = 0 then dropFlow f .plane s
    else if s.portUp f.out ∧ o.mirOcc < 4 * s.rd F.OUB_MIRCTL_MIRMAX n ∧ o.reserved + need ≤ bufferCells s f.out then
      noteQmax f.out 3 (giveCells f (s.setOutp f.out { o with mirOcc := o.mirOcc + need }))
    else dropFlow f .mirror s

/-- An internal output answers ADMIT or HOLD (R128). DESIGN CHOICE, log entry 104: unsafe. -/
def decideInternal (f : Flow) (s : State) : State :=
  let n := cellsOf f.total
  let free := Tbl.get s.xbr.intFree f.out 1024
  if s.xbr.up = 0 ∨ free < n then modFlow f.id (fun f => { f with held := true }) s
  else
    let s := { s with xbr := { s.xbr with intFree := Tbl.put s.xbr.intFree f.out (free - n) 1024 } }
    giveCells { f with saf := true } (modFlow f.id (fun f => { f with saf := true }) s)

def admissionDecide (id : Nat) (s : State) : State :=
  match findFlow s id with
  | none => s
  | some f =>
    if f.admitted then s
    else if !isFirstRequest s f then s
    else match f.mirror with
      | some n => decideMirror f n s
      | none =>
        if 144 ≤ f.out then decideInternal f s
        else if s.xbr.up = 0 then dropFlow f .plane s
        else if !f.held then decidePort f s
        else if heldTurn s f then decidePort f (tookTurn f s)
        else s

def execAdmissionDecide (id : Nat) (s : State) : Out := onFabric (admissionDecide id) s

/-! ## Cell slots (R121 to R123, R130) -/

/-- The bytes of a cell have reached the input. -/
def cellReady (f : Flow) (i : Nat) : Bool := f.cutShort || min (256 * (i + 1)) f.total ≤ f.bytes.length

/-- Cells of a triple matched and not released, lost ones included (R133). -/
def inFlight (s : State) (f : Flow) : Nat :=
  (s.xbr.flows.filter fun g => tripleKey g == tripleKey f).foldl (fun n g =>
    n + (g.cells.filter fun c => c.st == .flying || c.st == .arrived || c.st == .lost).length) 0

/-- A triple from an input to an output has reached its limit: the input's counts for that output stop (R133), those
of originals by originals only (R146). -/
def countsStop (s : State) (inp out : Nat) (copies : Bool) : Bool :=
  s.xbr.flows.any fun g => (copies || g.mirror.isNone) && g.inp == inp && g.out == out && 64 ≤ inFlight s g

/-- The first cell of a packet that plane `k` may carry. DESIGN CHOICE, log entry 11: unsafe. -/
def nextCell (f : Flow) (k : Nat) : Option Nat :=
  (ListOps.findIdx (fun (x : Nat × CellRec) => x.2.plane == k && x.2.st == .waiting && cellReady f x.1)
    ((f.cells.zipIdx).map fun x => (x.2, x.1)) 0).map (·.1)

/-- Requests of a slot: packet, input and output of every packet with an eligible cell on plane `k`; of the originals, or
of the mirror copies. -/
def requests (s : State) (k : Nat) (copies : Bool) : List (Nat × Nat × Nat) :=
  s.xbr.flows.filterMap fun f =>
    if f.mirror.isSome == copies && f.admitted && (nextCell f k).isSome && !countsStop s f.inp f.out copies then
      some (f.id, f.inp, f.out) else none

/-- The first of a list of positions at or after a pointer, cyclically. -/
def cyclicFirst (ptr : Nat) (l : List Nat) : Option Nat :=
  let d := fun i => (i + 272 - ptr % 272) % 272
  l.foldl (fun best i => match best with
    | none => some i
    | some b => if d i < d b then some i else some b) none

/-- One round of request, grant and accept over the pairs not matched yet. DESIGN CHOICE, log entry 11: unsafe. -/
def matchRound (k : Nat) (first : Bool) (req : List (Nat × Nat)) (m : List (Nat × Nat)) (x : Xbr) :
    List (Nat × Nat) × Xbr :=
  let open' := req.filter fun r => !(m.any fun y => y.1 == r.1 || y.2 == r.2)
  let outs := (open'.map (·.2)).eraseDups
  let grants := outs.filterMap fun o =>
    (cyclicFirst (Tbl.get x.gptr (272 * k + o) 0) ((open'.filter fun r => r.2 == o).map (·.1))).map fun i => (i, o)
  let ins := (grants.map (·.1)).eraseDups
  let acc := ins.filterMap fun i =>
    (cyclicFirst (Tbl.get x.aptr (272 * k + i) 0) ((grants.filter fun g => g.1 == i).map (·.2))).map fun o => (i, o)
  let x := if first then
      acc.foldl (fun x y =>
        { x with gptr := Tbl.put x.gptr (272 * k + y.2) ((y.1 + 1) % 272) 0,
                 aptr := Tbl.put x.aptr (272 * k + y.1) ((y.2 + 1) % 272) 0 }) x
    else x
  (m ++ acc, x)

/-- The matched cell of a pair crosses: the oldest eligible one, which leaves its input's staging. -/
def sendCell (k : Nat) (req : List (Nat × Nat × Nat)) (s : State) (m : Nat × Nat) : State :=
  match req.find? fun r => r.2.1 == m.1 && r.2.2 == m.2 with
  | none => s
  | some (id, _, _) =>
    match findFlow s id with
    | none => s
    | some f =>
      match nextCell f k with
      | none => s
      | some i =>
        let s := unstage f (256 * i) (min (256 * (i + 1)) f.total) s
        modFlow id (fun f => { f with cells := ListOps.modify f.cells i fun c => { c with st := .flying } }) s

/-- The averages of an output move toward its reserved cells (R130). DESIGN CHOICE, log entry 104: unsafe. -/
def updateAvg (s : State) (p : Nat) (o : Outp) : Outp :=
  let avg := (upto 4).map fun c =>
    let e := s.act F.OUB_WREDP_WEXP (profileOf s p c)
    let a := o.avg.getD c 0
    let t := o.occ.getD c 0 * 256
    if a ≤ t then a + (t - a) / 2 ^ e else a - ceilDiv (a - t) (2 ^ e)
  { o with avg := avg }

/-- One slot of a plane: the originals are matched, then mirror copies over what they leave, so that none delays an
original (R146). DESIGN CHOICE, log entry 92: unsafe. -/
def cellSlot (k : Nat) (s : State) : State :=
  if !s.xbr.up.getLsbD k then s
  else
    let req := requests s k false
    let mir := requests s k true
    let pairs := fun (l : List (Nat × Nat × Nat)) => l.map fun r => (r.2.1, r.2.2)
    let rounds := max 1 (s.rd F.XBR_CTL_ROUNDS)
    let (m, x) := (upto rounds).foldl (fun a r => matchRound k (r == 0) (pairs req) a.1 a.2) ([], s.xbr)
    let (m, x) := (upto rounds).foldl (fun a _ => matchRound k false (pairs mir) a.1 a.2) (m, x)
    let s := m.foldl (sendCell k (req ++ mir)) { s with xbr := x }
    if (upto 4).find? (fun j => s.xbr.up.getLsbD j) = some k then
      { s with xbr := { s.xbr with outs := s.xbr.outs.map fun o => (o.1, updateAvg s o.1 o.2) } }
    else s

def execCellSlot (plane : Nat) (s : State) : Out := fabricUnit plane 4 (cellSlot plane) s

/-! ## Resequencing (R133, R134, R143) -/

/-- Releases the cells of a packet that are next in order; answers whether all of it is released. -/
def releaseFlow (f : Flow) (next : Nat) : Flow × Bool :=
  let go := f.cells.foldl (fun (a : List CellRec × Bool) c =>
    if a.2 then
      match c.st with
      | .released => (a.1 ++ [c], true)
      | .arrived => (a.1 ++ [{ c with st := .released }], true)
      | _ => (a.1 ++ [c], false)
    else (a.1 ++ [c], false)) ([], true)
  let had := f.cells.any fun c => c.st == .released
  ({ f with cells := go.1, rel := if !had && go.1.any (fun c => c.st == .released) then next else f.rel }, go.2)

/-- Releases a triple's cells in order (R133). -/
def releaseTriple (key : Nat) (s : State) : State :=
  let r := s.xbr.flows.foldl (fun (a : List Flow × Bool × Nat) f =>
    if f.admitted && tripleKey f == key && a.2.1 then
      let (g, whole) := releaseFlow f a.2.2
      (a.1 ++ [g], whole, a.2.2 + 1)
    else (a.1 ++ [f], a.2.1, a.2.2)) ([], true, s.xbr.nextRel)
  { s with xbr := { s.xbr with flows := r.1, nextRel := r.2.2 } }

def Flow.allReleased (f : Flow) : Bool := !f.cells.isEmpty && f.cells.all fun c => c.st == .released

/-- A packet for an internal output that has crossed whole reaches the network interface or the Retriever, when
its check has passed (R95). -/
def deliver (f : Flow) (s : State) : State :=
  if f.chkBad then dropFlow f .safchk s
  else if f.cutShort then removeFlow f s
  else
    let b := Packet.ofBytes f.bytes
    let pkt := { f.hdr with payload := b.payload, check := b.check }
    let s := removeFlow f s
    let s := match servedKennel s pkt.ktag with
      | some k => (s.count F.CTR_KNL_COUNT (16 * k + 4)).count F.CTR_KNL_COUNT (16 * k + 5) f.total
      | none => s
    { s with ni := { s.ni with inbox := s.ni.inbox ++ [⟨f.inp, pkt, f.at' / 9⟩] } }

/-- Delivers every whole packet of a triple that is bound for an internal output. -/
def deliverTriple (key : Nat) (s : State) : State :=
  (s.xbr.flows.filter fun f => tripleKey f == key && 144 ≤ f.out && f.allReleased).foldl (fun s f => deliver f s) s

def settleTriple (key : Nat) (s : State) : State := deliverTriple key (releaseTriple key s)

def cellArrival (id n : Nat) (s : State) : State :=
  match findFlow s id with
  | none => s
  | some f =>
    match f.cells[n]? with
    | some c =>
      if c.st = .flying then
        settleTriple (tripleKey f)
          (modFlow id (fun f => { f with cells := ListOps.modify f.cells n fun c => { c with st := .arrived } }) s)
      else s
    | none => s

def execCellArrival (id n : Nat) (s : State) : Out := onFabric (cellArrival id n) s

/-- A packet with a lost cell is discarded whole; one that has started sends the rest as zero bytes. -/
def gapTimeout (id : Nat) (s : State) : State :=
  match findFlow s id with
  | none => s
  | some f =>
    if f.cells.any fun c => c.st == .lost then
      let s :=
        if f.cutShort then s
        else if f.started then countFlow f .plane (cutFlow f s)
        else dropFlow f .plane s
      settleTriple (tripleKey f) s
    else s

def execResequenceGapTimeout (id : Nat) (s : State) : Out := onFabric (gapTimeout id) s

/-! ## Serving an output (R73 to R77, R134 to R139) -/

/-- Bytes of a packet as it leaves, from `lo` on. DESIGN CHOICE, log entry 104: unsafe. -/
def Flow.wire (f : Flow) (lo n : Nat) : List Byte :=
  let all := if f.mirror.isSome ∨ f.cutShort then f.bytes else f.hdr.header ++ f.bytes.drop 24
  (all.drop lo).take n

/-- Bytes of a packet that may be sent: those of its released cells. -/
def Flow.ready (f : Flow) : Nat :=
  if f.cutShort then f.total else min f.total (256 * (f.cells.takeWhile fun c => c.st == .released).length)

/-- A packet may start: cell 0 released for cut-through, all of it for store-and-forward (R136). -/
def Flow.startable (f : Flow) : Bool :=
  !f.started && (if f.saf then f.allReleased && !f.chkBad else 0 < f.ready)

/-- The packet a channel of an output would send next: the one in progress, or the startable one released first
that no earlier packet of its triple, on whatever egress channel, holds back (R134).  A mirror copy in progress keeps
VC 7 to itself (R73). DEDUCED, log entry 10: safe. -/
def nextFlow (s : State) (p v : Nat) : Option Flow :=
  match (s.outp p).cur.getD v none with
  | some id => (findFlow s id).filter fun f => f.mirror.isNone && f.sent < f.ready
  | none =>
    let cs := s.xbr.flows.filter fun f => f.out == p && f.admitted && f.mirror.isNone
    let firsts := cs.filter fun f =>
      f.evc == v && f.startable && (cs.find? fun g => tripleKey g == tripleKey f).map (·.id) == some f.id
    firsts.foldl (fun best f => match best with
      | none => some f
      | some b => if f.rel < b.rel then some f else some b) none

/-- DEDUCED, log entry 10: safe. -/
def nextMirror (s : State) (p : Nat) : Option Flow :=
  let on := s.xbr.flows.filter fun f => f.out == p && f.mirror.isSome && f.admitted
  match on.find? fun f => f.started with
  | some f => some f
  | none => on.find? fun f => f.startable

/-- What the replay buffer notes of a packet whose last byte a unit carries. -/
def Flow.lastByte (f : Flow) : Nat × Option Nat := (f.id, if f.cutShort then none else some f.inp)

/-- Takes up to `n` bytes of a packet; the packet leaves the module with its last byte. -/
def takeBytes (p v : Nat) (f : Flow) (n : Nat) (s : State) : List Byte × Bool × State :=
  let m := min n (f.ready - f.sent)
  let d := f.wire f.sent m
  let sent := f.sent + m
  let s := s.count F.OUB_TXBYTE_CNT_COUNT p m
  if sent = f.total then
    let s := freeCells f f.heldCells s
    let s := { s with xbr := { s.xbr with flows := s.xbr.flows.filter fun g => g.id != f.id } }
    let s := s.modOutp p fun o => { o with cur := ListOps.modify o.cur v fun _ => none }
    (d, true, s.count F.OUB_TXPKT_CNT_COUNT p)
  else
    let s := freeCells f (sent / 256 - f.sent / 256) s
    let s := modFlow f.id (fun g => { g with started := true, sent := sent }) s
    (d, false, s.modOutp p fun o => { o with cur := ListOps.modify o.cur v fun _ => some f.id })

/-- A TIME message of the module begins in the unit being formed, at an offset (R379). -/
def noteTime (p off : Nat) (f : Flow) (s : State) : State :=
  if f.sent = 0 ∧ 144 ≤ f.inp ∧ isFunction f.hdr timeAddr then
    s.modLink p fun l => { l with begun := l.begun ++ [(off, BitVec.ofNat 32 (field f.bytes 40 4))] }
  else s

/-- Fills a unit of channel `v` with up to 256 bytes of its packets. DEDUCED, log entry 10: safe. -/
def fillUnit (p v : Nat) : Nat → Nat → State → List Byte × List (Nat × Option Nat) × State
  | 0, _, s => ([], [], s)
  | k + 1, room, s =>
    if room = 0 then ([], [], s)
    else match nextFlow s p v with
      | none => ([], [], s)
      | some f =>
        let (d, ended, s) := takeBytes p v f room (noteTime p (256 - room) f s)
        let (d', e', s) := fillUnit p v k (room - d.length) s
        (d ++ d', (if ended then [f.lastByte] else []) ++ e', s)

/-- A channel has a unit to send and a credit for it. -/
def vcEligible (s : State) (p v : Nat) : Bool :=
  0 < (s.link p).credits.getD v 0 && (nextFlow s p v).isSome

/-- A class has a unit to send; a quarantined port sends MGMT only (R97). -/
def classEligible (s : State) (p c : Nat) : Bool :=
  (c == 3 || !s.quarantined p) && (vcEligible s p (2 * c + 1) || vcEligible s p (2 * c))

def quantum (s : State) (p c : Nat) : Nat :=
  1024 * max 1 (match c with
    | 0 => s.act F.OUB_WEIGHT_W0 p | 1 => s.act F.OUB_WEIGHT_W1 p
    | 2 => s.act F.OUB_WEIGHT_W2 p | _ => s.act F.OUB_WEIGHT_W3 p)

/-- The channel the round robin serves next, with its deficit charged (R138, R139): a class keeps what is left of its
deficit when its turn ends, and loses it when it is not eligible as its turn begins; `n` bounds the classes looked at.
DEDUCED, log entry 10: safe. -/
def pickClass (p : Nat) : Nat → State → Option Nat × State
  | 0, s => (none, s)
  | n + 1, s =>
    let o := s.outp p
    let c := o.cls
    let setD := fun (o : Outp) (d : Nat) => { o with deficit := ListOps.modify o.deficit c fun _ => d }
    if classEligible s p c then
      let d := o.deficit.getD c 0 + (if o.entered then 0 else quantum s p c)
      if 256 ≤ d then
        (some (if vcEligible s p (2 * c + 1) then 2 * c + 1 else 2 * c),
         s.setOutp p { setD o (d - 256) with entered := true })
      else pickClass p n (s.setOutp p { setD o d with entered := false, cls := (c + 1) % 4 })
    else pickClass p n (s.setOutp p { (if o.entered then o else setD o 0) with entered := false, cls := (c + 1) % 4 })

/-- Replay depth of a port (R77). -/
def replayDepth (s : State) (p : Nat) : Nat := if isHall (s.role p) then 1024 else 128

def nullSlot : Slot := { seq := 0, vc := 0, data := false, fill := 0, bytes := List.replicate 256 0 }

def slotOf (u : TxUnit) : Slot :=
  { seq := u.seq, vc := u.vc, data := true, fill := BitVec.ofNat 8 (u.bytes.length - 1),
    bytes := u.bytes ++ List.replicate (256 - u.bytes.length) 0 }

/-- A new unit goes into the replay buffer and the frame. -/
def newUnit (p v : Nat) (d : List Byte) (ends : List (Nat × Option Nat)) (s : State) : TxUnit × State :=
  let l := s.link p
  let u : TxUnit := { seq := l.txSeq, vc := BitVec.ofNat 3 v, bytes := d, ends := ends }
  let l := { l with txSeq := l.txSeq + 1, anySent := true, wrapped := l.wrapped || l.txSeq == 4095, replay := l.replay ++ [u],
                    credits := ListOps.modify l.credits v (· - 1) }
  (u, countTxUnit p (slotBytes (slotOf u)) (s.setLink p l))

/-- The next unit of a frame: one to be resent, one of the round robin, or one of the mirror queue. -/
def nextUnit (p : Nat) (s : State) : Option TxUnit × State :=
  let l := s.link p
  if 0 < l.resend then
    (l.replay[l.replay.length - l.resend]?, s.setLink p { l with resend := l.resend - 1 })
  else if replayDepth s p ≤ l.replay.length then (none, s)
  else
    match pickClass p 9 s with
    | (some v, s) =>
      let (d, e, s) := fillUnit p v 256 256 s
      let (u, s) := newUnit p v d e s
      (some u, s)
    | (none, s) =>
      match nextMirror s p with
      | some f =>
        if 0 < (s.link p).credits.getD 7 0 ∧ ((s.outp p).cur.getD 7 none).all (· == f.id) then
          let (d, ended, s) := takeBytes p 7 f 256 s
          let (u, s) := newUnit p 7 d (if ended then [f.lastByte] else []) s
          (some u, s)
        else (none, s)
      | none => (none, s)

/-- Some class has bytes queued and no queued channel holds a credit (R150). -/
def stalled (s : State) (p : Nat) : Bool :=
  let q := (upto 8).filter fun v => (nextFlow s p v).isSome
  !q.isEmpty && q.all fun v => (s.link p).credits.getD v 0 == 0

/-- The 1.6 GHz cycles from time `t` to now in which each output stalls are counted, while telemetry counts them
(R150, R515). -/
def countStalls (t : Nat) (s : State) : State :=
  let n := periods 1 5625 t s.clock
  if n = 0 ∨ !bit s.spg.active.flags 1 then s
  else (s.ports.map (·.1)).foldl (fun s p => if s.portUp p && stalled s p then s.count F.OUB_STALL_CNT_COUNT p n else s) s

/-- The TIME messages that begin in a frame's unit `i`, by the 32-byte data block with their first byte (R73, R379). -/
def beginsIn (i : Nat) (l : List (Nat × W32)) : List (Nat × W32) := l.map fun m => ((16 + 259 * i + 3 + m.1) / 32, m.2)

/-- One link frame (R71 to R74): acknowledgement, credit totals and up to four units. -/
def outputServe (p : Nat) (s : State) : State :=
  if !s.portUp p || (s.port p).paused then s
  else
    let (slots, marks, s) := (upto 4).foldl (fun (a : List Slot × List (Nat × W32) × State) i =>
      let (u, s) := nextUnit p a.2.2
      (a.1 ++ [u.elim nullSlot slotOf], a.2.1 ++ beginsIn i (s.link p).begun, s.modLink p fun l => { l with begun := [] }))
      ([], [], s)
    let l := s.link p
    let f : Frame := { ack := l.expE - 1, ackv := l.accepted, nak := l.nakOut, credit := l.outTot,
                       slots := slots, lcrc := 0 }
    let f := { f with lcrc := BitVec.ofNat 32 (crc32 (frameBody f)) }
    let s := s.setLink p { l with nakOut := false, needIdle := false, last := some f }
    let idle := if l.needIdle then [idleBlk] else []
    let bs := idle ++ dataBlks 33 (frameBytes f)
    sendBlks p bs (noteMarks p bs (marks.map fun m => (idle.length + m.1, m.2)) s)

def execOutputServe (p : Nat) (s : State) : Out := fabricUnit p 144 (outputServe p) s

/-! ## The per-hop limit (R168) -/

/-- The port that has sent a packet whole and holds its last unit unacknowledged, and the input to count it against. -/
def unackedAt (s : State) (id : Nat) : Option (Nat × Option Nat) :=
  (upto 144).findSome? fun p =>
    (s.link p).replay.findSome? fun u => (u.ends.find? fun e => e.1 == id).map fun e => (p, e.2)

/-- DESIGN CHOICE, log entry 8: safe. -/
def lifetimeExpiry (id : Nat) (s : State) : State :=
  match findFlow s id with
  | some f =>
    if 144 ≤ f.out then s
    else if f.started then
      if f.cutShort then s
      else countFlow f .lifetime (cutFlow f s)
    else
      let s := dropFlow f .lifetime s
      settleTriple (tripleKey f) s
  | none =>
    match unackedAt s id with
    | some (p, inp) =>
      let s := s.modLink p fun l =>
        { l with replay := l.replay.map fun u => { u with ends := u.ends.filter fun e => e.1 != id } }
      linkReset p (event F.LNK_EVT_RESET p (match inp with
        | some i => countCause i p .lifetime s
        | none => s))
    | none => s

def execLifetimeExpiry (id : Nat) (s : State) : Out := onFabric (lifetimeExpiry id) s

/-! ## Planes (R143, R144) -/

/-- Cells on a plane that has faulted: those in flight are lost, those still at their inputs move to the
remaining planes and keep their numbers. -/
def movePlane (k : Nat) (ps : List Nat) (c : CellRec) : CellRec :=
  if c.plane = k then
    match c.st with
    | .flying => { c with st := .lost }
    | .waiting => { c with plane := ps.getD (c.seq % ps.length) k }
    | _ => c
  else c

/-- With no plane in service every request to a port output is answered DROP at once (R144). -/
def dropRequests (s : State) : State :=
  (s.xbr.flows.filter fun f => !f.admitted && f.out < 144 && (f.mirror.isNone || f.total ≤ f.bytes.length)).foldl
    (fun s f => dropFlow f .plane s) s

def planeFault (k : Nat) (s : State) : State :=
  if !s.xbr.up.getLsbD k then s
  else
    let one : BitVec 4 := BitVec.ofNat 4 (2 ^ k)
    let s := { s with xbr := { s.xbr with up := s.xbr.up &&& ~~~one, drain := s.xbr.drain &&& ~~~one } }
    let s := s.wr F.XBR_STS_PLANEFLT (setBit (s.rd F.XBR_STS_PLANEFLT) k)
    let ps := planesFor s
    let s := { s with xbr := { s.xbr with
      flows := s.xbr.flows.map fun f => { f with cells := f.cells.map (movePlane k ps) } } }
    let s := raise (708 + k) s
    if s.xbr.up = 0 then raise 741 (dropRequests s) else s

def execPlaneFault (k : Nat) (s : State) : Out := fabricUnit k 4 (planeFault k) s

/-- No cell waits for plane `k` or crosses it. -/
def planeEmpty (s : State) (k : Nat) : Bool :=
  s.xbr.flows.all fun f => f.cells.all fun c => c.plane != k || !(c.st == .waiting || c.st == .flying)

/-- A drained plane leaves service; the last one in service stays. DESIGN CHOICE, log entry 92: unsafe. -/
def planeDrainEnd (k : Nat) (s : State) : State :=
  if s.xbr.drain.getLsbD k && planeEmpty s k && s.xbr.up != BitVec.ofNat 4 (2 ^ k) then
    let one : BitVec 4 := BitVec.ofNat 4 (2 ^ k)
    { s with xbr := { s.xbr with up := s.xbr.up &&& ~~~one, drain := s.xbr.drain &&& ~~~one } }
  else s

def execPlaneDrainEnd (k : Nat) (s : State) : Out := fabricUnit k 4 (planeDrainEnd k) s

/-- A write of PLANEEN: ignored with no plane enabled, with none both enabled and in service, and once no plane is in
service, which only a module reset ends (R144). -/
def planeEnable (m : BitVec 4) (s : State) : State :=
  let flt := BitVec.ofNat 4 (s.rd F.XBR_STS_PLANEFLT)
  if s.xbr.up = 0 ∨ m = 0 ∨ m &&& ~~~flt = 0 then s
  else
    let s := s.wr F.XBR_CTL_PLANEEN m.toNat
    { s with xbr := { s.xbr with up := s.xbr.up ||| (m &&& ~~~flt), drain := s.xbr.up &&& ~~~m } }

def execPlaneen (mask : BitVec 4) (s : State) : Out := onFabric (planeEnable mask) s

def execRounds (v : BitVec 2) (s : State) : Out := onFabric (fun s => s.wr F.XBR_CTL_ROUNDS v.toNat) s

end Sys2Proof.Machine
end

