-- ==== Sys2Proof/Machine/TrayOps.lean ====
section
/-! DEFINITION. The Tray Control Link and who holds the tray (R448 to R454, R497 to R502, R529). -/

namespace Sys2Proof.Machine

/-! ## Positions and claims (R448, R529) -/

/-- Acts as strapped A. DESIGN CHOICE, log entry 54: unsafe. -/
def actsA (s : State) : Bool := s.tray.actA.getD s.tray.strapA

/-- Serial comparison of claim numbers. -/
def above (k j : W16) : Bool := let d := (k - j).toNat; 1 ≤ d && d ≤ 32767

/-- A claim number seen in a frame of the tray-mate or in a REJECT. DESIGN CHOICE, log entry 53: unsafe. -/
def noteClaim (v : W16) (s : State) : State :=
  match s.tray.highC with
  | some h => if above v h then { s with tray := { s.tray with highC := some v } } else s
  | none => { s with tray := { s.tray with highC := some v } }

/-- The claim number of a new tenure: 2c + A, c one more than the highest seen.
DESIGN CHOICE, log entry 53: unsafe. -/
def newClaim (s : State) : W16 :=
  let c := (s.tray.highC.getD 0).toNat / 2 + 1
  BitVec.ofNat 16 (2 * c + b2n (actsA s))

/-- Two modules strapped alike: the one with the lower UID acts as A until module reset.  Before the tray-mate's UID is
known, which of them that is stays open. DESIGN CHOICE, log entry 54: unsafe. -/
def strapClash (s : State) : State :=
  let s := raise 726 (s.wr F.TWN_LSTS_MODEMIS 1)
  if s.tray.actA.isSome then s
  else match (trayPort s).bind fun p => (s.port p).ident with
    | some i => { s with tray := { s.tray with actA := some (decide (Config.uid.toNat < i.uid.toNat)) } }
    | none =>
      let (b, s) := s.freeB
      { s with tray := { s.tray with actA := some b } }

/-! ## Holding (R449, R450, R453, R501) -/

def claimMode (s : State) : Bool := s.rdB F.TWN_LCTL_MODE

/-- A module that does not hold keeps the tray outputs of its tray-mate's last MATE message. -/
def takeShadow (s : State) : State :=
  match s.tray.mate with
  | some m => if s.tray.holder then s
    else (s.wr F.PWR_GPIO_VAL m.gpio.toNat).wr F.PWR_TRAYRAIL_EN m.rails.toNat
  | none => s

/-- HOLD_N is asserted while the module holds (R502, R526). -/
def holdN (s : State) : Bool := s.tray.holder

/-- The module becomes holder with a claim number. -/
def hold (claim : W16) (s : State) : State :=
  { s with tray := { s.tray with holder := true, claiming := false, claim := claim } }

/-- It becomes holder by claim. DEDUCED, log entry 55: unsafe. -/
def takeOver (claim : W16) (s : State) : State :=
  ((hold claim s).wr F.TWN_LSTS_TOOK 1).count F.TWN_TAKE_CNT_COUNT

/-- The module stops driving the tray. -/
def release (s : State) : State :=
  takeShadow { s with tray := { s.tray with holder := false }, tcl := { s.tcl with queue := [] } }

/-- Holding ends by a REJECT or a higher claim. DESIGN CHOICE, log entry 53: unsafe. -/
def loseHold (s : State) : State := if s.tray.holder then (release s).wr F.TWN_LSTS_LOST 1 else s

/-- A frame in which the tray-mate drives with a claim number. -/
def mateDrives (claim : W16) (s : State) : State :=
  let s := noteClaim claim s
  if s.tray.holder && above claim s.tray.claim then loseHold s else s

/-! ## LEASH frames (R452) -/

def leashBody (f : LeashFrame) : List Byte :=
  leBytes 1 (f.typ.toNat + 16 * b2n f.mode + 32 * b2n f.posa + 64 * f.rsv.toNat) ++ leBytes 2 f.lser.toNat ++
  leBytes 2 f.claim.toNat ++ leBytes 2 f.spare.toNat

def leashGood (f : LeashFrame) : Bool := crcMsb 8 0x07 0 (leashBody f) == f.crc.toNat

/-- A frame that this module sends. -/
def leashFrame (s : State) (typ : BitVec 4) : LeashFrame :=
  let f : LeashFrame := { typ := typ, mode := claimMode s, posa := s.tray.strapA, rsv := 0, lser := s.tray.lser,
                          claim := s.tray.claim, crc := 0 }
  { f with crc := BitVec.ofNat 8 (crcMsb 8 0x07 0 (leashBody f)) }

def sendLeash (typ : BitVec 4) (s : State) : State :=
  { s with tray := { s.tray with leashOut := some (leashFrame s typ) } }

/-- What every good LEASH frame shows. -/
def leashSeen (f : LeashFrame) (s : State) : State :=
  let s := if f.mode != claimMode s then raise 726 (s.wr F.TWN_LSTS_MODEMIS 1) else s
  let s := if f.posa == s.tray.strapA then strapClash s else s
  noteClaim f.claim s

/-! ## TCL frames (R497) -/

def tclBody (f : TclFrame) : List Byte :=
  [f.addr, f.typ, f.src] ++ leBytes 2 f.claim.toNat ++ [f.tseq, BitVec.ofNat 8 f.data.length] ++ leBytes 2 f.reg.toNat ++
  f.data

def tclCrc (b : List Byte) : Nat := crcMsb 16 0x1021 0xFFFF b

def tclGood (f : TclFrame) : Bool := f.data.length ≤ 64 && tclCrc (tclBody f) == f.crc.toNat

/-- The frame under way is a command frame (R498). -/
def isCommandFrame (b : List Byte) : Bool := field b 1 1 == 0x01 || field b 1 1 == 0x03

/-- Bytes 1 to 9 + LEN of a frame of this module's own. -/
def ownFrame (s : State) (addr typ reg : Nat) (data : List Byte) : List Byte :=
  leBytes 1 addr ++ leBytes 1 typ ++ leBytes 1 (b2n s.tray.strapA) ++ leBytes 2 0 ++ [s.tcl.tseq] ++
  leBytes 1 data.length ++ leBytes 2 reg ++ data

/-- The frame with the module's claim number in it. -/
def withClaim (s : State) (b : List Byte) : List Byte := b.take 3 ++ leBytes 2 s.tray.claim.toNat ++ b.drop 5

/-- Starts the next frame that waits, when no transaction is in progress. DESIGN CHOICE, log entry 56: unsafe. -/
def tclNext (s : State) : State :=
  if s.tcl.phase ≠ .idle then s
  else match s.tcl.queue with
    | [] => s
    | b :: rest => { s with tcl := { s.tcl with phase := .start, bytes := b, sends := 0, auto := true, queue := rest } }

/-- Queues a frame of the module's own. -/
def tclQueue (addr typ reg : Nat) (data : List Byte) (s : State) : State :=
  let b := ownFrame s addr typ reg data
  tclNext { s with tcl := { s.tcl with queue := s.tcl.queue ++ [b], tseq := s.tcl.tseq + 1 } }

/-- A transaction ends. -/
def tclEnd (s : State) : State := tclNext { s with tcl := { s.tcl with phase := .idle, bytes := [], auto := false } }

/-- An answer goes into TCL_RXBUF. DESIGN CHOICE, log entry 56: unsafe. -/
def tclReceive (f : TclFrame) (s : State) : State :=
  let b := tclBody f
  ((upto 19).foldl (fun s w => s.wr F.TCL_RXBUF_WORD (field b (4 * w) 4) w) s).wr F.TCL_STS_DONE 1

/-- An answer of type `typ` to the frame under way; one that fails its CRC is counted and discarded. -/
def tclAnswer (typ : Nat) (f : TclFrame) (act : State → State) (s : State) : State :=
  if s.tcl.phase ≠ .answer then s
  else if !tclGood f then s.count F.TCL_ERR_CNT_COUNT
  else if f.typ.toNat = typ ∧ f.addr.toNat = 128 + field s.tcl.bytes 0 1 % 128 ∧ f.tseq.toNat = field s.tcl.bytes 5 1 then
    tclEnd (act (tclReceive f s))
  else s

/-! ## MATE messages (R453) -/

def mateAddr : Nat := 0xFFFFFFFFFB00

/-- The payload of a MATE message. -/
def mateBytes (s : State) (yield : Bool) : List Byte :=
  let t := s.tray
  let claim := if t.holder then t.claim else t.highC.getD 0
  leBytes 2 (b2n t.holder + 2 * b2n yield + 4 * b2n t.resync.isSome + 8 * b2n (claimMode s)) ++ leBytes 2 claim.toNat ++
  leBytes 4 s.spg.active.version ++ leBytes 4 (s.rd F.PWR_GPIO_VAL) ++ leBytes 4 (s.rd F.PWR_TRAYRAIL_EN) ++
  leBytes 8 t.mseq.toNat ++ leBytes 8 s.nowNs ++ leBytes 32 0

def sendMate (yield : Bool) (s : State) : State :=
  match trayPort s, s.self == 0xFFFF with
  | some p, false =>
    let b := mateBytes s yield
    enqueue (moduleMsg s (mateEid s) mateAddr b) .module (some p)
      { s with tray := { s.tray with mseq := s.tray.mseq + 1 } }
  | _, _ => s

/-- A function message of the tray-mate on a tray-mate port (R520). -/
def fromTrayMate (s : State) (a : Arrival) : Bool :=
  a.port < 144 && s.role a.port == 5 && a.pkt.src.toNat == mateEid s && s.self != 0xFFFF

end Sys2Proof.Machine
end

