-- ==== Sys2Proof/Machine/Tray.lean ====
section
/-! DEFINITION. Twin entries, tray control, resynchronisation, the Tray Control Link and the tray outputs (R447 to R459,
R497 to R502). -/

namespace Sys2Proof.Machine

/-- 200 µs without a twin-marked packet of its source and window (R447). -/
def twinEntryExpiry (src win : W16) (s : State) : State :=
  { s with ni := { s.ni with twins := s.ni.twins.filter fun e => !(e.src == src && e.win == win) } }

def execTwinEntryExpiry (src win : W16) (s : State) : Out := live (twinEntryExpiry src win) s

/-! ## LEASH (R450 to R452) -/

/-- A received RENEW withdraws a claim of Leash mode. -/
def renew (f : LeashFrame) (s : State) : State :=
  if !leashGood f || f.typ != 1 then s
  else
    let s := leashSeen f s
    if claimMode s then s
    else mateDrives f.claim { s with tray := { s.tray with claiming := false } }

def execRenew (f : LeashFrame) (s : State) : Out := live (renew f) s

/-- A received CLAIM: the module that acts as B withdraws its own. -/
def claimFrame (f : LeashFrame) (s : State) : State :=
  if !leashGood f || f.typ != 2 then s
  else
    let s := leashSeen f s
    if !claimMode s && s.tray.claiming && !actsA s then { s with tray := { s.tray with claiming := false } } else s

def execClaim (f : LeashFrame) (s : State) : Out := live (claimFrame f) s

/-- The heartbeat of the holder, or a claimant's CLAIM. -/
def heartbeatSend (s : State) : State :=
  if claimMode s then
    if s.tray.holder && s.tcl.phase == .idle then tclQueue 127 0x03 0 [] s else s
  else if s.tray.holder then sendLeash 1 { s with tray := { s.tray with lser := s.tray.lser + 1 } }
  else if s.tray.claiming then sendLeash 2 s
  else s

def execHeartbeatSend (s : State) : Out := live heartbeatSend s

/-- 50 ms without a heartbeat. -/
def heartbeatTimeout (s : State) : State :=
  if s.tray.holder || s.tray.claiming || !s.rdB F.TWN_LCTL_ENABLE then s
  else if claimMode s then takeOver (newClaim s) s
  else sendLeash 2 { s with tray := { s.tray with claiming := true, claim := newClaim s } }

def execHeartbeatTimeout (s : State) : Out := live heartbeatTimeout s

/-- 20 ms of claiming. -/
def claimComplete (s : State) : State := if s.tray.claiming then takeOver s.tray.claim s else s

def execClaimComplete (s : State) : Out := live claimComplete s

/-! ## MATE and the hand-over (R453, R454, R456) -/

/-- What a MATE payload says. -/
def mateOf (b : List Byte) : Mate :=
  { flags := field b 0 2, claim := BitVec.ofNat 16 (field b 2 2), spgver := field b 4 4,
    gpio := BitVec.ofNat 32 (field b 8 4), rails := BitVec.ofNat 32 (field b 12 4),
    mseq := BitVec.ofNat 64 (field b 16 8) }

/-- The tray-mate's message is the shadow; with YIELD, this module becomes holder. -/
def mateTaken (m : Mate) (s : State) : State :=
  let s := { s with tray := { s.tray with mate := some m } }.wr F.TWN_LSTS_MATESEEN 1
  let s := takeShadow (spgCompare s)
  if bit m.flags 1 && !s.tray.holder then hold (newClaim s) s else s

def mateMsg (a : Arrival) (s : State) : State :=
  let ok := fromTrayMate s a
  let s := takeArrival a s
  if !ok then sendErr a.pkt Code.protection s
  else if a.pkt.len ≠ 4 then sendErr a.pkt Code.badDescriptor s
  else sendAck a.pkt (mateTaken (mateOf a.pkt.payload) s)

def execMate (a : Arrival) (s : State) : Out := live (cond' (isFunction a.pkt mateAddr) (mateMsg a)) s

def execMateSend (s : State) : Out := live (sendMate false) s

def execMateseenExpiry (s : State) : Out := live (fun s => s.wr F.TWN_LSTS_MATESEEN 0) s

/-- TWN_LCTL.YIELD. DEDUCED, log entry 55: unsafe. -/
def yield (s : State) : State :=
  if (trayPort s).isNone || !s.rdB F.TWN_LSTS_MATESEEN || !s.tray.holder then s.wr F.TWN_LSTS_YIELDFAIL 1
  else release (sendMate true s)

def execYield (s : State) : Out := live yield s

def claimEnable (v : Bool) (s : State) : State :=
  let s := s.wr F.TWN_LCTL_ENABLE (b2n v)
  if v then s else { s with tray := { s.tray with claiming := false } }

def execClaimEnable (v : Bool) (s : State) : Out := live (claimEnable v) s

/-- TWN_LCTL.MODE, which locks at the first epoch flip; LEASH_TX idles in claim mode. -/
def leashMode (v : Bool) (s : State) : State :=
  if s.spg.plan then s
  else
    let s := s.wr F.TWN_LCTL_MODE (b2n v)
    if v then { s with tray := { s.tray with leashOut := none, claiming := false } } else s

def execLeashMode (v : Bool) (s : State) : Out := live (leashMode v) s

/-! ## Resynchronisation (R457) -/

/-- TWN_RSYNC.GO: a page that is not mirrored, or is stale, fails at once. -/
def resyncGo (s : State) : State :=
  if s.tray.resync.isSome then s
  else
    let k := s.rd F.TWN_RSYNC_KENNEL
    let page := s.rd F.TWN_RSYNC_VA_PAGE
    let e := (pageEntry s k page).getD 0
    if (s.kennel k).live && Pte.v e && Pte.m e && !Pte.stale e then
      resyncNext { s with tray := { s.tray with
        resync := some { id := s.tray.resyncs, k := k, page := page }, resyncs := s.tray.resyncs + 1 } }
    else s.wr F.TWN_RSYNC_FAIL 1

def execResyncGo (s : State) : Out := live resyncGo s

/-- The page a resync complete names: its kennel, its number and its entry. DESIGN CHOICE, log entry 52: unsafe. -/
def resyncPage (s : State) (b : List Byte) : Option (Nat × Nat × Nat) :=
  let va := field b 8 8
  match liveKennel s (BitVec.ofNat 16 (field b 0 2)) with
  | none => none
  | some k =>
    let page := va / 2 ^ 21
    match pageEntry s k page with
    | some e => if va % 2 ^ 21 = 0 ∧ va < 2 ^ 46 ∧ Pte.v e ∧ Pte.mt e then some (k, page, e) else none
    | none => none

def resyncComplete (a : Arrival) (s : State) : State :=
  let ok := fromTrayMate s a
  let s := takeArrival a s
  if !ok then sendErr a.pkt Code.protection s
  else if a.pkt.len ≠ 2 then sendErr a.pkt Code.badDescriptor s
  else match resyncPage s a.pkt.payload with
    | none => sendErr a.pkt Code.protection s
    | some (k, page, e) => sendAck a.pkt (setEntry k page (e % 2 ^ 32 + field a.pkt.payload 16 4 * 2 ^ 32) s)

def execResyncComplete (a : Arrival) (s : State) : Out := live (cond' (isFunction a.pkt resyncAddr) (resyncComplete a)) s

/-! ## The Tray Control Link (R497 to R499) -/

/-- TCL_CMD.GO: the frame of TCL_TXBUF; a command frame leaves only from the holder. DEDUCED, log entry 57: unsafe. -/
def tclGo (s : State) : State :=
  let n := s.rd F.TCL_CMD_BYTES
  let b := ((upto 19).flatMap fun w => leBytes 4 (s.rd F.TCL_TXBUF_WORD w)).take n
  if s.tcl.phase ≠ .idle ∨ n < 9 ∨ 73 < n ∨ (isCommandFrame b ∧ !s.tray.holder) then s
  else { s with tcl := { s.tcl with phase := .start, bytes := b, sends := 0, auto := false } }

def execTclGo (s : State) : Out := live tclGo s

def execTclBytes (n : BitVec 7) (s : State) : Out := live (fun s => s.wr F.TCL_CMD_BYTES n.toNat) s

/-- The bus has been idle long enough: the frame leaves, or collides. DEDUCED, log entry 57: unsafe. -/
def tclFrameStart (collision : Bool) (s : State) : State :=
  if s.tcl.phase ≠ .start then s
  else if isCommandFrame s.tcl.bytes && !s.tray.holder then tclEnd s
  else
    let b := withClaim s s.tcl.bytes
    let s := { s with tcl := { s.tcl with bytes := b, out := 0xA5 :: b ++ leBytes 2 (tclCrc b) } }
    if collision then
      ({ s with tcl := { s.tcl with phase := .backoff } }.wr F.TCL_STS_COLL 1).count F.TCL_ERR_CNT_COUNT
    else if field b 0 1 % 128 = 127 then tclEnd s
    else { s with tcl := { s.tcl with phase := .answer, sends := s.tcl.sends + 1 } }

def execTclFrameStart (collision : Bool) (s : State) : Out := live (tclFrameStart collision) s

def tclBackoffEnd (s : State) : State :=
  if s.tcl.phase = .backoff then { s with tcl := { s.tcl with phase := .start } } else s

def execTclBackoffEnd (s : State) : Out := live tclBackoffEnd s

/-- 20 µs without an answer: the frame is sent at most three times. DEDUCED, log entry 57: unsafe. -/
def tclAnswerTimeout (s : State) : State :=
  if s.tcl.phase ≠ .answer then s
  else if s.tcl.sends < 3 then { s with tcl := { s.tcl with phase := .start } }
  else tclEnd ((s.wr F.TCL_STS_TMO 1).count F.TCL_ERR_CNT_COUNT)

def execTclAnswerTimeout (s : State) : Out := live tclAnswerTimeout s

def execTclAck (f : TclFrame) (s : State) : Out := live (tclAnswer 0x11 f id) s

def execTclData (f : TclFrame) (s : State) : Out := live (tclAnswer 0x12 f id) s

/-- A REJECT makes the holder stop driving (R449). -/
def tclRejected (f : TclFrame) (s : State) : State :=
  loseHold (noteClaim f.claim ((s.wr F.TCL_STS_REJ 1).count F.TCL_REJ_CNT_COUNT))

def execTclReject (f : TclFrame) (s : State) : Out := live (tclAnswer 0x13 f (tclRejected f)) s

def execTclError (f : TclFrame) (s : State) : Out := live (tclAnswer 0x14 f id) s

/-- A command frame of the tray-mate seen on the bus. -/
def traymateTclFrame (f : TclFrame) (s : State) : State :=
  if !tclGood f then s.count F.TCL_ERR_CNT_COUNT
  else if 128 ≤ f.addr.toNat || !(f.typ == 0x01 || f.typ == 0x03) then s
  else
    let s := if f.src.getLsbD 0 == s.tray.strapA then strapClash s else s
    mateDrives f.claim s

def execTraymateTclFrame (f : TclFrame) (s : State) : Out := live (traymateTclFrame f) s

/-! ## Tray outputs (R501) -/

/-- The holder that has changed a tray output sends a MATE message (R453). -/
def outputsChanged (changed : Bool) (s : State) : State := cond' (changed && s.tray.holder) (sendMate false) s

/-- PWR_GPIO, or PWR_GPIOOE. -/
def pwrGpioWrite (oe : Bool) (v : W32) (s : State) : State :=
  if oe then outputsChanged (s.rd F.PWR_GPIOOE_OE != v.toNat) (s.wr F.PWR_GPIOOE_OE v.toNat)
  else if s.tray.holder then outputsChanged (s.rd F.PWR_GPIO_VAL != v.toNat) (s.wr F.PWR_GPIO_VAL v.toNat)
  else s

def execPwrGpioWrite (oe : Bool) (v : W32) (s : State) : Out := live (pwrGpioWrite oe v) s

/-- Entry `k` of the power map: switch and output. DESIGN CHOICE, log entry 56: unsafe. -/
def powerMap (s : State) (k : Nat) : Nat × Nat :=
  (field s.spg.active.power (16 + 2 * k) 1, field s.spg.active.power (17 + 2 * k) 1)

/-- The output word of a power switch, as PWR_TRAYRAIL and the map give it. DESIGN CHOICE, log entry 56: unsafe. -/
def switchWord (s : State) (a : Nat) : Nat :=
  (upto 16).foldl (fun w k =>
    if (powerMap s k).1 = a ∧ bit (s.rd F.PWR_TRAYRAIL_EN) k then setBit w (powerMap s k).2 else w) 0

/-- PWR_TRAYRAIL: the holder sends a WRITE to each power switch that a changed bit maps to. -/
def trayrailWrite (v : W16) (s : State) : State :=
  if !s.tray.holder then s
  else
    let old := s.rd F.PWR_TRAYRAIL_EN
    let s := outputsChanged (old != v.toNat) (s.wr F.PWR_TRAYRAIL_EN v.toNat)
    let hit := fun a => (upto 16).any fun k => bit old k != bit v.toNat k && (powerMap s k).1 == a
    (((upto 8).map (· + 1)).filter hit).foldl (fun s a => tclQueue a 0x01 0x0100 (leBytes 2 (switchWord s a)) s) s

def execTrayrailWrite (v : W16) (s : State) : Out := live (trayrailWrite v) s

end Sys2Proof.Machine
end

