-- ==== Sys2Proof/Machine/Faults.lean ====
section
/-! DEFINITION. Hound's sources and the clearing of its sticky bits (R461 to R475). -/

namespace Sys2Proof.Machine

/-- A source asserts.  A pair that reads equal for three samples also sets the path bit and raises the path-fault
summary (R462); the crypto self-test's own source comes with the crypto island's error state (R429).
DESIGN CHOICE, log entry 58: safe. DEDUCED, log entry 88: unsafe. -/
def sourceAssert (i : Nat) (path : Bool) (s : State) : State :=
  if quietSource s i then s
  else
    let s := if path then
        raise 731 (s.wr F.HND_PATH_PATH (setBit (s.rd F.HND_PATH_PATH (i / 32)) (i % 32)) (i / 32))
      else s
    raise i (if i = 733 then cryptoFails s else unitAgain i s)

def execHoundSourceAssert (i : Nat) (path : Bool) (s : State) : Out := finUnit i 1024 (sourceAssert i path) s

/-- A parity error takes the safe state without reading HND_SEV (R475); the floor of source 739 makes it count at 6.
DESIGN CHOICE, log entry 60: unsafe. -/
def houndParity (s : State) : State :=
  let s := if stickyBit s 739 then s
    else (s.wr F.HND_STICKY_STICKY (setBit (s.rd F.HND_STICKY_STICKY 23) 3) 23).count F.HND_EVT_CNT_COUNT 6
  enterSafe 739 (s.wr F.HND_STS_PARITY 1)

def execHoundParityError (s : State) : Out := fin (houndParity s)

/-- A forced source asserts again (R463). DESIGN CHOICE, log entry 58: safe. -/
def reassert (w : Nat) (s : State) : State :=
  (upto 32).foldl (fun s b => if bit (s.rd F.HND_FORCE_FORCE w) b then raise (32 * w + b) s else s) s

/-- DESIGN CHOICE, log entry 58: safe. -/
def stickyClear (w m : Nat) (s : State) : State :=
  let s := { s with hnd := { s.hnd with portFatal := s.hnd.portFatal.filter fun i => !(i / 32 == w && bit m (i % 32)) } }
  reassert w (s.wr F.HND_STICKY_STICKY (clearBits (s.rd F.HND_STICKY_STICKY w) m) w)

def execStickyClear (w : Nat) (mask : W32) (s : State) : Out := liveUnit w 32 (stickyClear w mask.toNat) s

end Sys2Proof.Machine
end

