-- ==== Sys2Proof/Machine/Power.lean ====
section
/-! DEFINITION. The rails and their sequences, emergency off, the ramp governor, the estimator and the thermal limits
(R479 to R496). -/

namespace Sys2Proof.Machine

/-! ## Rails (R479, R480) -/

/-- Rails 7 to 12 are absent on the LT9600-S. -/
def lastRail (s : State) : Nat := if s.part = .s then 6 else 12

/-- The highest enabled rail. -/
def topRail (s : State) : Nat := ((upto 13).filter (bit s.pwr.enabled)).foldl max 0

def enableRail (r : Nat) (s : State) : State :=
  { s with pwr := { s.pwr with enabled := setBit s.pwr.enabled r, wasGood := clearBits s.pwr.wasGood (2 ^ r) } }

/-- A rail that is off, or no longer within its window. -/
def notGood (r : Nat) (s : State) : State :=
  s.wr F.PWR_RAILSTS_GOOD (clearBits (s.rd F.PWR_RAILSTS_GOOD) (2 ^ r))

/-- The rail fault source, and the rail that raised it. -/
def railFault (r : Nat) (s : State) : State :=
  raise 737 (s.wr F.PWR_RAILSTS_FAULT (setBit (s.rd F.PWR_RAILSTS_FAULT) r))

/-- A rail that a power-down is turning off is not watched. -/
def watched (s : State) (r : Nat) : Bool := bit s.pwr.enabled r && !(s.pwr.seq == .down && topRail s == r)

/-! ## Resets -/

/-- The blocks of the fabric and compute dies: CSR addresses of LNE to DET (R524).
DESIGN CHOICE, log entry 62: unsafe. -/
def onDies (key : Nat) : Bool := key / 64 < 0x12C00000

/-- The blocks of the compute die among them: POL and CMP. -/
def onComputeDie (key : Nat) : Bool :=
  let a := key / 64
  (0x11C00000 ≤ a && a < 0x12000000) || (0x12400000 ≤ a && a < 0x12800000)

/-- The compute die's reset is asserted: its registers and units are as the reset leaves them, and the HBM, which loses
its rails next, holds nothing (R483). DESIGN CHOICE, log entry 62: unsafe. -/
def holdCompute (s : State) : State :=
  if s.pwr.cmpReset then s
  else { s with csr := s.csr.filter (fun e => !onComputeDie e.1), pool := {}, isl := {},
                pwr := { s.pwr with cmpReset := true } }

/-- The fabric die's reset is asserted (R483). DESIGN CHOICE, log entry 62: unsafe. -/
def holdFabric (s : State) : State :=
  if s.pwr.fabReset then s
  else { s with csr := s.csr.filter (fun e => !onDies e.1 || onComputeDie e.1), ports := [], lanes := [], phy := [],
                links := [], sweep := {}, activeCount := 0, xbr := { resets := s.xbr.resets + 1 }, ni := {}, knl := [],
                binds := [], quarTags := [], lastGen := [], cmds := [], rtv := {}, det := {}, scents := [],
                pwr := { s.pwr with fabReset := true } }

/-- A register of a die whose reset is held, or which a power-down has stopped. -/
def dieHeld (s : State) (r : Reg) : Bool :=
  let k := 64 * r.base
  onDies k && !(if onComputeDie k then s.cmpRuns else s.fabRuns)

/-- The registers that a module reset keeps (R461, R486, R501, R504), by field.
DESIGN CHOICE, log entry 63: unsafe. -/
def keptFields : List (Fld × Nat) :=
  ((upto 32).map fun w => (F.HND_STICKY_STICKY, w)) ++ ((upto 32).map fun w => (F.HND_PATH_PATH, w)) ++
  [(F.HND_STS_SEALED, 0), (F.HND_STS_PARITY, 0), (F.PWR_STS_EPO, 0), (F.PWR_RAILSTS_FAULT, 0), (F.PWR_GPIO_VAL, 0),
   (F.PWR_GPIOOE_OE, 0), (F.PWR_TRAYRAIL_EN, 0)]

/-- Module reset: all but the always-on island's kept state and the fuses is as State.reset has it; a lifecycle
transition takes effect (R412), and a sealed module runs the reporter only (R474).
DESIGN CHOICE, log entry 63: unsafe. -/
def moduleReset (s : State) : State :=
  let kept := keptFields.map fun f => fkey f.1 f.2
  let lcs := s.klp.lcsNext.getD s.klp.lcs
  let klp : Kelpie := { mode := if s.sealed' then .reporter else .rom, lcs := lcs, svnBoot := s.klp.svnBoot,
                        svnFw := s.klp.svnFw }
  let s' : State := { State.reset with
    xbr := { resets := s.xbr.resets + 1 }, hnd := { portFatal := s.hnd.portFatal },
    pending := s.pending, part := s.part, freeIdx := s.freeIdx, host := s.host,
    csr := s.csr.filter (fun e => kept.contains e.1),
    tray := { strapA := s.tray.strapA, strapTest := s.tray.strapTest }, klp := klp, pwr := s.pwr }
  s'.wr F.KLP_DBGSTS_UNLOCKED (b2n (lcs != 2 && lcs != 4))

/-! ## Power-up (R481, R482, R485) -/

/-- The early sequence: the straps are sampled (STRAP_TEST only in RAW and MANUF, R529) and IO is enabled.
DESIGN CHOICE, log entry 75: unsafe. -/
def startEarly (s : State) : State :=
  let t := s.pwr.testPin && s.klp.lcs ≤ 1
  enableRail 2 { s with tray := { s.tray with strapA := s.pwr.posaPin, strapTest := t },
                        pwr := { s.pwr with seq := .early } }

/-- The last step of the early sequence. -/
def releaseReset (s : State) : State :=
  let s := moduleReset s
  { s with pwr := { s.pwr with seq := .run } }.wr F.PWR_STS_STATE 0

/-- DESIGN CHOICE, log entry 64: unsafe. -/
def startLate (s : State) : State :=
  (enableRail 4 { s with pwr := { s.pwr with seq := .late, upWaits := false } }).wr F.PWR_STS_STATE 1

/-- The late sequence ends. -/
def lateEnds (s : State) : State := { s with pwr := { s.pwr with seq := .run } }.wr F.PWR_STS_STATE 2

/-- SUPPLY_OK rises, with the straps at these levels.
DESIGN CHOICE, log entry 64: unsafe. DESIGN CHOICE, log entry 75: unsafe. -/
def supplyOkRise (posa test : Bool) (s : State) : State :=
  if s.pwr.supply then s
  else
    let s := { s with pwr := { s.pwr with supply := true, posaPin := posa, testPin := test } }
    match s.pwr.seq with
    | .off => startEarly s
    | .wait => { s with pwr := { s.pwr with wait50 := true } }
    | _ => s

def execSupplyOkRise (posa test : Bool) (s : State) : Out := fin (supplyOkRise posa test s)

/-- PWR_CTL.UP. DESIGN CHOICE, log entry 64: unsafe. -/
def powerUp (s : State) : State :=
  match s.pwr.seq with
  | .off | .wait | .early => s
  | _ =>
    if s.rd F.PWR_STS_STATE ≠ 0 then s.wr F.PWR_STS_UPREF 1
    else if s.pwr.wait50 then { s with pwr := { s.pwr with upWaits := true } }
    else startLate s

def execPowerUp (s : State) : Out := live powerUp s

/-- A rail becomes good; at the head of a sequence, the sequence goes on.  The fabric die's reset is released once SDS and
SDH are good, the compute die's once the HBM rails are. -/
def railGood (r : Nat) (s : State) : State :=
  if !bit s.pwr.enabled r then s
  else
    let s := { s with pwr := { s.pwr with wasGood := setBit s.pwr.wasGood r } }
    let s := s.wr F.PWR_RAILSTS_GOOD (setBit (s.rd F.PWR_RAILSTS_GOOD) r)
    if topRail s ≠ r then s
    else match s.pwr.seq with
      | .early => if r = 2 then enableRail 3 s else if r = 3 then releaseReset s else s
      | .late =>
        let s := if r = 6 then { s with pwr := { s.pwr with fabReset := false } } else s
        if r < lastRail s then enableRail (r + 1) s
        else if s.part = .s then lateEnds s
        else { s with pwr := { s.pwr with seq := .train, cmpReset := false } }
      | _ => s

def execRailGood (r : Nat) (s : State) : Out := finUnit r 13 (railGood r) s

def stacksTrained (m : Nat) (s : State) : State :=
  if s.pwr.seq ≠ .train then s
  else
    let s := lateEnds (s.wr F.POL_STS_STKUP m)
    (upto 8).foldl (fun s i => if bit m i then s else raise (712 + i) s) s

def execStacksTrained (mask : Byte) (s : State) : Out := fin (stacksTrained mask.toNat s)

/-! ## Power-down (R483, R485) -/

/-- The power-down starts: ports OFF, programs and collectives stopped. -/
def startDown (full : Bool) (s : State) : State :=
  let s := (upto 144).foldl (fun s p => enterOff p s) (s.wr F.PWR_STS_STATE 3)
  { s with isl := {}, rtv := { s.rtv with colls := [], early := [] },
           pwr := { s.pwr with seq := .down, full := full, upWaits := false } }

/-- DESIGN CHOICE, log entry 64: unsafe. -/
def supplyOkFall (s : State) : State :=
  if !s.pwr.supply then s
  else
    let s := { s with pwr := { s.pwr with supply := false } }
    match s.pwr.seq with
    | .off => s
    | .wait => { s with pwr := { s.pwr with wait50 := false } }
    | .down => { s with pwr := { s.pwr with full := true } }
    | _ => startDown true s

def execSupplyOkFall (s : State) : Out := fin (supplyOkFall s)

/-- PWR_CTL.DOWN; with the data-plane rails off it has nothing to take down, and an UP that waits for its 50 ms is
dropped. DESIGN CHOICE, log entry 64: unsafe. -/
def powerDown (s : State) : State :=
  match s.pwr.seq with
  | .late | .train => startDown false s
  | .run => if s.rd F.PWR_STS_STATE = 0 then { s with pwr := { s.pwr with upWaits := false } } else startDown false s
  | _ => s

def execPowerDown (s : State) : Out := live powerDown s

/-- The last rail of the sequence is below 10 %: the 50 ms begin. -/
def downEnds (s : State) : State :=
  if s.pwr.full then
    let s := moduleReset s
    { s with pwr := { s.pwr with seq := .wait, wait50 := true, full := false } }.wr F.PWR_STS_STATE 4
  else { s with pwr := { s.pwr with seq := .run, wait50 := true } }.wr F.PWR_STS_STATE 0

/-- A rail falls below 10 %; the next in reverse order goes off.  A die's reset is asserted before the first of its
rails falls. DESIGN CHOICE, log entry 62: unsafe. -/
def railDischarged (r : Nat) (s : State) : State :=
  let stop := if s.pwr.full then 2 else 4
  if s.pwr.seq ≠ .down ∨ topRail s ≠ r ∨ r < stop then s
  else
    let s := notGood r { s with pwr := { s.pwr with enabled := clearBits s.pwr.enabled (2 ^ r) } }
    let s := if 7 ≤ r then holdCompute s else if 4 ≤ r then holdFabric s else s
    if topRail s < stop then downEnds s else s

def execRailDischarged (r : Nat) (s : State) : Out := finUnit r 13 (railDischarged r) s

/-- 50 ms have passed. DESIGN CHOICE, log entry 64: unsafe. -/
def supplyWaitEnd (s : State) : State :=
  if !s.pwr.wait50 then s
  else
    let s := { s with pwr := { s.pwr with wait50 := false } }
    match s.pwr.seq with
    | .wait => if s.pwr.supply then startEarly s else { s with pwr := { s.pwr with seq := .off } }
    | .run => if s.pwr.upWaits then startLate s else s
    | _ => s

def execSupplyWaitEnd (s : State) : Out := fin (supplyWaitEnd s)

/-! ## Rail faults (R480) -/

/-- A rail not good 2 ms after its enable. -/
def railTimeout (r : Nat) (s : State) : State :=
  if watched s r && !bit s.pwr.wasGood r then railFault r s else s

def execRailEnableTimeout (r : Nat) (s : State) : Out := finUnit r 13 (railTimeout r) s

/-- A rail that was good, outside its window for 10 µs. -/
def railWindow (r : Nat) (s : State) : State :=
  if watched s r && bit s.pwr.wasGood r then railFault r (notGood r s) else s

def execRailWindowFault (r : Nat) (s : State) : Out := finUnit r 13 (railWindow r) s

/-! ## Emergency off (R486) -/

def epo (s : State) : State :=
  raise 738 ((allPortsOff { s with pwr := { s.pwr with offReq := true } }).wr F.PWR_STS_EPO 1)

def execEpo (s : State) : Out := fin (epo s)

/-! ## The ramp governor (R488 to R491) -/

/-- One core's steps at a governor instant: as far as the credit goes, and to the goal where a step costs nothing. -/
def governCore (s : State) (c : Nat) : State :=
  let u := (s.core c).level
  let g := coreGoal s c
  let unit := govUnit s
  let d := if u < g then g - u else u - g
  let n := if unit = 0 then d else min d (s.pwr.credit / unit)
  { s.modCore c fun x => { x with level := if u < g then u + n else u - n } with
    pwr := { s.pwr with credit := s.pwr.credit - n * unit } }

/-- DESIGN CHOICE, log entry 65: unsafe. -/
def governorInstant (s : State) : State :=
  let credit := min s.pwr.credit (govUnit s) + 100 * s.rd F.PWR_GOV_RATE
  let s := { s with pwr := { s.pwr with credit := credit } }
  (presentCores s).foldl governCore s

def execGovernorInstant (s : State) : Out := live governorInstant s

def execHoldExpiry (c : Nat) (s : State) : Out :=
  liveUnit c 32 (fun s => s.modCore c fun x => { x with held := false }) s

/-! ## The estimator (R493) -/

/-- A rail, or the total, with its estimate in 0.1 W. DESIGN CHOICE, log entry 65: unsafe. -/
def estimatorRefresh (rails : List W16) (total : W16) (overMs : Bool) (s : State) : State :=
  let v := b2n s.pwr.calib
  let s := (upto (lastRail s + 1)).foldl (fun s r =>
    (s.wr F.PWR_EST_POWER (rails.getD r 0).toNat r).wr F.PWR_EST_VALID v r) s
  let s := (s.wr F.PWR_EST_TOT_POWER total.toNat).wr F.PWR_EST_TOT_VALID v
  if overMs && 16500 < total.toNat then (s.wr F.PWR_STS_OVER 1).count F.PWR_OVER_CNT_COUNT else s

def execEstimatorRefresh (rails : List W16) (total : W16) (overMs : Bool) (s : State) : Out :=
  fin (estimatorRefresh rails total overMs s)

def execEstimatorCalibrate (s : State) : Out := fin { s with pwr := { s.pwr with calib := true } }

/-! ## Thermal limits (R496) -/

/-- The sensor is present: 0 to 15 on the fabric die, 16 to 31 on the compute die, 32 to 39 in the stacks.
DEDUCED, log entry 88: unsafe. -/
def sensorPresent (s : State) (i : Nat) : Bool := i < 16 || (i < 40 && s.part != .s)

/-- HOLD ends for every core. DESIGN CHOICE, log entry 65: unsafe. -/
def cutHolds (s : State) : State := (upto 32).foldl (fun s c => s.modCore c fun x => { x with held := false }) s

/-- New sensor readings, in 0.25 °C. DEDUCED, log entry 88: unsafe. -/
def thermal (t : List (BitVec 10)) (s : State) : State :=
  let l := t.zipIdx.filter fun x => sensorPresent s x.2
  let s := l.foldl (fun s x => (s.wr F.PWR_TEMP_TEMP x.1.toNat x.2).wr F.PWR_TEMP_VALID 1 x.2) s
  match l.map fun x => x.1.toInt with
  | [] => s
  | a :: rest =>
    let h := rest.foldl max a
    if 440 ≤ h then raise 736 (raise 735 (cutHolds (s.wr F.PWR_STS_THROT 1)))
    else if 400 ≤ h then raise 735 (cutHolds (s.wr F.PWR_STS_THROT 1))
    else if h < 388 ∧ s.rdB F.PWR_STS_THROT then cutHolds (s.wr F.PWR_STS_THROT 0)
    else s

def execThermalThreshold (readings : List (BitVec 10)) (s : State) : Out := fin (thermal readings s)

end Sys2Proof.Machine
end

