-- ==== Sys2Proof/Machine/View.lean ====
section
/-! DEFINITION. What a register reads as (R5, R10, R148, R522): stored fields, Sprig content of the ACTIVE bank, and the
status fields that show the units' own state. -/

namespace Sys2Proof.Machine

/-! ## Fields -/

/-- A value placed in a field. -/
def inField (f : Fld) (v : Nat) : Nat := v % 2 ^ f.w * 2 ^ f.lo

/-- A register of a unit that the part lacks, or of a compute die out of service: it reads 0 and ignores writes
(R522). DEDUCED, log entry 74: unsafe. -/
def absentReg (s : State) (r : Reg) (i : Nat) : Bool :=
  let a := Reg.base r
  let cmp := 0x12400000 ≤ a && a < 0x12800000
  let pol := 0x11C00000 ≤ a && a < 0x12000000
  ((cmp || pol) && s.dieOut) || (pol && !s.hasPool) || (cmp && s.part.cores == 0) ||
    (match r with
     | .CMP_FLT | .CMP_FLTCYC | .CMP_OWN | .CMP_CSTS => !bit s.part.cores i
     | .CTR_CORE => !bit s.part.cores (i / 8)
     | _ => false)

/-! ## Status that the units show -/

/-- LNE_PSTS.  PRECODE reads 0 in TRAIN and 1 in STEP and wherever blocks run, on a PAM4 rung.
DESIGN CHOICE, log entry 90: unsafe. -/
def psts (s : State) (p : Nat) : Nat :=
  let x := s.port p
  let streams := match x.st with
    | .bitlock | .marklock | .capx | .step | .active => true
    | _ => false
  let asleep := (upto 4).foldl (fun m i => if (s.lane (4 * p + i)).asleep then setBit m i else m) 0
  x.st.code + inField F.LNE_PSTS_RUNG x.rung + inField F.LNE_PSTS_CEIL x.ceil + inField F.LNE_PSTS_WIDTH x.width +
  inField F.LNE_PSTS_PRECODE (b2n (streams && x.rung != 0)) + inField F.LNE_PSTS_LANEMAP x.map.toNat +
  inField F.LNE_PSTS_FARRUNGS x.farRungs.toNat + inField F.LNE_PSTS_STEPFAILS x.stepFails +
  inField F.LNE_PSTS_SLEEPING asleep

def lsts (s : State) (l : Nat) : Nat :=
  let x := s.lane l
  b2n x.bitLock + 2 * b2n x.markLock + 4 * b2n x.asleep + 8 * b2n x.excluded + 16 * b2n x.polInv +
  32 * x.farLane.toNat + inField F.LNE_LSTS_SKEW (min x.skew 127) +
  inField F.LNE_LSTS_LOSSES (min (recentLosses s.clock x.lossTimes).length 7)

/-- LNK_STS.  A port quarantined as a duplicate is quarantined as R97 sets out, so QUAR shows it too (R99); TXSEQ is the
number of the next new unit, also while a replay resends older ones.
DESIGN CHOICE, log entry 91: unsafe. DESIGN CHOICE, log entry 103: unsafe. -/
def lnkSts (s : State) (p : Nat) : Nat :=
  let x := s.link p
  b2n x.framed + 2 * b2n x.nakWait + 4 * b2n (x.quar || x.dup) + 8 * b2n x.dup + inField F.LNK_STS_RETRIES (min x.retries 15) +
  inField F.LNK_STS_TXSEQ x.txSeq.toNat + inField F.LNK_STS_RXEXP x.expE.toNat

def xbrSts (s : State) : Nat :=
  s.xbr.up.toNat + inField F.XBR_STS_PLANEFLT (s.rd F.XBR_STS_PLANEFLT) +
  inField F.XBR_STS_DRAIN (b2n (s.xbr.drain != 0))

/-- The reserved cells of an output's class; mirror copies count under MGMT (R151). -/
def queueDepth (s : State) (p c : Nat) : Nat :=
  (s.outp p).occ.getD c 0 + (if c = 3 then (s.outp p).mirOcc else 0)

def winsts (s : State) : Nat :=
  (s.ni.slots.filter fun x => x.2.pair.isSome).length +
  inField F.RTE_WINSTS_OVFK ((s.ni.ovfPairs.map (·.2)).eraseDups).length

/-- The kennel, index and contents of the module's queue `n`. -/
def queueNumbered (s : State) (n : Nat) : Option (Nat × Nat × Queue) :=
  (s.knl.flatMap fun k => if k.2.live then k.2.queues.map fun q => (k.1, q.1, q.2) else []).find? fun x => x.2.2.num == n

def queueSts (s : State) (n : Nat) : Nat :=
  match queueNumbered s n with
  | none => 0
  | some (k, q, x) =>
    let waits := waitsWhistle s k q || waitsFence s k q
    k + inField F.CMD_QSTS_QIDX q + inField F.CMD_QSTS_VALID 1 + inField F.CMD_QSTS_WAITING (b2n waits) +
    inField F.CMD_QSTS_ISSUED (issuedOf s k q).length + inField F.CMD_QSTS_COLLWAIT (b2n x.collWait)

def gsts (s : State) : Nat :=
  (s.knl.filter fun k => k.2.st != .free).length +
  inField F.CMD_GSTS_QUEUES (s.knl.foldl (fun n k => n + if k.2.live then k.2.queues.length else 0) 0) +
  inField F.CMD_GSTS_QUAR (b2n !s.quarTags.isEmpty)

/-- DESIGN CHOICE, log entry 73: unsafe. -/
def csts (s : State) (c : Nat) : Nat :=
  let x := s.core c
  let p := coreProg s c
  x.st.code + inField F.CMP_CSTS_LIDX x.lidx + inField F.CMP_CSTS_NCORE ((p.map (·.ncore)).getD 0) +
  inField F.CMP_CSTS_STATIC (b2n (p.any (·.static))) + inField F.CMP_CSTS_FILLER (b2n (x.level != 0 && x.st != .run)) +
  inField F.CMP_CSTS_WAITING (b2n x.waiting.isSome)

def rtvSts (s : State) : Nat :=
  (s.rtv.colls.filter Coll.flying).length + inField F.RTV_STS_FREE (1024 - min 1024 (ceilDiv (totalStaging s) 65536))

def scentSts (s : State) (k : Nat) : Nat :=
  match Tbl.find s.scents k with
  | some x => x.mode + 4 * b2n x.appearsFull
  | none => 0

def spgSts (s : State) : Nat :=
  let x := s.spg
  b2n x.epb + 2 * b2n x.staged.isSome + 4 * b2n x.rbok + 8 * b2n x.armed.isSome + 16 * b2n x.drain +
  inField F.SPG_STS_STAGING (b2n x.staging.isSome)

def spgVer (s : State) (b : Nat) : Nat :=
  match b with
  | 0 => (s.spg.staged.map (·.version)).getD 0
  | 1 => s.spg.active.version
  | _ => (s.spg.previous.map (·.version)).getD 0

/-- The severities at which sticky bits are set. -/
def stickySevs (s : State) : List Nat := ((upto 742).filter (stickyBit s)).map (effSev s)

def hndSts (s : State) : Nat :=
  let l := stickySevs s
  b2n (l.any fun v => 1 ≤ v) + inField F.HND_STS_HIGHEST (l.foldl max 0)

def pwrLevel (s : State) : Nat :=
  (presentCores s).foldl (fun n c => n + (s.core c).level) 0 +
  inField F.PWR_LEVEL_GOAL ((presentCores s).foldl (fun n c => n + coreGoal s c) 0)

def leashSts (s : State) : Nat :=
  b2n s.tray.holder + 2 * b2n s.tray.strapA + inField F.TWN_LSTS_CLAIM s.tray.claim.toNat

/-- The sampling record at the head of the queue (R516). -/
def srecWord (s : State) : Nat :=
  match s.samp with
  | [] => 0
  | r :: _ => r.session + 16 + 32 * r.kennel + 2 ^ 17 * r.bundle + 2 ^ 32 * r.cycle

/-! ## The word a register reads as -/

/-- The registers that hold Sprig content (R148). -/
def sprigReg (r : Reg) : Bool :=
  match r with
  | .XBR_INCOL | .OUB_CLS | .OUB_WEIGHT | .OUB_WRED | .OUB_WREDP | .RTE_SELF | .RTE_LOCAL | .RTE_XTAB | .RTE_YTAB
  | .RTE_DIRP | .RTE_RSET_CTL | .RTE_RSET_PORTS | .RTE_LIFE => true
  | _ => false

/-- The part of a register that shows a unit's own state. -/
def shown (s : State) (r : Reg) (i : Nat) : Nat :=
  match r with
  | .LNE_PSTS => psts s i
  | .LNE_LSTS => lsts s i
  | .LNE_PRBS => 4 * b2n (s.lane i).sync
  | .LNK_STS => lnkSts s i
  | .LNK_SWEEP => 4 * b2n s.sweep.busy + 256 * s.sweep.events
  | .LNK_FARID => faridWord s (i / 4) (i % 4)
  | .LNK_SNAP => Tbl.get s.sweep.snap i 0
  | .XBR_STS => xbrSts s
  | .OUB_QDEPTH => queueDepth s (i / 4) (i % 4)
  | .RTE_MCG =>
    let w := Tbl.get s.spg.active.mcg (i / 2) (0, 0xFFF)
    if i % 2 = 0 then w.1 else w.2
  | .RTE_WINSTS => winsts s
  | .KNL_STS => knlSts (s.kennel i)
  | .KNL_CFG =>
    let k := s.kennel i
    k.ktag.toNat + 2 ^ 16 * k.gen.toNat + 2 ^ 20 * b2n k.repro
  | .CMD_QSTS => queueSts s i
  | .CMD_GSTS => gsts s
  | .POL_SLOT => slotWord s i
  | .RTV_GRP =>
    let w := Tbl.get s.spg.active.grp (i / 4) (0, 0, 0, 0)
    match i % 4 with
    | 0 => w.1
    | 1 => w.2.1
    | 2 => w.2.2.1
    | _ => w.2.2.2
  | .RTV_STS => rtvSts s
  | .RTV_SEQTAB => s.rtv.next.length
  | .CMP_CFG => s.part.cores
  | .CMP_CYC => s.cyc.toNat
  | .CMP_CSTS => csts s i
  | .DET_TIME => s.nowNs % 2 ^ 64
  | .DET_SCSTS => scentSts s i
  | .SPG_STS => spgSts s
  | .SPG_VER => spgVer s i
  | .FEA_OFFER => s.part.offer / 2 ^ (32 * i) % 2 ^ 32
  | .KLP_LCS => s.klp.lcs + 8 * b2n s.klp.lcsNext.isSome
  | .TWN_LSTS => leashSts s
  | .TWN_RSYNC => inField F.TWN_RSYNC_BUSY (b2n s.tray.resync.isSome)
  | .HND_STS => hndSts s
  | .PWR_STS => inField F.PWR_STS_SUPPLY (b2n s.pwr.supply)
  | .PWR_LEVEL => pwrLevel s
  | .TCL_STS => b2n (s.tcl.phase != .idle)
  | .CTR_SREC => srecWord s
  | _ => 0

/-- The registers whose whole word is shown, so that nothing of them is stored. -/
def shownWhole (r : Reg) : Bool :=
  match r with
  | .LNE_PSTS | .LNE_LSTS | .LNK_STS | .XBR_STS | .POL_SLOT | .RTV_STS | .KNL_CFG | .CTR_SREC => true
  | _ => false

/-- What the quiet alias reads: the word of element `i` with none of its fields withheld. -/
def csrWord (s : State) (r : Reg) (i : Nat) : Nat :=
  if absentReg s r i then 0
  else if sprigReg r then (Reg.fields r).foldl (fun n f => n + inField f (s.act f i)) 0
  else if shownWhole r then shown s r i
  else shown s r i + storedWord s r i

/-- The fields that only the monitor may access (R9). -/
def monFields (r : Reg) : List Fld := (Reg.fields r).filter fun f => f.acc == .MON

/-- What an accessor reads: MON fields read 0 to all but the monitor (R9). DESIGN CHOICE, log entry 71: unsafe. -/
def readAs (by_ : Accessor) (s : State) (r : Reg) (i : Nat) : Nat :=
  let w := csrWord s r i
  if by_ = .monitor then w
  else (monFields r).foldl (fun n f => n - inField f (n / 2 ^ f.lo)) w

end Sys2Proof.Machine
end

