-- ==== Sys2Proof/Machine/CsrRows.lean ====
section
/-! DEFINITION. Register accesses (R5 to R10, R418, R437, R516, R522, R537): writes, clearing reads, reads of MON fields,
and the requests of the ROM reporter (R414, R473). -/

namespace Sys2Proof.Machine

/-! ## Writes by access code (R5, R8) -/

/-- One field, as its access code says; fields that act on a write act elsewhere. -/
def writeField (f : Fld) (i v : Nat) (s : State) : State :=
  let w := v / 2 ^ f.lo % 2 ^ f.w
  match f.acc with
  | .RW | .MON => s.wr f w i
  | .RWL => if s.spg.plan then s else s.wr f w i
  | .W1C => s.wr f (clearBits (s.rd f i) w) i
  | .W1S => s.wr f (s.rd f i ||| w) i
  | .RO | .WO | .ROC => s

/-- Every field as its access code says. -/
def writeFields (r : Reg) (i v : Nat) (s : State) : State :=
  (Reg.fields r).foldl (fun s f => writeField f i v s) s

/-- The fields of some access codes only. -/
def writeCodes (codes : List Access) (r : Reg) (i v : Nat) (s : State) : State :=
  ((Reg.fields r).filter fun f => codes.contains f.acc).foldl (fun s f => writeField f i v s) s

/-! ## Registers whose writes do more -/

/-- LNE_PCTL (R64): a changed MODE starts its mode, else RETRAIN acts. -/
def writePctl (p v : Nat) (s : State) : State :=
  let s := s.wr F.LNE_PCTL_MAXRUNG (v / 4) p
  let s := if bit v 5 then clearCeiling p s else s
  let s := if bit v 6 then clearFlap p s else s
  let same := s.rd F.LNE_PCTL_MODE p == v % 4
  let s := match v % 4 with
    | 1 => modeWrite p 1 (startMain p) s
    | 2 => modeWrite p 2 (startTest p) s
    | m => modeWrite p m (enterOff p) s
  let s := if same && bit v 4 then retrain p s else s
  sleepRequest p (v / 256 % 16) s

/-- LNK_CRED (R111): fields that sum above 16 are ignored. -/
def writeCred (p v : Nat) (s : State) : State :=
  if 16 < (upto 8).foldl (fun n c => n + v / 2 ^ (4 * c) % 16) 0 then s else writeFields .LNK_CRED p v s

/-- LNK_SWEEP (R115). -/
def writeSweep (v : Nat) (s : State) : State :=
  let s := writeFields .LNK_SWEEP 0 v s
  let s := if bit v 0 then sweepStart s else s
  if bit v 1 then sweepAbort s else s

def writeXbrCtl (v : Nat) (s : State) : State :=
  planeEnable (BitVec.ofNat 4 v) (s.wr F.XBR_CTL_ROUNDS (v / 16))

/-- RTE_RSET_OWN (R164). DEDUCED, log entry 79: unsafe. -/
def writeOwner (n v : Nat) (s : State) : State :=
  let ktag := v % 2 ^ 16
  if bit v 16 && ownRefused s n ktag then s.wr F.RTE_STS_OVERLAP 1 else setOwner n ktag (b2n (bit v 16)) s

/-- KNL_CFG, as the monitor writes it (R537). -/
def writeKnlCfg (k v : Nat) (s : State) : State :=
  s.modKennel k fun x => { x with ktag := BitVec.ofNat 16 v, gen := BitVec.ofNat 4 (v / 2 ^ 16), repro := bit v 20 }

def writeTinv (v : Nat) (s : State) : State :=
  if bit v 13 then invalidate (v % 4096) (bit v 12) s
  else (s.wr F.POL_TINV_KENNEL v).wr F.POL_TINV_ALL (v / 2 ^ 12)

/-- POL_MONRGN is written once (R259). DESIGN CHOICE, log entry 69: unsafe. -/
def writeMonrgn (v : Nat) (s : State) : State :=
  if s.pool.rgnSet then s
  else { s with pool := { s.pool with rgnSet := true } }.wr F.POL_MONRGN_FIRST v

/-- POL_SLOT, accepted while MODE and PEND are 0 (R255). DESIGN CHOICE, log entry 69: unsafe. -/
def writeSlot (e v : Nat) (s : State) : State :=
  if s.rdB F.POL_MODE_MODE || s.rdB F.POL_MODE_PEND then s
  else { s with pool := { s.pool with slots := Tbl.put s.pool.slots e (v % 512) (resetSlot e).word } }

/-- CMP_OWN moves a core's ownership without a scrub (R537). DESIGN CHOICE, log entry 69: unsafe. -/
def writeCoreOwner (c v : Nat) (s : State) : State :=
  (writeFields .CMP_OWN c v s).modCore c fun x =>
    if bit v 12 && x.st == .free then { x with st := .idle }
    else if !bit v 12 && x.st == .idle then { x with st := .free }
    else x

def writeDetCtl (v : Nat) (s : State) : State :=
  let s := writeFields .DET_CTL 0 v s
  if bit v 2 then { s with det := { s.det with alignWait := true } } else s

/-- SPG_CMD: a STAGE takes the image from Kelpie's SRAM (R395). -/
def writeSpgCmd (v : Nat) (s : State) : State :=
  match v % 4 with
  | 1 =>
    let a := s.rd F.SPG_SRC_ADDR
    stage ((upto (min (s.rd F.SPG_SRC_LEN) (2 ^ 21))).map fun i => Tbl.get s.klp.sram (a + i) 0) s
  | 2 => commit s
  | 3 => rollback s
  | _ => s

/-- FEA_ACCEPT keeps offered bits only, until the lock (R406). -/
def writeAccept (i v : Nat) (s : State) : State :=
  if s.rdB F.FEA_LOCK_LOCK then s else s.wr F.FEA_ACCEPT_BITS (v &&& (s.part.offer / 2 ^ (32 * i))) i

/-- KLP_SEQ (R438): with both bits GO acts first, so that OPEN ends set (R7). -/
def writeSeq (v : Nat) (s : State) : State :=
  let s := writeCodes [.W1C] .KLP_SEQ 0 v s
  let s := if bit v 1 then seqGo s else s
  if bit v 0 then seqOpen s else s

/-- SPG_POLICY takes effect as written (R537); once it stands as the policy block gave it, a write ends the certified
configuration (R439). -/
def writePolicyWord (i v : Nat) (s : State) : State :=
  let s := writeFields .SPG_POLICY i v s
  if s.klp.policyIn then uncertify s else s

def writeLctl (v : Nat) (s : State) : State :=
  let s := claimEnable (bit v 2) (leashMode (bit v 0) s)
  if bit v 1 then yield s else s

def writeRsync (v : Nat) (s : State) : State :=
  let s := writeFields .TWN_RSYNC 0 v s
  if bit v 12 then resyncGo s else s

/-- HND_SEV: values below a floor are stored as the floor, reserved sources read 0 (R465, R470). -/
def writeSev (n v : Nat) (s : State) : State :=
  (upto 8).foldl (fun s j =>
    let i := 8 * n + j
    if i < 742 then s.wr (sevField i) (max (v / 2 ^ (4 * j) % 8) (houndFloor i)) n else s) s

/-- HND_FORCE: a bit set asserts its source; reserved sources have no effect. -/
def writeForce (w v : Nat) (s : State) : State :=
  (upto 32).foldl (fun s b => if 32 * w + b < 742 then setForce (32 * w + b) (b2n (bit v b)) s else s) s

/-- PWR_CTL: with both bits, the power-down runs (R483). -/
def writePwrCtl (v : Nat) (s : State) : State :=
  if bit v 1 then powerDown s else if bit v 0 then powerUp s else s

def writeTclCmd (v : Nat) (s : State) : State :=
  let s := writeFields .TCL_CMD 0 v s
  if bit v 0 then tclGo s else s

/-- A write that its accessor may make, of `v` to element `i`.
DESIGN CHOICE, log entry 67: unsafe. DESIGN CHOICE, log entry 68: unsafe. -/
def writeElem (r : Reg) (i v : Nat) (s : State) : State :=
  match r with
  | .LNE_PCTL => writePctl i v s
  | .LNE_PRBS => prbsRx i (bit v 1) (prbsTx i (bit v 0) s)
  | .LNK_CRED => writeCred i v s
  | .LNK_SWEEP => writeSweep v s
  | .XBR_CTL => writeXbrCtl v s
  | .RTE_RSET_OWN => writeOwner i v s
  | .KNL_CFG => writeKnlCfg i v s
  | .POL_TINV => writeTinv v s
  | .POL_MONRGN => writeMonrgn v s
  | .POL_SLOT => writeSlot i v s
  | .POL_MODE => if bit v 0 then modeStatic s else modeDynamic s
  | .CMP_OWN => writeCoreOwner i v s
  | .DET_CTL => writeDetCtl v s
  | .SPG_CMD => writeSpgCmd v s
  | .SPG_FLOOR => s.wr F.SPG_FLOOR_VERSION (max v (s.rd F.SPG_FLOOR_VERSION))
  | .SPG_POLICY => writePolicyWord i v s
  | .SPG_TF => if s.spg.armed.isSome then s else writeFields .SPG_TF 0 v s
  | .FEA_ACCEPT => writeAccept i v s
  | .KLP_CTL => if bit v 0 then kelpieRestart s else s
  | .KLP_SEQ => writeSeq v s
  | .MON_LOCK => if bit v 0 then monLockWrite (v / 256 % 256) s else s
  | .MON_LINKSEC => linksecWrite i (v % 2) s
  | .TWN_LCTL => writeLctl v s
  | .TWN_RSYNC => writeRsync v s
  | .HND_STICKY => stickyClear i v s
  | .HND_SEV => writeSev i v s
  | .HND_FORCE => writeForce i v s
  | .PWR_CTL => writePwrCtl v s
  | .PWR_GPIO => pwrGpioWrite false (BitVec.ofNat 32 v) s
  | .PWR_GPIOOE => pwrGpioWrite true (BitVec.ofNat 32 v) s
  | .PWR_TRAYRAIL => trayrailWrite (BitVec.ofNat 16 v) s
  | .TCL_CMD => writeTclCmd v s
  | _ => writeFields r i v s

/-! ## Who may access (R9, R418, R435) -/

/-- The debug module reaches the CSR space: open by lifecycle, or unlocked with SCOPE 1. -/
def debugReaches (s : State) : Bool :=
  s.rdB F.KLP_DBGSTS_UNLOCKED && (s.rdB F.KLP_DBGSTS_SCOPE || (s.klp.lcs != 2 && s.klp.lcs != 4))

/-- DEDUCED, log entry 70: unsafe. -/
def reaches (by_ : Accessor) (s : State) : Bool := by_ != .debug || debugReaches s

/-- The word that a write of 32 or 64 bits carries. -/
def wordFor (r : Reg) (v : Nat) : Nat := if Reg.wide r then v else v % 2 ^ 32

/-- A write of element `i`: MON fields are written by the monitor only, and any other accessor's write of them raises
the monitor-access source. -/
def csrWrite (by_ : Accessor) (r : Reg) (i v : Nat) (s : State) : State :=
  if !reaches by_ s || absentReg s r i || dieHeld s r then s
  else if (monFields r).isEmpty || by_ == .monitor then writeElem r i (wordFor r v) s
  else raise 720 s

def execRegisterWrite (by_ : Accessor) (r : CsrRef) (v : W64) (s : State) : Out :=
  match elementOf r with
  | some i => live (csrWrite by_ r.reg i v.toNat) s
  | none => live id s

/-- The value that a read returned. -/
def returned (v : Nat) (s : State) : State := { s with host := { s.host with lastRead := BitVec.ofNat 64 v } }

/-- Whether a read goes through the quiet alias: the debug module's reads all do (R437). -/
def isQuiet (by_ : Accessor) (quiet : Bool) : Bool := quiet || by_ == .debug

/-- A read of a register with MON fields; by another accessor than the monitor it raises the monitor-access source, but
through the quiet alias no read has a side effect (R9, R10). DEDUCED, log entry 70: unsafe. -/
def monRead (by_ : Accessor) (quiet : Bool) (r : Reg) (i : Nat) (s : State) : State :=
  if !reaches by_ s then s
  else
    let s' := returned (readAs by_ s r i) s
    if isQuiet by_ quiet || by_ == .monitor || (monFields r).isEmpty || absentReg s r i then s' else raise 720 s'

/-- An address that no register occupies reads 0 (R522). -/
def unoccupiedRead (by_ : Accessor) (s : State) : State := if reaches by_ s then returned 0 s else s

def execNonMonitorMonRead (by_ : Accessor) (r : CsrRead) (s : State) : Out :=
  match elementOf r.ref with
  | some i => live (monRead by_ r.quiet r.ref.reg i) s
  | none => live (unoccupiedRead by_) s

/-! ## Clearing reads (R5, R10, R505, R516) -/

/-- A read of CTR_SREC: the record at the head, popped unless the read is quiet. -/
def srecPop (quiet : Bool) (s : State) : State :=
  let s' := returned (srecWord s) s
  if quiet then s' else { s' with samp := s.samp.drop 1 }

def execSrecPop (quiet : Bool) (s : State) : Out := live (srecPop quiet) s

/-- What a register's ROC fields hold once read: 0; the high-water mark starts again at what is reserved now (R151). -/
def clearRoc (r : Reg) (i : Nat) (s : State) : State :=
  let s := ((Reg.fields r).filter fun f => f.acc == .ROC).foldl (fun s f => s.wr f 0 i) s
  if r = .OUB_QMAX then s.wr F.OUB_QMAX_CELLS (queueDepth s (i / 4) (i % 4)) i else s

/-- A read of a register with ROC fields returns it; a normal one clears them, a quiet one does not (R5, R10). -/
def clearingRead (by_ : Accessor) (quiet : Bool) (r : Reg) (i : Nat) (s : State) : State :=
  if !reaches by_ s then s
  else if r = .CTR_SREC then srecPop (isQuiet by_ quiet) s
  else
    let s' := returned (readAs by_ s r i) s
    if isQuiet by_ quiet || absentReg s r i then s' else clearRoc r i s'

def execCounterClearingRead (r : ReadBy) (s : State) : Out :=
  match elementOf r.ref with
  | some i => live (clearingRead r.by_ r.quiet r.ref.reg i) s
  | none => live (unoccupiedRead r.by_) s

/-! ## The ROM reporter (R414, R473) -/

/-- What the reporter gives in the safe state: Hound's registers, the boot status and the status registers that the
source table names. -/
def reported (r : Reg) : Bool :=
  match r with
  | .HND_STS | .HND_STICKY | .HND_PATH | .KLP_BOOTSTS | .LNE_EVT | .LNE_LSTS | .LNE_PSTS | .LNK_EVT | .LNK_FARID
  | .LNK_STS | .MON_LINKSEC | .MON_LINKAUTH_CNT | .CMP_FLT | .CMP_FLTCYC | .CMP_CSTS | .XBR_STS | .POL_STS
  | .POL_ECCLOG | .POL_UE_CNT | .POL_MIRFAIL_CNT | .RTV_RESFAIL_CNT | .RTV_LANES | .RTV_CHKFAIL_CNT | .TWN_LSTS
  | .PWR_STS | .PWR_RAILSTS => true
  | _ => false

/-- Outside the safe state, after a failed boot, the reporter answers with the boot status alone. -/
def reporter (r : Reg) (i : Nat) (s : State) : State :=
  if s.klp.mode ≠ .reporter then s
  else if s.sealed' then
    if reported r then
      { s with klp := { s.klp with report := some (Reg.base r + i * Reg.bytes r, csrWord s r i) } }
    else s
  else { s with klp := { s.klp with report := some (Reg.base .KLP_BOOTSTS, csrWord s .KLP_BOOTSTS 0) } }

/-- DEDUCED, log entry 72: unsafe. -/
def execReporterRequest (r : CsrRef) (s : State) : Out :=
  match elementOf r with
  | some i => fin (reporter r.reg i s)
  | none => fin s

end Sys2Proof.Machine
end

