-- ==== Sys2Proof/Machine/Interface.lean ====
section
/-! DEFINITION. The network interface as a source (R104, R106, R108, R175 to R183, R443, R444, R446, R536): windows,
their rate law, the packets of commands and cores, and the answers they get. -/

namespace Sys2Proof.Machine

/-! ## Windows (R178, R179) -/

/-- The window a packet of a pair needs: its slot, a free one, or its kennel's overflow window. -/
def needWindow (pair : W16 × Nat) (s : State) : Wid × State :=
  let s := promoteAll s
  match slotOfPair s pair with
  | some i => (.slot i, s)
  | none =>
    if s.ni.ovfPairs.contains pair then (.ovf pair.2, s)
    else match freeSlot s with
      | some i => (.slot i, takeSlot i pair s)
      | none =>
        let s := takeOverflow pair.2 s
        (.ovf pair.2, { s with ni := { s.ni with ovfPairs := s.ni.ovfPairs ++ [pair] } })

/-! ## The rate law (R182, R183, R185) -/

/-- Time units of a microsecond (R377). -/
def usTime : Nat := 9000000

/-- The line rate L in bytes per µs. DEDUCED, log entry 15: unsafe. -/
def lineRate : Nat := 100000

/-- Brings a window's tokens up to the present. DEDUCED, log entry 15: unsafe. -/
def Window.accrue (w : Window) (now : Nat) : Window :=
  let cap : Int := (16384 * 2 ^ w.exp * usTime : Nat)
  { w with tokens := min cap (w.tokens + ((w.rate * (now - w.stamp) : Nat) : Int)), stamp := now }

/-- A time at least `n` µs ago, or never. -/
def usPast (now n : Nat) : Option Nat → Bool
  | none => true
  | some t => n * usTime ≤ now - t

/-- An echo cuts the rate, at most once in GAP. DEDUCED, log entry 15: unsafe. -/
def echoCut (s : State) (w : Window) : Window :=
  let cut := max 8 (s.rd F.RTE_CCTL_CUT)
  let gap := max 1 (s.rd F.RTE_CCTL_GAP)
  let floor' := max 1 (s.rd F.RTE_CCTL_FLOOR)
  let w := w.accrue s.clock
  let w := if usPast s.clock gap w.lastCut then
      let least := lineRate * floor' * 2 ^ (w.exp + 4) / 256
      { w with exp := w.exp + 4, rate := max least (w.rate * cut), tokens := w.tokens * 16, lastCut := some s.clock }
    else w
  { w with lastEcho := some s.clock }

/-- A rise, when no echo and no rise came for INC. DEDUCED, log entry 15: unsafe. -/
def rateRise (s : State) (w : Window) : Window :=
  let inc := max 1 (s.rd F.RTE_CCTL_INC)
  if usPast s.clock inc w.lastEcho && usPast s.clock inc w.lastInc then
    let w := w.accrue s.clock
    let step := lineRate * s.rd F.RTE_CCTL_AI * 2 ^ w.exp / 256
    { w with rate := min (lineRate * 2 ^ w.exp) (w.rate + step), lastInc := some s.clock }
  else w

/-- The tick of 1 µs: every window's rate may rise. DESIGN CHOICE, log entry 8: safe. -/
def rateTick (s : State) : State :=
  let slots := s.ni.slots.map fun w => if w.2.pair.isSome then (w.1, rateRise s w.2) else w
  let ovf := s.ni.ovf.map fun w => (w.1, rateRise s w.2)
  promoteAll { s with ni := { s.ni with slots := slots, ovf := ovf } }

def execRateTick (s : State) : Out := onFabric rateTick s

/-! ## The next packet of a source -/

/-- A packet that could be sent next, and what its sending means for its owner. -/
structure Cand where
  pkt : Packet
  kennel : Nat                      -- 4,096 for the module's own packets
  owner : Owner
  port : Option Nat := none
  sent : State → State

/-- A whistle's address (R218). -/
def whistleAddr (w : Nat) : Nat := 0x400100000000 + 8 * w

/-- A packet of a command, with FEN on the first of one that carries the fence flag (R175). -/
def cmdCand (s : State) (c : Cmd) (opc rank addr : Nat) (payload : List Byte) (twin : Bool) (off : Nat)
    (upd : Cmd → Cmd) : Cand :=
  let (_, dst) := rankEid s c.k rank
  let p := requestHead s c.k opc 0 dst addr (payload.length / 16) payload
  { pkt := { p with fen := c.fen, twn := twin }, kennel := c.k, owner := .cmd c.k c.q c.seq off,
    sent := fun s => moveOn c.k c.q c.seq (onCmd c (fun m => upd { m with fen := false }) s) }

/-- RLEN in a READ's payload (R92). -/
def readPayload (n : Nat) : List Byte := leBytes 16 (n / 16)

/-- The next packet of a COPY with a remote end: a WRITE of data at hand, or the next READ.
DEDUCED, log entry 19: safe. -/
def copyNext (s : State) (c : Cmd) : Option Cand :=
  let d := c.desc
  let fl := field d 36 1
  let len := field d 40 8
  let sa := field d 16 6
  let da := field d 24 6
  match c.buf, bit fl 0, bit fl 1 with
  | (off, data) :: _, _, false =>
    some (cmdCand s c 0x01 (field d 34 2) (da + off) data (bit fl 2) off fun m =>
      { m with wr := m.wr + data.length, outst := m.outst + 1, pkts := m.pkts + 1, buf := Tbl.erase m.buf off })
  | _, false, _ =>
    if c.rd < len then
      let n := min 4096 (len - c.rd)
      some (cmdCand s c 0x02 (field d 32 2) (sa + c.rd) (readPayload n) false c.rd fun m =>
        { m with rd := m.rd + n, outst := m.outst + 1, pkts := m.pkts + 1 })
    else none
  | _, _, _ => none

/-- DEDUCED, log entry 19: safe. -/
def fillNext (s : State) (c : Cmd) : Option Cand :=
  let d := c.desc
  let fl := field d 26 1
  let len := field d 40 8
  if bit fl 0 || len ≤ c.wr then none
  else
    let n := min 4096 (len - c.wr)
    some (cmdCand s c 0x01 (field d 24 2) (field d 16 6 + c.wr) (patternBytes ((d.drop 32).take 8) n) (bit fl 2) c.wr
      fun m => { m with wr := m.wr + n, outst := m.outst + 1, pkts := m.pkts + 1 })

/-- The request of a remote atomic (R92, R211). -/
def atomicPayload (aop : Nat) (opd cmp : List Byte) : List Byte :=
  match aop with
  | 1 => opd.take 8 ++ List.replicate 8 0
  | 3 => cmp.take 8 ++ opd.take 8
  | _ => opd.take 4 ++ List.replicate 12 0

def atomicNext (s : State) (c : Cmd) : Option Cand :=
  let d := c.desc
  if bit (field d 26 1) 0 || c.rd != 0 then none
  else
    let aop := field d 27 1
    some (cmdCand s c (3 + aop) (field d 24 2) (field d 16 6) (atomicPayload aop (d.drop 32) (d.drop 40)) false 0
      fun m => { m with rd := 1, outst := m.outst + 1 })

def signalNext (s : State) (c : Cmd) : Option Cand :=
  let d := c.desc
  if !bit (field d 20 1) 0 || c.rd != 0 then none
  else
    some (cmdCand s c 0x04 (field d 16 2) (whistleAddr (field d 18 2 % 4096)) ((d.drop 24).take 8 ++ List.replicate 8 0)
      false 0 fun m => { m with rd := 1, outst := m.outst + 1 })

/-- The next packet of a command. -/
def cmdNext (s : State) (c : Cmd) : Option Cand :=
  if c.status ≠ 0 ∨ c.cancelled ∨ c.done then none
  else match c.opc with
    | 0x02 => signalNext s c
    | 0x03 => copyNext s c
    | 0x04 => fillNext s c
    | 0x05 => atomicNext s c
    | _ => none

/-- The opcode, address, payload and length of a transfer's next packet, and how far it advances. -/
def moveRequest (x : Core) (m : Move) : Option (Nat × Nat × List Byte × Bool × Nat) :=
  match m.op with
  | .load va _ n (some _) =>
    let len := min 4096 (64 * n - m.sent)
    some (0x02, va + m.sent, readPayload len, false, len)
  | .store va line n (some _) twin =>
    let len := min 4096 (64 * n - m.sent)
    some (0x01, va + m.sent, (upto (len / 64)).flatMap fun i => x.line (line + m.sent / 64 + i), twin, len)
  | .atom va aop opd cmp (some _) _ =>
    some (3 + aop, va, atomicPayload aop (leBytes 8 opd.toNat) (leBytes 8 cmp.toNat), false, 1)
  | .whs w v (some _) => some (0x04, whistleAddr w, leBytes 8 v.toNat ++ List.replicate 8 0, false, 1)
  | _ => none

/-- The next packet of a core's remote transfer; transfers start in issue order, and a core has at most 8,192 requests
without an answer (R258, R359). -/
def moveNext (s : State) (c id : Nat) : Option Cand :=
  let x := s.core c
  match findMove s c id, coreProg s c with
  | some m, some p =>
    let before := x.moves.takeWhile fun y => y.id != id
    if m.op.total ≤ m.sent || 8192 ≤ x.requests || !(m.started || before.all fun y => y.started || (y.op.post?).isSome) then
      none
    else match moveRequest x m, m.op.rank with
      | some (opc, addr, d, twin, n), some r =>
        let (_, dst) := rankEid s p.k r
        some { pkt := { requestHead s p.k opc 0 dst addr (d.length / 16) d with twn := twin }, kennel := p.k,
               owner := .move c id m.sent,
               sent := fun s => startMoves c p.k
                 (modMove c id (fun m => { m with started := true, sent := m.sent + n, outst := m.outst + 1 }) s) }
      | _, _ => none
  | _, _ => none

/-- The kennel of a waiting packet. -/
def queuedKennel (s : State) (q : Queued) : Option Nat := if q.pkt.ktag = 0 then some 4096 else liveKennel s q.pkt.ktag

/-- A waiting packet's pair uses the overflow window of its kennel. -/
def spills (s : State) (q : Queued) : Bool := (queuedKennel s q).any fun k => s.ni.ovfPairs.contains (q.pkt.dst, k)

/-- Whether a waiting packet goes after one that was formed before it: they share a window (R175), or they are one
collective's and the earlier is a declaration (R277) or of the same block (R297). -/
def goesAfter (s : State) (r q : Queued) : Bool :=
  (r.pkt.ktag == q.pkt.ktag && (r.pkt.dst == q.pkt.dst || (spills s r && spills s q))) ||
  match r.owner, q.owner with
  | .coll i _ b, .coll j _ b' => i == j && (b == declBlk || b == b')
  | _, _ => false

/-- A packet that waits for a tray-mate port. -/
def Queued.toMate (q : Queued) : Bool :=
  (match q.owner with
    | .mirror _ => true
    | _ => false) || isFunction q.pkt resyncAddr

/-- The port that a waiting packet leaves on, when it is fixed: to the tray-mate, the lowest-numbered ACTIVE one as the
packet leaves (R249). -/
def portOf (s : State) (q : Queued) : Option Nat := if q.toMate then trayPort s else q.port

/-- A packet to the tray-mate that finds no ACTIVE port is not sent: a mirror write marks its page stale (R251), and a resync
complete ends its resynchronisation (R457). -/
def mateLost (q : Queued) (s : State) : State :=
  let s := { s with ni := { s.ni with queue := s.ni.queue.filter fun x => x.id != q.id } }
  match q.owner with
  | .mirror acc =>
    mirrorDone acc (match liveKennel s q.pkt.ktag with
      | some k => markStale k (q.pkt.addr.toNat / 2 ^ 21) s
      | none => s)
  | _ => moduleLost q.pkt s

/-- The waiting packet of a source, when it cannot be sent for want of a tray-mate port. -/
def stranded (s : State) (src : SendSrc) : Option Queued :=
  match src with
  | .queued id => s.ni.queue.find? fun q => q.id == id && q.toMate && (trayPort s).isNone
  | _ => none

/-- A packet that already waits in the interface, when none that it goes after waits before it. -/
def queuedNext (s : State) (id : Nat) : Option Cand :=
  match s.ni.queue.find? fun q => q.id == id with
  | none => none
  | some q =>
    if (s.ni.queue.takeWhile fun r => r.id != id).any fun r => goesAfter s r q then none else
    (queuedKennel s q).map fun k =>
      { pkt := q.pkt, kennel := k, owner := q.owner, port := portOf s q,
        sent := fun s => { s with ni := { s.ni with queue := s.ni.queue.filter fun x => x.id != id } } }

/-- DESIGN CHOICE, log entry 16: unsafe. -/
def nextOf (s : State) : SendSrc → Option Cand
  | .cmd k q seq => (findCmd s k q seq).bind (cmdNext s)
  | .move c id => moveNext s c id
  | .queued id => queuedNext s id

/-! ## Sending (R104, R106, R175, R179 to R182, R446) -/

/-- A recent twin-marked send forbids this PSN (R446). -/
def twinPaced (s : State) (w : Window) : Bool :=
  w.twins.any fun x => 4096 ≤ (w.psn - x.1).toNat && (w.psn - x.1).toNat ≤ 32767 && s.clock - x.2 < 100 * usTime

/-- A window may send a packet now. DESIGN CHOICE, log entry 16: unsafe. -/
def maySend (s : State) (wid : Wid) (p : Packet) : Bool :=
  let w := (s.win wid).accrue s.clock
  let out := s.outOf wid
  let bytes := out.foldl (fun n o => n + o.bytes) 0
  let room := match wid with
    | .slot _ => out.length < 256 && bytes + p.payload.length ≤ 2 ^ 20 && !(p.twn && twinPaced s w)
    | .ovf _ => out.isEmpty && !p.twn
  room && s.ni.outst.length < 65536 && 0 ≤ w.tokens && (!p.fen || out.isEmpty)

/-- The command behind a source: its own, a collective's or a program's LAUNCH or UPDATE. -/
def commandOf (s : State) : SendSrc → Option Cmd
  | .cmd k q seq => findCmd s k q seq
  | .move c _ => (coreProg s c).bind fun p => findCmd s p.k p.q p.seq
  | .queued id => (s.ni.queue.find? fun q => q.id == id).bind fun q =>
    match q.owner with
    | .coll i _ _ => (findColl s i).bind fun c => findCmd s c.k c.q c.seq
    | _ => none

/-- What might send a packet of a command next. -/
def sourcesOf (s : State) (c : Cmd) : List SendSrc :=
  .cmd c.k c.q c.seq ::
  ((s.ni.queue.filter fun q => (commandOf s (.queued q.id)) == some c).map fun q => .queued q.id) ++
  ((c.prog.bind (findProg s)).elim [] fun p => p.cores.flatMap fun n => (s.core n).moves.map fun m => .move n m.id)

/-- In an overflow window the packets go out in the order their commands issued them (R179): a command's next packet goes
when none of an earlier command waits for the window. -/
def ovfTurn (s : State) (src : SendSrc) (k : Nat) : Bool :=
  match commandOf s src with
  | none => true
  | some c => (s.cmds.takeWhile (· != c)).all fun m =>
      m.k != k || (sourcesOf s m).all fun r => (nextOf s r).all fun n => !s.ni.ovfPairs.contains (n.pkt.dst, k)

/-- The window accounts for a packet it sends. -/
def accountSend (wid : Wid) (p : Packet) (s : State) : State :=
  s.modWin wid fun w =>
    let w := w.accrue s.clock
    let old := w.twins.filter fun x => s.clock - x.2 < 100 * usTime
    { w with psn := w.psn + 1, tokens := w.tokens - ((p.size * 2 ^ w.exp * usTime : Nat) : Int),
             twins := if p.twn then (w.psn, s.clock) :: old else old }

/-- Sends a packet in its window: it becomes outstanding, and one that the module discards itself is withdrawn at once
(R536). -/
def sendIn (wid : Wid) (c : Cand) (s : State) : State :=
  let w := s.win wid
  let (win, spill) := match wid with
    | .slot i => (BitVec.ofNat 16 i, false)
    | .ovf _ => (0xFFFF, true)
  let p := { c.pkt with win := win, psn := w.psn }
  let o : Outst := { pkt := { p with payload := [] }, kennel := c.kennel, ovf := spill, owner := c.owner,
                     bytes := p.payload.length, sentAt := s.clock }
  let s := c.sent (accountSend wid p s)
  let s := if spill && c.kennel < 4096 then s.count F.RTE_WINOVF_CNT_COUNT c.kennel else s
  let s := { s with ni := { s.ni with outst := s.ni.outst ++ [o] } }
  let before := s.xbr.nextId
  match emitAny p c.port s with
  | (some _, s) => withdraw p Code.protection none s
  | (none, s) =>
    let n := s.xbr.nextId - before
    { s with ni := { s.ni with outst := ListOps.update (sameRequest p) (fun o => { o with copies := n }) s.ni.outst } }

/-- DESIGN CHOICE, log entry 16: unsafe. -/
def niSend (src : SendSrc) (s : State) : State :=
  match stranded s src, nextOf s src with
  | some q, _ => mateLost q s
  | none, none => s
  | none, some c =>
    let (wid, s) := needWindow (c.pkt.dst, c.kennel) s
    let turn := match wid with
      | .ovf k => ovfTurn s src k
      | .slot _ => true
    if !(turn && maySend s wid c.pkt) then s
    else advanceAll (sendIn wid c s)

def execNiPacketSend (src : SendSrc) (s : State) : Out := onFabric (niSend src) s

/-! ## Freeing and faulting windows (R108, R177, R178, R299) -/

/-- A slot with nothing outstanding for 10 µs is freed. -/
def windowSlotIdle (i : Nat) (s : State) : State :=
  if (s.window i).pair.isNone || !(s.outOf (.slot i)).isEmpty then s else promoteAll (s.modWin (.slot i) Window.freed)

def execWindowSlotIdle (i : Nat) (s : State) : Out := fabricUnit i 65536 (windowSlotIdle i) s

/-- What a faulted window means for the owner of a packet in it. -/
def faultLost (o : Outst) (s : State) : State :=
  match o.owner with
  | .coll id _ _ => endColl id Code.windowFault s
  | _ => ownerLost o Code.windowFault none s

/-- The pairs a window serves. -/
def State.pairsOf (s : State) : Wid → List (W16 × Nat)
  | .slot i => match (s.window i).pair with
    | some p => [p]
    | none => []
  | .ovf k => s.ni.ovfPairs.filter fun p => p.2 == k

/-- Commands whose fenced first packet waits for the window (R177). -/
def fencedWaiters (s : State) (ps : List (W16 × Nat)) : List Cmd :=
  s.cmds.filter fun c => c.fen && (cmdNext s c).any fun n => ps.contains (n.pkt.dst, c.k)

/-- Collectives whose fenced first packet waits for the window. -/
def fencedColls (s : State) (ps : List (W16 × Nat)) : List Nat :=
  s.ni.queue.filterMap fun q =>
    match q.owner with
    | .coll id _ _ =>
      if q.pkt.fen && ps.any fun p => p.1 == q.pkt.dst && liveKennel s q.pkt.ktag == some p.2 then some id else none
    | _ => none

/-- The kennel of a window, for its count of faults (R506). -/
def windowKennel (s : State) : Wid → Option Nat
  | .slot i => ((s.window i).pair.map (·.2)).filter (· < 4096)
  | .ovf k => some k

/-- A window's oldest packet stayed unanswered for 1 ms. -/
def faultWindow (wid : Wid) (s : State) : State :=
  let out := s.outOf wid
  if out.isEmpty then s
  else
    let ps := s.pairsOf wid
    let fenced := fencedWaiters s ps
    let colls := fencedColls s ps
    let s := (windowKennel s wid).elim s fun k => s.count F.CTR_KNL_COUNT (16 * k + 13)
    let s := { s with ni := { s.ni with outst := s.ni.outst.filter fun o => !out.contains o } }
    let s := match wid with
      | .slot _ => s.modWin wid Window.freed
      | .ovf k => { s with ni := { s.ni with ovfPairs := s.ni.ovfPairs.filter fun p => p.2 != k } }
    let s := out.foldl (fun s o => faultLost o s) s
    let s := colls.foldl (fun s id => endColl id Code.windowFault s) s
    advanceAll (fenced.foldl (fun s c => failCmd c.k c.q c.seq Code.windowFault s) (promoteAll s))

/-- Window `w`: a slot below 65,536, or 65,536 plus the kennel of an overflow window. -/
def widOf (w : Nat) : Wid := if w < 65536 then .slot w else .ovf (w - 65536)

def execWindowFault (w : Nat) (s : State) : Out := fabricUnit w 69633 (faultWindow (widOf w)) s

/-! ## Answers (R93, R180, R182, R444, R536) -/

/-- The PSNs that an answer covers. -/
def answerPsns (p : Packet) : List W16 :=
  if p.opc = 0x08 then
    let m := field p.payload 0 8
    ((upto 64).filter (bit m)).map fun i => p.psn + BitVec.ofNat 16 i
  else [p.psn]

/-- The bytes that a READ asked for, while its owner still waits for them. -/
def askedBytes (s : State) (o : Outst) : Option Nat :=
  match o.owner with
  | .cmd k q seq off => (findCmd s k q seq).map fun c => min 4096 (field c.desc 40 8 - off)
  | .move c id off => (findMove s c id).map fun m => min 4096 (m.op.total - off)
  | _ => none

/-- Whether an answer's opcode and length suit the packet it answers (R92). -/
def suits (s : State) (a : Packet) (o : Outst) : Bool :=
  let q := o.pkt.opc.toNat
  match a.opc.toNat with
  | 0x08 => q == 0x01 || 0x10 ≤ q
  | 0x09 => q == 0x02 && (askedBytes s o).all (a.payload.length == ·)
  | 0x0A => 0x03 ≤ q && q ≤ 0x06
  | _ => true

/-- The outstanding packets that an answer answers. -/
def answered (s : State) (a : Packet) : List Outst :=
  let ps := answerPsns a
  s.ni.outst.filter fun o => o.pkt.dst == a.src && o.pkt.ktag == a.ktag && o.pkt.win == a.win && ps.contains o.pkt.psn &&
    suits s a o

/-- Data of a COPY's READ arrives: it goes on to the local pool, or waits to be written on. -/
def copyData (c : Cmd) (off : Nat) (d : List Byte) (s : State) : State :=
  moveOn c.k c.q c.seq (onCmd c (fun c =>
    ({ c with outst := c.outst - 1, buf := if c.status ≠ 0 ∧ !c.cancelled then c.buf else Tbl.set c.buf off d } : Cmd)) s)

/-- An answer reaches a command. -/
def answerCmd (a : Packet) (o : Outst) (k q : Nat) (seq : W32) (off : Nat) (s : State) : State :=
  match findCmd s k q seq with
  | none => s
  | some c =>
    match a.opc.toNat with
    | 0x09 => copyData c off a.payload s
    | 0x0A => onCmd c (fun c => ({ c with outst := c.outst - 1, cnt0 := if c.opc = 0x05 then field a.payload 0 8 else c.cnt0 } :
        Cmd).settle) s
    | _ => onCmd c (fun c => ({ c with outst := c.outst - 1, bytes := c.bytes + o.bytes } : Cmd).settle) s

/-- An answer reaches a core's transfer. -/
def answerMove (a : Packet) (c id off : Nat) (s : State) : State :=
  let s := match a.opc.toNat with
    | 0x09 => landMove c id off a.payload s
    | 0x0A => match (findMove s c id).map (·.op) with
      | some (MoveOp.atom _ _ _ _ _ _) => landMove c id 0 (a.payload.take 8) s
      | _ => modMove c id (fun m => { m with outst := m.outst - 1 }) s
    | _ => modMove c id (fun m => { m with outst := m.outst - 1 }) s
  match coreProg s c with
  | some p => startMoves c p.k s
  | none => s

/-- The answer to a resync complete ends its resynchronisation with DONE (R457). -/
def moduleAnswered (p : Packet) (s : State) : State :=
  if isFunction p resyncAddr && s.tray.resync.isSome then
    { s with tray := { s.tray with resync := none } }.wr F.TWN_RSYNC_DONE 1
  else s

/-- What a good answer means for the owner of a packet. -/
def deliverAnswer (a : Packet) (o : Outst) (s : State) : State :=
  match o.owner with
  | .cmd k q seq off => answerCmd a o k q seq off s
  | .move c id off => answerMove a c id off s
  | .coll id _ blk =>
    advance id (modColl id (fun c => { c with outst := Tbl.put c.outst blk (Tbl.get c.outst blk 0 - 1) 0 }) s)
  | .mirror acc => advanceFor s acc (mirrorDone acc s)
  | .module => moduleAnswered o.pkt s
  | .answer => s

/-- An answer arrives: it is matched to its window, an echo cuts the rate, and each packet it covers goes to its
owner. -/
def takeAnswer (a : Arrival) (s : State) : State :=
  let p := a.pkt
  let s := takeArrival a s
  let hits := answered s p
  let s := match hits.head? with
    | some o => if p.cmk = 2 then s.modWin o.wid (echoCut s) else s
    | none => s
  let s := promoteAll { s with ni := { s.ni with outst := s.ni.outst.filter fun o => !hits.contains o } }
  hits.foldl (fun s o =>
    if p.opc = 0x0B then
      let s := ownerLost o (errStatus (field p.payload 0 1)) none s
      match o.owner with
      | .coll id _ _ => advance id s
      | _ => s
    else deliverAnswer p o s) s

/-- A response of one opcode. -/
def answerRow (opc : BitVec 6) (a : Arrival) (s : State) : Out := onFabric (cond' (a.pkt.opc == opc) (takeAnswer a)) s

def execAckReceived (a : Arrival) (s : State) : Out := answerRow 0x08 a s
def execReadRspReceived (a : Arrival) (s : State) : Out := answerRow 0x09 a s
def execAtomicRspReceived (a : Arrival) (s : State) : Out := answerRow 0x0A a s
def execErrRspReceived (a : Arrival) (s : State) : Out := answerRow 0x0B a s

end Sys2Proof.Machine
end

