-- ==== Sys2Proof/Machine/Retriever.lean ====
section
/-! DEFINITION. The Retriever at work (spec/08): collective packets that arrive, admission to flight, the results of
blocks, late members and the lane self-test. -/

namespace Sys2Proof.Machine

/-! ## Arriving packets (R268, R291) -/

/-- A packet for a chunk that a CANCEL has cut off (R215). -/
def Coll.cutOff (c : Coll) (p : Packet) (result : Bool) : Bool :=
  match c.stopAt, c.place p result with
  | some m, some (blk, _) => (collAddrOf p).off != declOff && m ≤ blk / c.kBlocks
  | _, _ => false

/-- Two packets of the Retriever come from one input, for one of its positions, on one channel (R125, R266). -/
def sameTriple (a b : Arrival) : Bool :=
  let toRtv := fun (x : Arrival) => x.pkt.opc == 0x10 || x.pkt.opc == 0x11
  toRtv a && toRtv b && a.port == b.port && a.pkt.vc == b.pkt.vc &&
    (collAddrOf a.pkt).group % 64 == (collAddrOf b.pkt).group % 64

/-- An earlier packet of the same input, position and channel still waits before the Retriever. -/
def behind (a : Arrival) (s : State) : Bool := (s.ni.inbox.takeWhile (· != a)).any (sameTriple a)

/-- A held packet stays the first of its input, position and channel, and so holds back those that follow (R268). -/
def holdFirst (a : Arrival) (s : State) : State := { s with ni := { s.ni with inbox := a :: s.ni.inbox } }

/-- An early packet lands in staging where it has room, and is held otherwise (R268).
DEDUCED, log entry 34: unsafe. -/
def earlyPacket (a : Arrival) (k : Nat) (s : State) : State :=
  if stagingRoom s k (16 * a.pkt.len.toNat) then
    sendAck a.pkt { s with rtv := { s.rtv with early := s.rtv.early ++ [a] } }
  else holdFirst a s

/-- A stale packet is answered and discarded (R268). -/
def stalePacket (p : Packet) (s : State) : State := sendAck p (s.count F.RTV_STALE_CNT_COUNT)

/-- A packet with the tag of the collective in flight. DESIGN CHOICE, log entry 33: unsafe. -/
def currentPacket (c : Coll) (a : Arrival) (result : Bool) (s : State) : State :=
  let p := a.pkt
  match c.expects p result with
  | none => sendErr p Code.protection s
  | some m =>
    if (collAddrOf p).off ≠ declOff ∧ (c.place p result).isNone then sendErr p Code.badDescriptor s
    else if c.cutOff p result then sendAck p s
    else if c.takes p result then advance c.id (sendAck p (landPacket c.id p m result s))
    else earlyPacket a c.k s

/-- The classification of R268. DEDUCED, log entry 85: unsafe. -/
def collArrive (a : Arrival) (result : Bool) (k : Nat) (p : Packet) (s : State) : State :=
  let ad := collAddrOf p
  let c := flyingOn s k ad.group
  let t := match c with
    | some c => c.cseq.getD 0
    | none => nextTag s k ad.group
  let d := (ad.cseq + 16 - t) % 16
  if 8 ≤ d then stalePacket p s
  else match c, d with
    | some c, 0 => currentPacket c a result s
    | _, _ => earlyPacket a k s

/-- A collective packet whose turn has come; one behind a held one of its input, position and channel waits. -/
def collPacket (a : Arrival) (result : Bool) (s : State) : State :=
  if behind a s then holdArrival a s else forKennel a (collArrive a result) s

def execCollData (a : Arrival) (s : State) : Out := onFabric (cond' (a.pkt.opc == 0x10) (collPacket a false)) s

def execCollResult (a : Arrival) (s : State) : Out := onFabric (cond' (a.pkt.opc == 0x11) (collPacket a true)) s

/-! ## Admission to flight (R267, R289, R290) -/

/-- A collective ends with RESIDUE_FAIL, which is counted (R286, R287, R305). -/
def residueEnd (id : Nat) (s : State) : State := endColl id Code.residueFail (s.count F.RTV_RESFAIL_CNT_COUNT)

/-- Why a collective is refused at its admission, if it is. -/
def admitRefusal (s : State) (c : Coll) (q : Nat) : Option Nat :=
  if s.dieOut && s.part != .s && c.usesPool then some Code.checkFail
  else if stagingBytes < q || quotaBytes s c.k < q then some Code.resourceFull
  else if !c.isBcast && s.rd F.RTV_LANES_UP == 0 then some Code.residueFail
  else if 16384 ≤ s.rtv.next.length && (Tbl.find s.rtv.next (c.k * 8192 + c.group)).isNone then some Code.resourceFull
  else none

/-- A collective waits for a slot, its group or staging. -/
def admitWaits (s : State) (c : Coll) (q : Nat) : Bool :=
  1024 ≤ (s.rtv.colls.filter Coll.flying).length || (flyingOn s c.k c.group).isSome || !stagingRoom s c.k q ||
  scentHolds s c.k

/-- A collective enters flight with its tag, its reservation and the settings of RTV_CTL. -/
def enterFlight (c : Coll) (repro : Bool) (q : Nat) (s : State) : State :=
  let t := nextTag s c.k c.group
  let tmo := if c.tmo = 0 then max 1 (s.rd F.RTV_CTL_TMODEF) else c.tmo
  let w := s.rd F.RTV_CTL_WIN + 1
  let s := { s with rtv := { s.rtv with next := Tbl.set s.rtv.next (c.k * 8192 + c.group) ((t + 1) % 16 + 1) } }
  let s := modColl c.id (fun c =>
    { c with admitted := true, cseq := some t, reserve := q, w := w, tmo := tmo, repro := repro }) s
  let s := modQueue c.k c.q (fun y => { y with collWait := false }) s
  let s := modCmd c.k c.q c.seq (fun x => { x with repro := repro }) s
  advance c.id (scentLog c.k 4 0 c.group c.seq t [] none s)

/-- The collective with its group's descriptor as it stands at admission, none when the group is not one it can run
in (R402). DEDUCED, log entry 85: unsafe. -/
def regroup (s : State) (c : Coll) : Option Coll :=
  match findCmd s c.k c.q c.seq with
  | none => some c
  | some x =>
    let w := groupWords s c.group
    if !groupValid w || (walkStages s (stageWords w)).isNone then none
    else
      let n := collOf s c.k c.q c.seq x.desc c.repro
      some { c with self_ := n.self_, stages := n.stages, nstg := n.nstg, ring := n.ring, topLead := n.topLead,
                    inTop := n.inTop }

def collAdmit (k q : Nat) (seq : W32) (s : State) : State :=
  match ((findCmd s k q seq).bind (·.coll)).bind (findColl s) with
  | none => s
  | some c =>
    if c.admitted || c.isOver then s
    else match regroup s c with
    | none => endColl c.id Code.badDescriptor s
    | some c =>
      let s := modColl c.id (fun _ => c) s
      let repro := c.repro || s.rdB F.DET_CTL_NOFAST
      let n := ({ c with repro := repro } : Coll).need (s.rd F.RTV_CTL_WIN + 1)
      match admitRefusal s c n with
      | some code => if code = Code.residueFail then residueEnd c.id s else endColl c.id code s
      | none => if admitWaits s c n then s else enterFlight c repro n s

def execCollAdmit (k q : Nat) (seq : W32) (s : State) : Out := fabricUnit k 4096 (collAdmit k q seq) s

/-! ## The result of a block (R271, R272, R276, R280 to R282, R286, R292) -/

/-- The entries of a stage-0 member's block: those it has are decoded, the others hold the identity; in MXFP8 the
scales are kept as received, so an entry of a block with scale 0xFF stays NaN (R276, R278). -/
def Coll.memberValues (c : Coll) (b : List Byte) (have' n : Nat) : List Nat :=
  (upto n).map fun i =>
    if i < have' then accIn c.inF b i
    else if isMx c.inF && 528 * (i / 512) < b.length && (e8m0 (field b (528 * (i / 512) + i % 512 / 32) 1)).isNone then
      f32.qnan
    else accFill c.inF c.rop

/-- The entries of a partial in the accumulation format. -/
def Coll.partialValues (c : Coll) (b : List Byte) (have' n : Nat) : List Nat :=
  (upto n).map fun i => if i < have' then field b (accBytes c.inF * i) (accBytes c.inF) else accFill c.inF c.rop

/-- The values of stage-0 member `m` of a rack-level stage. -/
def Coll.rackInput (c : Coll) (blk n m : Nat) : List Nat :=
  c.memberValues (c.input 0 m blk) (entriesIn c.inF ((c.entriesOf 0 m).getD 0) blk) n

/-- The module's own stage-0 values at SADDR. -/
def Coll.poolInput (c : Coll) (blk n : Nat) : List Nat :=
  c.memberValues (Tbl.get c.pool blk []) (entriesIn c.inF c.cap blk) n

/-- The order in which fast mode combines the members of a block: as they arrived, members that send no data last, and
the module's own values at a place that the spec leaves open (R282). -/
def Coll.fastOrder (c : Coll) (blk : Nat) (s : State) : List Nat × State :=
  let came := Tbl.get c.arrived blk []
  let l := came ++ (upto c.count0).filter fun m => !came.contains m
  if c.self_ then
    let (w, s) := s.free
    let i := w.toNat % (l.length + 1)
    (l.take i ++ [c.count0] ++ l.drop i, s)
  else (l, s)

/-- The operation on two blocks of values. -/
def Coll.op (c : Coll) (a b : List Nat) : List Nat := List.zipWith (accOp c.inF c.rop) a b

/-- The result of a rack-level stage 0. -/
def rackResult (c : Coll) (blk n : Nat) (s : State) : List Nat × State :=
  let value := fun (m : Nat) => if m = c.count0 then c.poolInput blk n else c.rackInput blk n m
  if c.repro then ((treeSum c.op 16 ((upto c.m0).map value)).getD [], s)
  else
    let (order, s) := c.fastOrder blk s
    ((foldSum c.op (order.map value)).getD [], s)

/-- The result of a module-level stage: the predecessor's partial and this module's own values (R281). -/
def Coll.moduleResult (c : Coll) (st blk n : Nat) (me : Nat) : List Nat :=
  let own := if st = 0 then c.poolInput blk n
    else
      let v := Tbl.get c.own (sbKey st blk) []
      v ++ List.replicate (n - v.length) (accFill c.inF c.rop)
  match me with
  | 0 => own
  | i + 1 => c.op (c.partialValues (c.input st i blk) (entriesIn c.inF ((c.entriesOf st i).getD 0) blk) n) own

/-- The inputs of a block at a stage are there. -/
def Coll.inputsReady (c : Coll) (st blk : Nat) : Bool :=
  match c.stages[st]? with
  | none => false
  | some t =>
    (st != 0 || c.ownReady blk) &&
    if t.level = 0 then (upto t.members.length).all fun m => c.inputDone 0 m blk
    else
      (st == 0 || (Tbl.find c.own (sbKey st blk)).isSome) &&
      (match t.me with
        | some (i + 1) => c.inputDone st i blk
        | some 0 => true
        | none => false)

/-- A stage may take up a block: the chunk, or without a ring every chunk, is complete at the stage below (R292). -/
def Coll.stageOpen (c : Coll) (st blk : Nat) : Bool :=
  let ch := blk / c.kBlocks
  c.inWindow st ch &&
  (match st with
    | 0 => true
    | b + 1 =>
      if c.ring then c.chunkPassed b ch
      else (upto (ceilDiv (ceilDiv c.cap (blockElems c.inF)) c.kBlocks)).all (c.chunkPassed b))

/-- Places the bytes of a result block. -/
def setResult (id blk : Nat) (d : List Byte) (s : State) : State :=
  modColl id (fun c => { c with down := (upto (ceilDiv d.length 4096)).foldl (fun t p =>
    Tbl.set t (4 * blk + p) ((d.drop (4096 * p)).take 4096)) c.down }) s

/-- A stage's result of a block has gone on: to the successor, to the next stage's result, or to the members. -/
def Coll.goneOn (c : Coll) (st b : Nat) : Bool :=
  match c.stages[st]? with
  | none => true
  | some t =>
    if c.isBcast then !c.topLead || c.spread.contains b
    else if !t.lead then true
    else if st + 1 < c.stages.length then c.passed.contains (sbKey (st + 1) b)
    else c.spread.contains b

/-- The results of a chunk at a stage that have not gone on are discarded; their inputs stay staged (R286, R289).
DEDUCED, log entry 85: unsafe. -/
def Coll.discard (c : Coll) (st ch : Nat) : Coll :=
  if c.phase ≠ 0 then c
  else
    let l := (c.chunkBlocks (ceilDiv c.cap (blockElems c.inF)) ch).filter fun b =>
      c.passed.contains (sbKey st b) && !c.goneOn st b
    { c with passed := c.passed.filter fun x => !(l.any fun b => x == sbKey st b),
             own := c.own.filter fun x => !(l.any fun b => x.1 == sbKey (st + 1) b),
             down := c.down.filter fun x => !(l.contains (x.1 / 4)),
             sats := c.sats.filter fun x => !(l.contains x.1) }

/-- The first mismatch of a chunk recomputes it, the second ends the collective (R286). -/
def recompute (c : Coll) (st ch : Nat) (s : State) : State :=
  if c.rechecked.contains ch then residueEnd c.id (raise 724 s)
  else
    (modColl c.id (fun c => { c.discard st ch with rechecked := ch :: c.rechecked, rechk := c.rechk + 1 }) s).count
      F.RTV_RECHK_CNT_COUNT

/-- A stage's result of a block goes on: to the successor, to the next stage, or requantized into the result.  The values
are those of the block's whole capacity, the first `have'` of which are entries of the data (R276, R277). -/
def passOn (c : Coll) (t : Stage) (st blk have' : Nat) (v : List Nat) (s : State) : State :=
  let s := modColl c.id (fun c => { c with passed := sbKey st blk :: c.passed }) s
  if !t.lead then
    let i := (t.me.getD 0) + 1
    let s := sendBlock c 0x10 st (t.members.getD i 0) (blk * c.accBlk) (upMember st) blk
      ((v.take have').flatMap (leBytes (accBytes c.inF))) s
    modColl c.id (fun c => { c with upSent := blk :: c.upSent }) s
  else if st + 1 < c.stages.length then
    modColl c.id (fun c => { c with own := Tbl.set c.own (sbKey (st + 1) blk) v }) s
  else
    let (d, n) := outBlock c (blk * blockElems c.inF) (if isMx c.outF then v else v.take have')
    setResult c.id blk (d.take (c.outLen have')) (modColl c.id (fun c => { c with sats := Tbl.put c.sats blk n 0 }) s)

/-- The adders finish a block of a reduction at a stage. -/
def reduceBlock (c : Coll) (st blk : Nat) (chk : BlkCheck) (s : State) : State :=
  match c.stages[st]?, c.entriesUp st with
  | some t, some total =>
    let have' := entriesIn c.inF total blk
    let n := entriesIn c.inF c.cap blk
    if have' = 0 || c.passed.contains (sbKey st blk) || !c.inputsReady st blk || !c.stageOpen st blk ||
       s.rdB F.RTV_LANES_TESTING || s.rd F.RTV_LANES_UP == 0 then s
    else match chk with
      | .recompute => recompute c st (blk / c.kBlocks) s
      | .checkFail => checkFailed c.id s
      | .pass =>
        let (v, s) := if t.level = 0 then rackResult c blk n s else (c.moduleResult st blk n (t.me.getD 0), s)
        passOn c t st blk have' (v.map (canonAcc c.inF)) s
  | _, _ => s

/-- The bytes of a BCAST block that this module brings in, when they are there: from the root among its stage-0
members, or from SADDR. -/
def Coll.bcastSource (c : Coll) (blk n : Nat) : Option (List Byte) :=
  if (c.ownRange blk).isSome then Tbl.find c.pool blk
  else if c.inputDone 0 c.root blk then some ((c.input 0 c.root blk).take (4 * n))
  else none

/-- A block of a broadcast at its source: the top lead spreads it, a root elsewhere in a module-level stage 0 sends it
to the lead. -/
def bcastBlock (c : Coll) (blk : Nat) (chk : BlkCheck) (s : State) : State :=
  match c.entries with
  | none => s
  | some total =>
    let n := entriesIn 0 total blk
    if n = 0 || !(c.topLead || c.farRoot) || c.passed.contains (sbKey 0 blk) || !c.inWindow 0 (blk / c.kBlocks) then s
    else match chk with
      | .recompute => recompute c 0 (blk / c.kBlocks) s
      | .checkFail => checkFailed c.id s
      | .pass =>
        match c.bcastSource blk n with
        | none => s
        | some d =>
          let s := modColl c.id (fun c => { c with passed := sbKey 0 blk :: c.passed }) s
          if c.topLead then setResult c.id blk d s
          else
            let lead := ((c.stages.head?).map fun t => t.members.getLastD 0).getD 0
            let s := sendBlock c 0x10 0 lead (4096 * blk) (upMember 0) blk d s
            modColl c.id (fun c => { c with upSent := blk :: c.upSent }) s

/-- A block of the delivery phase of UPDATE: LENGTH bytes from SADDR go to every stage-0 member (R271, R274).
DEDUCED, log entry 85: unsafe. -/
def updateBlock (c : Coll) (blk : Nat) (chk : BlkCheck) (s : State) : State :=
  let size := blockBytes c.outF
  if c.len ≤ blk * size || c.spread.contains blk || c.done + c.w ≤ blk / c.kBlocks then s
  else match chk with
    | .recompute => recompute c 0 (blk / c.kBlocks) s
    | .checkFail => checkFailed c.id s
    | .pass =>
      match Tbl.find c.pool blk with
      | none => s
      | some d => deliverTo c.id blk d (blk * size / 16) (modColl c.id (fun c => { c with spread := blk :: c.spread }) s)

/-- A block that this module holds, formed here or come down to it, and that is not done: the checks of the result register,
of the outgoing packets and of the pool's write path still see it (R285). -/
def Coll.holds (c : Coll) (st blk : Nat) : Bool :=
  (c.passed.contains (sbKey st blk) || !(c.result blk).isEmpty) && !c.blockDone blk

/-- A second mismatch at the time at which T passed: the status is RESIDUE_FAIL (R296). -/
def lateMismatch (c : Coll) (blk : Nat) (chk : BlkCheck) (s : State) : State :=
  if c.isOver && c.status == Code.timeout && c.overAt == some s.time && chk == .recompute &&
     c.rechecked.contains (blk / c.kBlocks) then
    modCmd c.k c.q c.seq (fun m => { m with status := Code.residueFail })
      (modColl c.id (fun c => { c with status := Code.residueFail }) ((raise 724 s).count F.RTV_RESFAIL_CNT_COUNT))
  else s

/-- The outcome of the checks on a block: of the one that a stage forms, or of one held further on, whose recomputed bytes
are those that have gone on already (R285, R286). -/
def blockResult (id st blk : Nat) (chk : BlkCheck) (s : State) : State :=
  match findColl s id with
  | none => s
  | some c =>
    if !c.flying || c.phase == 1 || c.stopAt.any (· ≤ blk / c.kBlocks) then lateMismatch c blk chk s
    else
      advance id (if c.holds st blk && chk == .recompute then recompute c st (blk / c.kBlocks) s
        else if c.holds st blk && chk == .checkFail then checkFailed id s
        else if c.phase = 2 then updateBlock c blk chk s
        else if c.isBcast then bcastBlock c blk chk s
        else reduceBlock c st blk chk s)

def execBlockResult (id stage blk : Nat) (chk : BlkCheck) (s : State) : Out := onFabric (blockResult id stage blk chk) s

/-! ## Late members (R294) -/

/-- A block of the oldest incomplete chunk of a stage is missing from a member. -/
def Coll.missing (c : Coll) (st m : Nat) : Bool :=
  (c.chunkBlocks (ceilDiv c.cap (blockElems c.inF)) (c.oldest st)).any fun b => !c.inputDone st m b

/-- The stage-0 members that are late. -/
def Coll.lateMask (c : Coll) : Nat :=
  let late := fun (m : Nat) =>
    if c.isBcast then c.topLead && c.root == m && c.me0 != some m && c.missing 0 m
    else if c.mod0 then c.me0 == some (m + 1) && c.missing 0 m
    else c.missing 0 m
  (upto c.count0).foldl (fun n m => if late m then setBit n m else n) 0

/-- An input from a module-level stage is missing: a predecessor's partial, or the result. -/
def Coll.upMissing (c : Coll) : Bool :=
  let part := (c.stages.zipIdx).any fun x =>
    match x.1.level, x.1.me with
    | 0, _ => false
    | _, some (i + 1) => !c.isBcast && c.missing x.2 i
    | _, _ => false
  let awaits := c.phase == 0 && !c.topLead && (!c.isReduce || c.farRoot)
  let result := match c.outEntries with
    | none => true
    | some n => (upto (ceilDiv n (blockElems c.inF))).any fun b => (c.result b).length < c.resultLen n b
  part || (awaits && result)

/-- T passes; when the last missing block has come at the same time, the collective goes on (R294, R296).
DEDUCED, log entry 34: unsafe. -/
def collTimeout (id : Nat) (s : State) : State :=
  match findColl s id with
  | none => s
  | some c =>
    if !c.flying || (c.cameAt == some s.time && c.lateMask == 0 && !c.upMissing) then s
    else
      let s := modColl id (fun x => { x with late := c.lateMask, uplate := c.upMissing }) s
      endColl id Code.timeout (s.count F.RTV_TMO_CNT_COUNT)

def execCollTimeout (id : Nat) (s : State) : Out := onFabric (collTimeout id) s

/-! ## The lane self-test (R287) -/

/-- DESIGN CHOICE, log entry 80: unsafe. -/
def laneSelfTestEnd (failed : W16) (s : State) : State :=
  if !s.rdB F.RTV_LANES_TESTING then s
  else
    let up := clearBits (s.rd F.RTV_LANES_UP) failed.toNat
    let s := (s.wr F.RTV_LANES_UP up).wr F.RTV_LANES_TESTING 0
    if up = 0 then
      (s.rtv.colls.filter fun c => c.flying && !c.isBcast).foldl (fun s c => residueEnd c.id s) s
    else s

def execLaneSelfTestEnd (failed : W16) (s : State) : Out := onFabric (laneSelfTestEnd failed) s

end Sys2Proof.Machine
end

