-- ==== Sys2Proof/Machine/Dispatch.lean ====
section
/-! DEFINITION. The dispatch of commands to their meanings: one arm per command. -/

namespace Sys2Proof.Machine

def exec (i : Instr) (s : State) : Host.Outcome State Fault Refusal :=
  match i with
  | .portOff p => Sys2Proof.Machine.execPortOff p s
  | .portBringup p => Sys2Proof.Machine.execPortBringup p s
  | .portTest p => Sys2Proof.Machine.execPortTest p s
  | .maxrung p v => Sys2Proof.Machine.execMaxrung p v s
  | .retrain p => Sys2Proof.Machine.execRetrain p s
  | .ceilclr p => Sys2Proof.Machine.execCeilclr p s
  | .flapclr p => Sys2Proof.Machine.execFlapclr p s
  | .sleepreq p mask => Sys2Proof.Machine.execSleepreq p mask s
  | .prbsTxen l v => Sys2Proof.Machine.execPrbsTxen l v s
  | .prbsRxen l v => Sys2Proof.Machine.execPrbsRxen l v s
  | .receiverDetect p seen cart => Sys2Proof.Machine.execReceiverDetect p seen cart s
  | .trainingFrame l f => Sys2Proof.Machine.execTrainingFrame l f s
  | .bitlockAchieved p => Sys2Proof.Machine.execBitlockAchieved p s
  | .stateTimeout p => Sys2Proof.Machine.execStateTimeout p s
  | .nolinkHoldEnd p => Sys2Proof.Machine.execNolinkHoldEnd p s
  | .stepEnd p => Sys2Proof.Machine.execStepEnd p s
  | .marker l m => Sys2Proof.Machine.execMarker l m s
  | .markerMissed l => Sys2Proof.Machine.execMarkerMissed l s
  | .markerSend p => Sys2Proof.Machine.execMarkerSend p s
  | .cap p b => Sys2Proof.Machine.execCap p b s
  | .capSend p => Sys2Proof.Machine.execCapSend p s
  | .fillerSend p => Sys2Proof.Machine.execFillerSend p s
  | .filler p => Sys2Proof.Machine.execFiller p s
  | .idle p => Sys2Proof.Machine.execIdle p s
  | .reservedControlBlock p typ => Sys2Proof.Machine.execReservedControlBlock p typ s
  | .codeword l rx => Sys2Proof.Machine.execCodeword l rx s
  | .laneLoss l => Sys2Proof.Machine.execLaneLoss l s
  | .width p b => Sys2Proof.Machine.execWidth p b s
  | .switchIndex p tx => Sys2Proof.Machine.execSwitchIndex p tx s
  | .laneReady l => Sys2Proof.Machine.execLaneReady l s
  | .sleepEntryDone l => Sys2Proof.Machine.execSleepEntryDone l s
  | .sleepExitTimeout l => Sys2Proof.Machine.execSleepExitTimeout l s
  | .linkFrame p f => Sys2Proof.Machine.execLinkFrame p f s
  | .nakTimeout p => Sys2Proof.Machine.execNakTimeout p s
  | .replayTimeout p => Sys2Proof.Machine.execReplayTimeout p s
  | .linkSweepStart => Sys2Proof.Machine.execLinkSweepStart s
  | .linkSweepAbort => Sys2Proof.Machine.execLinkSweepAbort s
  | .sweepStep => Sys2Proof.Machine.execSweepStep s
  | .packetIngress p v => Sys2Proof.Machine.execPacketIngress p v s
  | .admissionDecide id => Sys2Proof.Machine.execAdmissionDecide id s
  | .cellSlot plane => Sys2Proof.Machine.execCellSlot plane s
  | .cellArrival id n => Sys2Proof.Machine.execCellArrival id n s
  | .resequenceGapTimeout id => Sys2Proof.Machine.execResequenceGapTimeout id s
  | .outputServe p => Sys2Proof.Machine.execOutputServe p s
  | .lifetimeExpiry id => Sys2Proof.Machine.execLifetimeExpiry id s
  | .planeFault k => Sys2Proof.Machine.execPlaneFault k s
  | .planeDrainEnd k => Sys2Proof.Machine.execPlaneDrainEnd k s
  | .planeen mask => Sys2Proof.Machine.execPlaneen mask s
  | .rounds v => Sys2Proof.Machine.execRounds v s
  | .niPacketSend src => Sys2Proof.Machine.execNiPacketSend src s
  | .rateTick => Sys2Proof.Machine.execRateTick s
  | .windowSlotIdle n => Sys2Proof.Machine.execWindowSlotIdle n s
  | .windowFault w => Sys2Proof.Machine.execWindowFault w s
  | .ackReceived a => Sys2Proof.Machine.execAckReceived a s
  | .readRspReceived a => Sys2Proof.Machine.execReadRspReceived a s
  | .atomicRspReceived a => Sys2Proof.Machine.execAtomicRspReceived a s
  | .errRspReceived a => Sys2Proof.Machine.execErrRspReceived a s
  | .tailWrite a => Sys2Proof.Machine.execTailWrite a s
  | .pushWrite a => Sys2Proof.Machine.execPushWrite a s
  | .doorbellRead a => Sys2Proof.Machine.execDoorbellRead a s
  | .whistleRead a => Sys2Proof.Machine.execWhistleRead a s
  | .whistleWrite a => Sys2Proof.Machine.execWhistleWrite a s
  | .whistleFaddI64 a => Sys2Proof.Machine.execWhistleFaddI64 a s
  | .whistleCas64 a => Sys2Proof.Machine.execWhistleCas64 a s
  | .counterViewRead a => Sys2Proof.Machine.execCounterViewRead a s
  | .cheadWrite a => Sys2Proof.Machine.execCheadWrite a s
  | .completionControlRead a => Sys2Proof.Machine.execCompletionControlRead a s
  | .kfeaWrite a => Sys2Proof.Machine.execKfeaWrite a s
  | .unservedAccess a => Sys2Proof.Machine.execUnservedAccess a s
  | .poolRead a => Sys2Proof.Machine.execPoolRead a s
  | .poolWrite a => Sys2Proof.Machine.execPoolWrite a s
  | .poolFaddI32 a => Sys2Proof.Machine.execPoolFaddI32 a s
  | .poolFaddI64 a => Sys2Proof.Machine.execPoolFaddI64 a s
  | .poolFaddF32 a => Sys2Proof.Machine.execPoolFaddF32 a s
  | .poolCas64 a => Sys2Proof.Machine.execPoolCas64 a s
  | .hbmAccessDone id errs => Sys2Proof.Machine.execHbmAccessDone id errs s
  | .mirrorWriteTimeout id => Sys2Proof.Machine.execMirrorWriteTimeout id s
  | .patrolScrubStep errs => Sys2Proof.Machine.execPatrolScrubStep errs s
  | .slotEntryStart e => Sys2Proof.Machine.execSlotEntryStart e s
  | .translationInvalidate by_ kennel all => Sys2Proof.Machine.execTranslationInvalidate by_ kennel all s
  | .translationInvalidateDone => Sys2Proof.Machine.execTranslationInvalidateDone s
  | .polModeStatic => Sys2Proof.Machine.execPolModeStatic s
  | .polModeDynamic => Sys2Proof.Machine.execPolModeDynamic s
  | .poolModeChange => Sys2Proof.Machine.execPoolModeChange s
  | .kcreate ktag gen opts whist ring => Sys2Proof.Machine.execKcreate ktag gen opts whist ring s
  | .kbindport k port => Sys2Proof.Machine.execKbindport k port s
  | .kunbindport k port => Sys2Proof.Machine.execKunbindport k port s
  | .kbindrank k loc entries table => Sys2Proof.Machine.execKbindrank k loc entries table s
  | .kbindpage k root => Sys2Proof.Machine.execKbindpage k root s
  | .kbindkey k slot => Sys2Proof.Machine.execKbindkey k slot s
  | .kgrantcore k mask => Sys2Proof.Machine.execKgrantcore k mask s
  | .kgrantctr k mask => Sys2Proof.Machine.execKgrantctr k mask s
  | .kqcreate k q base ring => Sys2Proof.Machine.execKqcreate k q base ring s
  | .kopen k => Sys2Proof.Machine.execKopen k s
  | .kreset k => Sys2Proof.Machine.execKreset k s
  | .kteardown k => Sys2Proof.Machine.execKteardown k s
  | .kquery k => Sys2Proof.Machine.execKquery k s
  | .kennelResetEnd k => Sys2Proof.Machine.execKennelResetEnd k s
  | .teardownEnd k => Sys2Proof.Machine.execTeardownEnd k s
  | .ktagQuarantineEnd ktag => Sys2Proof.Machine.execKtagQuarantineEnd ktag s
  | .descriptorRead k q errs => Sys2Proof.Machine.execDescriptorRead k q errs s
  | .nop k q => Sys2Proof.Machine.execNop k q s
  | .wait k q => Sys2Proof.Machine.execWait k q s
  | .waitTimeout k q seq => Sys2Proof.Machine.execWaitTimeout k q seq s
  | .signal k q => Sys2Proof.Machine.execSignal k q s
  | .copy k q => Sys2Proof.Machine.execCopy k q s
  | .fill k q => Sys2Proof.Machine.execFill k q s
  | .atomic k q => Sys2Proof.Machine.execAtomic k q s
  | .launch k q => Sys2Proof.Machine.execLaunch k q s
  | .bcast k q => Sys2Proof.Machine.execBcast k q s
  | .bcastv k q => Sys2Proof.Machine.execBcastv k q s
  | .reduce k q => Sys2Proof.Machine.execReduce k q s
  | .reducev k q => Sys2Proof.Machine.execReducev k q s
  | .allred k q => Sys2Proof.Machine.execAllred k q s
  | .update k q => Sys2Proof.Machine.execUpdate k q s
  | .fence k q => Sys2Proof.Machine.execFence k q s
  | .timestamp k q => Sys2Proof.Machine.execTimestamp k q s
  | .cancel k q => Sys2Proof.Machine.execCancel k q s
  | .commandComplete k q seq => Sys2Proof.Machine.execCommandComplete k q seq s
  | .collData a => Sys2Proof.Machine.execCollData a s
  | .collResult a => Sys2Proof.Machine.execCollResult a s
  | .collAdmit k q seq => Sys2Proof.Machine.execCollAdmit k q seq s
  | .blockResult id stage blk chk => Sys2Proof.Machine.execBlockResult id stage blk chk s
  | .collTimeout id => Sys2Proof.Machine.execCollTimeout id s
  | .laneSelfTestEnd failed => Sys2Proof.Machine.execLaneSelfTestEnd failed s
  | .coreClaim k q seq => Sys2Proof.Machine.execCoreClaim k q seq s
  | .programLoadDone c => Sys2Proof.Machine.execProgramLoadDone c s
  | .programStart pid => Sys2Proof.Machine.execProgramStart pid s
  | .programEnd pid => Sys2Proof.Machine.execProgramEnd pid s
  | .launchTimeLimit pid => Sys2Proof.Machine.execLaunchTimeLimit pid s
  | .scrubDone c clean => Sys2Proof.Machine.execScrubDone c clean s
  | .resultWriteback c => Sys2Proof.Machine.execResultWriteback c s
  | .moveComplete c id => Sys2Proof.Machine.execMoveComplete c id s
  | .staticLanding c => Sys2Proof.Machine.execStaticLanding c s
  | .networkLanding c => Sys2Proof.Machine.execNetworkLanding c s
  | .waitResume c => Sys2Proof.Machine.execWaitResume c s
  | .sSlotNop c g f => Sys2Proof.Machine.execSSlotNop c g f s
  | .add c g f => Sys2Proof.Machine.execAdd c g f s
  | .sub c g f => Sys2Proof.Machine.execSub c g f s
  | .mul c g f => Sys2Proof.Machine.execMul c g f s
  | .and c g f => Sys2Proof.Machine.execAnd c g f s
  | .or c g f => Sys2Proof.Machine.execOr c g f s
  | .xor c g f => Sys2Proof.Machine.execXor c g f s
  | .shl c g f => Sys2Proof.Machine.execShl c g f s
  | .shr c g f => Sys2Proof.Machine.execShr c g f s
  | .sra c g f => Sys2Proof.Machine.execSra c g f s
  | .min c g f => Sys2Proof.Machine.execMin c g f s
  | .max c g f => Sys2Proof.Machine.execMax c g f s
  | .minu c g f => Sys2Proof.Machine.execMinu c g f s
  | .maxu c g f => Sys2Proof.Machine.execMaxu c g f s
  | .li c g f => Sys2Proof.Machine.execLi c g f s
  | .lih c g f => Sys2Proof.Machine.execLih c g f s
  | .cmpEq c g f => Sys2Proof.Machine.execCmpEq c g f s
  | .cmpNe c g f => Sys2Proof.Machine.execCmpNe c g f s
  | .cmpLt c g f => Sys2Proof.Machine.execCmpLt c g f s
  | .cmpGe c g f => Sys2Proof.Machine.execCmpGe c g f s
  | .cmpLtu c g f => Sys2Proof.Machine.execCmpLtu c g f s
  | .cmpGeu c g f => Sys2Proof.Machine.execCmpGeu c g f s
  | .pand c g f => Sys2Proof.Machine.execPand c g f s
  | .por c g f => Sys2Proof.Machine.execPor c g f s
  | .pxor c g f => Sys2Proof.Machine.execPxor c g f s
  | .br c g f => Sys2Proof.Machine.execBr c g f s
  | .bdec c g f => Sys2Proof.Machine.execBdec c g f s
  | .endProg c g f => Sys2Proof.Machine.execEndProg c g f s
  | .rdcyc c g f => Sys2Proof.Machine.execRdcyc c g f s
  | .rdstep c g f => Sys2Proof.Machine.execRdstep c g f s
  | .rdseed c g f => Sys2Proof.Machine.execRdseed c g f s
  | .stepadd c g f => Sys2Proof.Machine.execStepadd c g f s
  | .stepset c g f => Sys2Proof.Machine.execStepset c g f s
  | .tnop c g f => Sys2Proof.Machine.execTnop c g f s
  | .tclr c g f => Sys2Proof.Machine.execTclr c g f s
  | .tadd c g f => Sys2Proof.Machine.execTadd c g f s
  | .tmmaF4 c g f => Sys2Proof.Machine.execTmmaF4 c g f s
  | .tmmaLb4 c g f => Sys2Proof.Machine.execTmmaLb4 c g f s
  | .tmmaE2m3 c g f => Sys2Proof.Machine.execTmmaE2m3 c g f s
  | .tmmaE3m2 c g f => Sys2Proof.Machine.execTmmaE3m2 c g f s
  | .tmmaE4m3 c g f => Sys2Proof.Machine.execTmmaE4m3 c g f s
  | .tmmaE5m2 c g f => Sys2Proof.Machine.execTmmaE5m2 c g f s
  | .tmmaBf16 c g f => Sys2Proof.Machine.execTmmaBf16 c g f s
  | .tmmaF16 c g f => Sys2Proof.Machine.execTmmaF16 c g f s
  | .vnop c g f => Sys2Proof.Machine.execVnop c g f s
  | .vaddF32 c g f => Sys2Proof.Machine.execVaddF32 c g f s
  | .vsubF32 c g f => Sys2Proof.Machine.execVsubF32 c g f s
  | .vmulF32 c g f => Sys2Proof.Machine.execVmulF32 c g f s
  | .vfmaF32 c g f => Sys2Proof.Machine.execVfmaF32 c g f s
  | .vmaxF32 c g f => Sys2Proof.Machine.execVmaxF32 c g f s
  | .vminF32 c g f => Sys2Proof.Machine.execVminF32 c g f s
  | .vaddBf16 c g f => Sys2Proof.Machine.execVaddBf16 c g f s
  | .vmulBf16 c g f => Sys2Proof.Machine.execVmulBf16 c g f s
  | .vfmaBf16 c g f => Sys2Proof.Machine.execVfmaBf16 c g f s
  | .vsqrtF32 c g f => Sys2Proof.Machine.execVsqrtF32 c g f s
  | .vrcpF32 c g f => Sys2Proof.Machine.execVrcpF32 c g f s
  | .vrsqrtF32 c g f => Sys2Proof.Machine.execVrsqrtF32 c g f s
  | .vaddI32 c g f => Sys2Proof.Machine.execVaddI32 c g f s
  | .vsubI32 c g f => Sys2Proof.Machine.execVsubI32 c g f s
  | .vand c g f => Sys2Proof.Machine.execVand c g f s
  | .vor c g f => Sys2Proof.Machine.execVor c g f s
  | .vxor c g f => Sys2Proof.Machine.execVxor c g f s
  | .vshlI32 c g f => Sys2Proof.Machine.execVshlI32 c g f s
  | .vshrI32 c g f => Sys2Proof.Machine.execVshrI32 c g f s
  | .vsraI32 c g f => Sys2Proof.Machine.execVsraI32 c g f s
  | .vld c g f => Sys2Proof.Machine.execVld c g f s
  | .vst c g f => Sys2Proof.Machine.execVst c g f s
  | .xld c g f => Sys2Proof.Machine.execXld c g f s
  | .xst c g f => Sys2Proof.Machine.execXst c g f s
  | .xset c g f => Sys2Proof.Machine.execXset c g f s
  | .vbcast c g f => Sys2Proof.Machine.execVbcast c g f s
  | .vmovs c g f => Sys2Proof.Machine.execVmovs c g f s
  | .vtrd c g f => Sys2Proof.Machine.execVtrd c g f s
  | .vtrdRaw c g f => Sys2Proof.Machine.execVtrdRaw c g f s
  | .vcvtF32Bf16 c g f => Sys2Proof.Machine.execVcvtF32Bf16 c g f s
  | .vcvtF32F16 c g f => Sys2Proof.Machine.execVcvtF32F16 c g f s
  | .vpkBf16 c g f => Sys2Proof.Machine.execVpkBf16 c g f s
  | .vpkF16 c g f => Sys2Proof.Machine.execVpkF16 c g f s
  | .vcvtF32I32 c g f => Sys2Proof.Machine.execVcvtF32I32 c g f s
  | .vcvtI32F32 c g f => Sys2Proof.Machine.execVcvtI32F32 c g f s
  | .vqscaleF4 c g f => Sys2Proof.Machine.execVqscaleF4 c g f s
  | .vqscaleLb4 c g f => Sys2Proof.Machine.execVqscaleLb4 c g f s
  | .vqscaleE2m3 c g f => Sys2Proof.Machine.execVqscaleE2m3 c g f s
  | .vqscaleE3m2 c g f => Sys2Proof.Machine.execVqscaleE3m2 c g f s
  | .vqscaleE4m3 c g f => Sys2Proof.Machine.execVqscaleE4m3 c g f s
  | .vqscaleE5m2 c g f => Sys2Proof.Machine.execVqscaleE5m2 c g f s
  | .vpackF4 c g f => Sys2Proof.Machine.execVpackF4 c g f s
  | .vpackLb4 c g f => Sys2Proof.Machine.execVpackLb4 c g f s
  | .vpackE2m3 c g f => Sys2Proof.Machine.execVpackE2m3 c g f s
  | .vpackE3m2 c g f => Sys2Proof.Machine.execVpackE3m2 c g f s
  | .vpackE4m3 c g f => Sys2Proof.Machine.execVpackE4m3 c g f s
  | .vpackE5m2 c g f => Sys2Proof.Machine.execVpackE5m2 c g f s
  | .vunpkF4 c g f => Sys2Proof.Machine.execVunpkF4 c g f s
  | .vunpkLb4 c g f => Sys2Proof.Machine.execVunpkLb4 c g f s
  | .vunpkE2m3 c g f => Sys2Proof.Machine.execVunpkE2m3 c g f s
  | .vunpkE3m2 c g f => Sys2Proof.Machine.execVunpkE3m2 c g f s
  | .vunpkE4m3 c g f => Sys2Proof.Machine.execVunpkE4m3 c g f s
  | .vunpkE5m2 c g f => Sys2Proof.Machine.execVunpkE5m2 c g f s
  | .mnop c g f => Sys2Proof.Machine.execMnop c g f s
  | .msp c g f => Sys2Proof.Machine.execMsp c g f s
  | .mld c g f => Sys2Proof.Machine.execMld c g f s
  | .mst c g f => Sys2Proof.Machine.execMst c g f s
  | .matom c g f => Sys2Proof.Machine.execMatom c g f s
  | .msend c g f => Sys2Proof.Machine.execMsend c g f s
  | .whs c g f => Sys2Proof.Machine.execWhs c g f s
  | .waitw c g f => Sys2Proof.Machine.execWaitw c g f s
  | .waitm c g f => Sys2Proof.Machine.execWaitm c g f s
  | .post c g f => Sys2Proof.Machine.execPost c g f s
  | .start a => Sys2Proof.Machine.execStart a s
  | .time a => Sys2Proof.Machine.execTime a s
  | .timeSend p => Sys2Proof.Machine.execTimeSend p s
  | .timeHoldover => Sys2Proof.Machine.execTimeHoldover s
  | .align => Sys2Proof.Machine.execAlign s
  | .alignEffect => Sys2Proof.Machine.execAlignEffect s
  | .noadapt v => Sys2Proof.Machine.execNoadapt v s
  | .nofast v => Sys2Proof.Machine.execNofast v s
  | .kscent k ring log2 mode mask digest count => Sys2Proof.Machine.execKscent k ring log2 mode mask digest count s
  | .scentSpaceReturn k => Sys2Proof.Machine.execScentSpaceReturn k s
  | .tensorDigestDone pid => Sys2Proof.Machine.execTensorDigestDone pid s
  | .stage image => Sys2Proof.Machine.execStage image s
  | .stageDone => Sys2Proof.Machine.execStageDone s
  | .commit => Sys2Proof.Machine.execCommit s
  | .rollback => Sys2Proof.Machine.execRollback s
  | .epoch a => Sys2Proof.Machine.execEpoch a s
  | .epochFlip => Sys2Proof.Machine.execEpochFlip s
  | .epochDrainEnd => Sys2Proof.Machine.execEpochDrainEnd s
  | .feaLock => Sys2Proof.Machine.execFeaLock s
  | .romBoot a b => Sys2Proof.Machine.execRomBoot a b s
  | .kelpieRestart => Sys2Proof.Machine.execKelpieRestart s
  | .monLock by_ size => Sys2Proof.Machine.execMonLock by_ size s
  | .seqOpen => Sys2Proof.Machine.execSeqOpen s
  | .seqGo => Sys2Proof.Machine.execSeqGo s
  | .seqTimeout => Sys2Proof.Machine.execSeqTimeout s
  | .authdataChallenge => Sys2Proof.Machine.execAuthdataChallenge s
  | .authdataToken token => Sys2Proof.Machine.execAuthdataToken token s
  | .keygen slot => Sys2Proof.Machine.execKeygen slot s
  | .keyzero slot => Sys2Proof.Machine.execKeyzero slot s
  | .mirset session ctl mtch => Sys2Proof.Machine.execMirset session ctl mtch s
  | .rsetown n ktag valid => Sys2Proof.Machine.execRsetown n ktag valid s
  | .rtvquota k quota => Sys2Proof.Machine.execRtvquota k quota s
  | .spgfloor version => Sys2Proof.Machine.execSpgfloor version s
  | .svnfloor boot fw => Sys2Proof.Machine.execSvnfloor boot fw s
  | .dbgunlock addr token => Sys2Proof.Machine.execDbgunlock addr token s
  | .linksec port enable => Sys2Proof.Machine.execLinksec port enable s
  | .lcstrans target addr token => Sys2Proof.Machine.execLcstrans target addr token s
  | .fwload addr image => Sys2Proof.Machine.execFwload addr image s
  | .kmap k va ppn flags => Sys2Proof.Machine.execKmap k va ppn flags s
  | .kunmap k va => Sys2Proof.Machine.execKunmap k va s
  | .kprot k va flags => Sys2Proof.Machine.execKprot k va flags s
  | .hndsev src sev => Sys2Proof.Machine.execHndsev src sev s
  | .hndforce src val => Sys2Proof.Machine.execHndforce src val s
  | .ctrsamp session sel width enable => Sys2Proof.Machine.execCtrsamp session sel width enable s
  | .getVersion => Sys2Proof.Machine.execGetVersion s
  | .getCapabilities => Sys2Proof.Machine.execGetCapabilities s
  | .negotiateAlgorithms => Sys2Proof.Machine.execNegotiateAlgorithms s
  | .getDigests => Sys2Proof.Machine.execGetDigests s
  | .getCertificate slot => Sys2Proof.Machine.execGetCertificate slot s
  | .challenge slot nonce => Sys2Proof.Machine.execChallenge slot nonce s
  | .getMeasurements index nonce => Sys2Proof.Machine.execGetMeasurements index nonce s
  | .vendorMlDsaSignature => Sys2Proof.Machine.execVendorMlDsaSignature s
  | .linkKeyMessage a => Sys2Proof.Machine.execLinkKeyMessage a s
  | .linktag a => Sys2Proof.Machine.execLinktag a s
  | .linktagTimeout p => Sys2Proof.Machine.execLinktagTimeout p s
  | .recordClose p => Sys2Proof.Machine.execRecordClose p s
  | .linkRekey p => Sys2Proof.Machine.execLinkRekey p s
  | .twinEntryExpiry src win => Sys2Proof.Machine.execTwinEntryExpiry src win s
  | .renew f => Sys2Proof.Machine.execRenew f s
  | .claim f => Sys2Proof.Machine.execClaim f s
  | .heartbeatSend => Sys2Proof.Machine.execHeartbeatSend s
  | .heartbeatTimeout => Sys2Proof.Machine.execHeartbeatTimeout s
  | .claimComplete => Sys2Proof.Machine.execClaimComplete s
  | .mate a => Sys2Proof.Machine.execMate a s
  | .mateSend => Sys2Proof.Machine.execMateSend s
  | .yield => Sys2Proof.Machine.execYield s
  | .claimEnable v => Sys2Proof.Machine.execClaimEnable v s
  | .leashMode v => Sys2Proof.Machine.execLeashMode v s
  | .resyncGo => Sys2Proof.Machine.execResyncGo s
  | .resyncComplete a => Sys2Proof.Machine.execResyncComplete a s
  | .houndSourceAssert n path => Sys2Proof.Machine.execHoundSourceAssert n path s
  | .houndParityError => Sys2Proof.Machine.execHoundParityError s
  | .stickyClear w mask => Sys2Proof.Machine.execStickyClear w mask s
  | .supplyOkRise posa test => Sys2Proof.Machine.execSupplyOkRise posa test s
  | .supplyOkFall => Sys2Proof.Machine.execSupplyOkFall s
  | .powerUp => Sys2Proof.Machine.execPowerUp s
  | .powerDown => Sys2Proof.Machine.execPowerDown s
  | .railGood r => Sys2Proof.Machine.execRailGood r s
  | .railEnableTimeout r => Sys2Proof.Machine.execRailEnableTimeout r s
  | .railWindowFault r => Sys2Proof.Machine.execRailWindowFault r s
  | .railDischarged r => Sys2Proof.Machine.execRailDischarged r s
  | .supplyWaitEnd => Sys2Proof.Machine.execSupplyWaitEnd s
  | .stacksTrained mask => Sys2Proof.Machine.execStacksTrained mask s
  | .epo => Sys2Proof.Machine.execEpo s
  | .governorInstant => Sys2Proof.Machine.execGovernorInstant s
  | .holdExpiry c => Sys2Proof.Machine.execHoldExpiry c s
  | .estimatorRefresh rails total overMs => Sys2Proof.Machine.execEstimatorRefresh rails total overMs s
  | .estimatorCalibrate => Sys2Proof.Machine.execEstimatorCalibrate s
  | .thermalThreshold readings => Sys2Proof.Machine.execThermalThreshold readings s
  | .tclGo => Sys2Proof.Machine.execTclGo s
  | .tclBytes n => Sys2Proof.Machine.execTclBytes n s
  | .tclFrameStart collision => Sys2Proof.Machine.execTclFrameStart collision s
  | .tclBackoffEnd => Sys2Proof.Machine.execTclBackoffEnd s
  | .tclAnswerTimeout => Sys2Proof.Machine.execTclAnswerTimeout s
  | .tclAck f => Sys2Proof.Machine.execTclAck f s
  | .tclData f => Sys2Proof.Machine.execTclData f s
  | .tclReject f => Sys2Proof.Machine.execTclReject f s
  | .tclError f => Sys2Proof.Machine.execTclError f s
  | .pwrGpioWrite oe v => Sys2Proof.Machine.execPwrGpioWrite oe v s
  | .trayrailWrite v => Sys2Proof.Machine.execTrayrailWrite v s
  | .srecPop quiet => Sys2Proof.Machine.execSrecPop quiet s
  | .counterClearingRead r => Sys2Proof.Machine.execCounterClearingRead r s
  | .registerWrite by_ r v => Sys2Proof.Machine.execRegisterWrite by_ r v s
  | .patternCheck l bits => Sys2Proof.Machine.execPatternCheck l bits s
  | .nonMonitorMonRead by_ r => Sys2Proof.Machine.execNonMonitorMonRead by_ r s
  | .traymateTclFrame f => Sys2Proof.Machine.execTraymateTclFrame f s
  | .mateseenExpiry => Sys2Proof.Machine.execMateseenExpiry s
  | .hbmRetrainDone => Sys2Proof.Machine.execHbmRetrainDone s
  | .perBankRefresh stack => Sys2Proof.Machine.execPerBankRefresh stack s
  | .reporterRequest r => Sys2Proof.Machine.execReporterRequest r s

end Sys2Proof.Machine
end

