-- ==== Sys2Proof/Machine/Tick.lean ====
section
/-! DEFINITION. What a step does when no command waits: one cycle of the compute island passes (assumption log 2).  The
sequencers of the cores fetch and issue bundles (R315, R340, R342, R346, R360), and what the cycle count alone decides
happens: results and lines that arrive, slot table entries, mode changes, program starts and ends. -/

namespace Sys2Proof.Machine

/-- The effect of one instruction of a bundle. -/
def runInstr (s : State) (i : Instr) : State :=
  match exec i s with
  | .next t => t
  | .fault _ => s
  | .refused _ => s

/-! ## Fetch (R340, R346) -/

/-- A branch whose two delay bundles have issued takes the core to its target. -/
def takeJump (x : Core) : Core :=
  { x with pc := x.nextBundle, jumps := x.jumps.filter fun j => j.1 != 0 }

/-- The bundle that issues leaves one delay bundle fewer before each pending target. -/
def countJumps (x : Core) : Core := { x with jumps := x.jumps.map fun j => (j.1 - 1, j.2) }

/-- The M slot's instruction. DESIGN CHOICE, log entry 2: unsafe. -/
def moveSlot (l : List Instr) : List Instr := l.drop 3

/-- The bundle's slots, unless its M slot waits (R360) or one of them meets a hazard: then no slot has an effect
(R326, R327). DESIGN CHOICE, log entry 2: unsafe. -/
def issueBundle (c : Nat) (l : List Instr) (s : State) : State :=
  let w := (moveSlot l).foldl runInstr s
  if (w.core c).waiting.isSome then s.modCore c fun x => { x with waiting := (w.core c).waiting }
  else
    let t := l.foldl runInstr (s.modCore c countJumps)
    let cause := t.rd F.CMP_FLT_CAUSE c
    if cause = 0 then (t.modCore c fun x => { x with pc := x.pc + 1 }).count F.CTR_CORE_COUNT (8 * c)
    else hazardStop c cause s

/-- One core's sequencer in this cycle. -/
def fetch (s : State) (c : Nat) : State :=
  if !issuing s c || s.cyc.toNat < (s.core c).resumeAt || (s.core c).ended.isSome then s
  else
    let s := s.modCore c takeJump
    let x := s.core c
    if x.nbun ≤ x.pc then hazardStop c Cause'.text s
    else match decodeBundle c (Tbl.get x.text x.pc 0) with
      | none => hazardStop c Cause'.encode s
      | some l => issueBundle c l s

/-! ## The cycle -/

/-- Results and lines that reach a core, and the end of its wait. DESIGN CHOICE, log entry 2: unsafe. -/
def arrivals (s : State) (c : Nat) : State :=
  waitResume c (networkLanding c (staticLanding c (resultWriteback c s)))

/-- Transfers of a core start, as answers leave room for their requests (R258, R359), and are complete.
DESIGN CHOICE, log entry 2: unsafe. DESIGN CHOICE, log entry 25: unsafe. -/
def transfers (s : State) (c : Nat) : State :=
  let s := match coreProg s c with
    | some p => startMoves c p.k s
    | none => s
  ((s.core c).moves.filter fun m => m.done s.cyc.toNat).foldl (fun s m => moveComplete c m.id s) s

/-- Cycles of waiting and of filler work (R507).
DESIGN CHOICE, log entry 2: unsafe. DESIGN CHOICE, log entry 73: unsafe. -/
def countCycle (s : State) (c : Nat) : State :=
  let x := s.core c
  let s := if x.st = .run ∧ x.waiting.isSome then s.count F.CTR_CORE_COUNT (8 * c + 1) else s
  if x.st ≠ .run ∧ x.level ≠ 0 then s.count F.CTR_CORE_COUNT (8 * c + 7) else s

/-- The cores that have something to do. -/
def activeCores (s : State) : List Nat := s.isl.cores.map (·.1)

/-- What this cycle's count decides for the slot table and the alignment. -/
def slotTable (s : State) : State :=
  let t := s.cyc.toNat
  let s := modeChange (alignEffect s)
  if s.rd F.POL_STS_CUR = 1 ∧ t % 18 = 0 then entryServe (t / 18 % 1280) s else s

/-- One core's bundle issues while the actions that other cores' hazards call for wait. -/
def fetchAlone (s : State) (c : Nat) : State :=
  let todo := s.hnd.todo
  let s := fetch { s with hnd := { s.hnd with todo := [] } } c
  { s with hnd := { s.hnd with todo := todo ++ s.hnd.todo } }

/-- Every core's sequencer issues its bundle of this cycle; what a hazard calls for happens once all have (R327). -/
def issueAll (s : State) : State := settle ((activeCores s).foldl fetchAlone s)

/-- DESIGN CHOICE, log entry 2: unsafe. -/
def oneCycle (s : State) : State :=
  let s := slotTable s
  let s := (activeCores s).foldl arrivals s
  let s := s.isl.progs.foldl (fun s p => programStart p.id s) s
  let s := issueAll s
  let s := (activeCores s).foldl transfers s
  let s := s.isl.progs.foldl (fun s p => programEnd p.id (tensorDigestDone p.id s)) s
  settle ((activeCores s).foldl countCycle s)

/-- The idle step: time passes, and the lanes send what their line rate lets pass; in the safe state nothing else happens (R473).
DESIGN CHOICE, log entry 2: unsafe. DESIGN CHOICE, log entry 9: safe. -/
def idle (s : State) : State :=
  let t := s.clock
  let s := { s with time := s.time + 5000, ref := s.ref + s.cycleRef, cyc := s.cyc + 1 }
  if s.sealed' then s else oneCycle (countStalls t (sendLines t s))

end Sys2Proof.Machine
end

