-- ==== Sys2Proof/Machine/Cluster.lean ====
section
/-! DEFINITION. What the harts, the interrupt controller and the debug module show, and what a hart or the debugger may access (R409, R410,
R418, R419, R435, R436, R467, R513, R521). -/

namespace Sys2Proof.Machine

/-! ## Interrupts (R467, R513, R521) -/

/-- The level of a source of the interrupt controller: source 16 is Hound's, held while HND_STS.PEND reads 1, source 17 the
sampling queue's, held while it holds a record. -/
def plicLevel (s : State) (src : Nat) : Bool :=
  if src = 16 then bit (hndSts s) 0 else if src = 17 then !s.samp.isEmpty else false

/-- A source waits at a context: its level is high, it is enabled there, nobody has claimed it, and its priority is above
the context's threshold. PRESUMED, log entry 96: unsafe. -/
def plicWaits (s : State) (ctx src : Nat) : Bool :=
  let p := s.klp.plic
  plicLevel s src && bit (Tbl.get p.enable (8 * ctx + src / 32) 0) (src % 32) && !(p.claimed.any fun x => x.2 == src) &&
    Tbl.get p.threshold ctx 0 < Tbl.get p.prio src 0

/-- The external interrupt of a context: hart h has contexts 2 h in M mode and 2 h + 1 in S mode. -/
def externalInterrupt (s : State) (ctx : Nat) : Bool := (upto 256).any (plicWaits s ctx)

/-- mtime reads DET_TIME, one tick per ns, and the timer interrupt of a hart waits while its compare value is reached. -/
def timerInterrupt (s : State) (h : Nat) : Bool := Tbl.get s.klp.aclint.mtimecmp h 0 ≤ s.nowNs

/-! ## The debug module (R409, R435) -/

/-- The debug module answers more than dmstatus and authdata. -/
def debugOpen (s : State) : Bool := s.rdB F.KLP_DBGSTS_UNLOCKED

/-- dmstatus: version 2, the authentication, and whether every hart is halted, runs or is in reset.
PRESUMED, log entry 96: unsafe. -/
def dmstatus (s : State) : Nat :=
  let h := s.klp.harts
  let all := fun (p : Hart → Bool) (lo : Nat) => b2n (h.any p) * 2 ^ lo + b2n (h.all p) * 2 ^ (lo + 1)
  2 + b2n (debugOpen s) * 2 ^ 7 + all (fun x => x.run && x.halted) 8 + all (fun x => x.run && !x.halted) 10 +
    all (fun x => !x.run) 12

/-! ## Whose access it is, and what it reaches (R409, R418, R419, R435, R436) -/

/-- An address of the locked monitor region (R418). -/
def inMonRegion (s : State) (a : Nat) : Bool := inMonitor s a 1

/-- An access of a hart in this mode, from an instruction fetched at `pc`, counts as the monitor's (R418). -/
def countsAsMonitor (s : State) (mode : Priv) (pc : Nat) : Bool :=
  mode == .m && (!s.rdB F.MON_LOCK_LOCKED || inMonRegion s pc)

/-- Whose a hart's access is, as the rows that read and write registers name it.
DESIGN CHOICE, log entry 108: safe. -/
def hartAccessor (s : State) (mode : Priv) (pc : Nat) : Accessor :=
  if countsAsMonitor s mode pc then .monitor else .firmware

/-- What an access does. -/
inductive AccKind where
  | fetch | load | store
  deriving DecidableEq, Repr

/-- The lock of the monitor region lets a hart's access through: outside the region all, inside it M mode only, whose code
executes and whose data is read and written by the monitor itself (R419). DESIGN CHOICE, log entry 108: safe. -/
def regionAllows (s : State) (mode : Priv) (pc a : Nat) (kind : AccKind) : Bool :=
  !s.rdB F.MON_LOCK_LOCKED || !inMonRegion s a || (mode == .m && (kind == .fetch || inMonRegion s pc))

/-- The exception of a misaligned access of `n` bytes, by its cause number (R409). PRESUMED, log entry 96: unsafe. -/
def misaligned (a n : Nat) (kind : AccKind) : Option Nat :=
  if a % n = 0 then none
  else match kind with
    | .fetch => some 0
    | .load => some 4
    | .store => some 6

/-- What a debugger asks for. -/
inductive DebugTarget where
  | dmstatus | authdata | harts | sram (a : Nat) | csr | dataPlane | monField | keySlot
  deriving DecidableEq, Repr

/-- What the debug module answers: dmstatus and the authentication always; once open, the harts and the SRAM outside the
monitor region; with SCOPE 1 or by lifecycle also the CSR space and the system bus to the data plane; MON fields and key
slots never (R435, R436). -/
def debugAnswers (s : State) (t : DebugTarget) : Bool :=
  match t with
  | .dmstatus | .authdata => true
  | .harts => debugOpen s
  | .sram a => debugOpen s && !(s.rdB F.MON_LOCK_LOCKED && inMonRegion s a)
  | .csr | .dataPlane => debugReaches s
  | .monField | .keySlot => false

end Sys2Proof.Machine
end

