-- ==== Sys2Proof/Machine/Encode.lean ====
section
/-! DEFINITION. The words of the slot instructions (R340, R341, R344, R348, R351, R356, and the opcodes of R345, R349,
R352 and R357): each format's fields from bit 63 down, and the word of every slot command. -/

namespace Sys2Proof.Machine

/-- A word: the fields of a format above the guard and the opcode (R341). -/
def slotBits (form : BitVec 52) (g : Guard) (opc : BitVec 8) : SlotWord :=
  form ++ BitVec.ofBool g.pneg ++ g.pidx ++ opc

/-! ## Formats (R344, R348, R351, R356) -/

def formNo (f : NoFmt) : BitVec 52 := f

def formSA (f : SA) : BitVec 52 := f.rsv ++ f.imm ++ BitVec.ofBool f.i ++ f.b ++ f.a ++ f.d

def formSP (f : SP) : BitVec 52 :=
  f.rsv.extractLsb' 2 4 ++ f.imm ++ BitVec.ofBool f.i ++ f.b ++ f.a ++ f.rsv.extractLsb' 0 2 ++ f.pd

def formSL (f : SL) : BitVec 52 := f.rsv ++ BitVec.ofBool f.nb ++ f.pb ++ BitVec.ofBool f.na ++ f.pa ++ f.pd

def formSB (f : SB) : BitVec 52 := f.rsv ++ f.a ++ f.tgt

def formSX (f : SX) : BitVec 52 :=
  f.rsv.extractLsb' 5 4 ++ f.imm ++ f.rsv.extractLsb' 0 5 ++ BitVec.ofBool f.h ++ f.a ++ f.d

def formTM (f : TM) : BitVec 52 :=
  f.rsv ++ f.boff ++ f.br ++ BitVec.ofBool f.ll ++ f.leng ++ BitVec.ofBool f.le ++ f.aoff ++ f.ar ++
  BitVec.ofBool f.of ++ f.acc ++ BitVec.ofBool f.ls ++ f.emask

def formTC (f : TC) : BitVec 52 := f.rsv ++ f.x ++ BitVec.ofBool f.mode ++ f.acc ++ f.eng

def formTA (f : TA) : BitVec 52 := f.rsv ++ f.part ++ f.vs ++ f.acc ++ f.eng

def formVR (f : VR) : BitVec 52 :=
  f.rsv ++ f.part ++ f.sr ++ BitVec.ofBool f.f ++ f.x ++ f.c ++ f.b ++ f.a ++ f.d ++ BitVec.ofBool f.e

def formVM (f : VM) : BitVec 52 := f.rsv ++ f.nm1 ++ f.g ++ f.loff ++ f.ar ++ f.d ++ BitVec.ofBool f.e

def formVS (f : VS) : BitVec 52 := f.rsv ++ f.xd ++ f.field ++ f.lane ++ f.s ++ f.v ++ BitVec.ofBool f.e

def formMS (f : MS) : BitVec 52 := f.rsv ++ f.nm1 ++ f.line ++ f.vr ++ BitVec.ofBool f.wrap ++ f.entry ++ f.ctr

def formMD (f : MD) : BitVec 52 :=
  f.rsv ++ BitVec.ofBool f.twin ++ f.rr ++ BitVec.ofBool f.rem ++ f.nr ++ f.lr ++ f.vr ++ f.ctr

def formMA (f : MA) : BitVec 52 :=
  f.rsv ++ f.line ++ f.aop ++ f.rr ++ BitVec.ofBool f.rem ++ f.cr ++ f.opr ++ f.vr ++ f.ctr

def formMN (f : MN) : BitVec 52 := f.rsv ++ f.loff ++ f.lr ++ f.li ++ f.vs ++ f.dst

def formMW (f : MW) : BitVec 52 := f.rsv ++ f.ctr ++ f.rr ++ BitVec.ofBool f.rem ++ f.sr ++ f.widx

def formMP (f : MP) : BitVec 52 := f.rsv ++ f.ctr ++ f.b ++ f.a

/-! ## Words -/

/-- The slot an instruction belongs in, and the core that it names. -/
inductive SlotOf where
  | s | t | v | m
  deriving DecidableEq, Repr

/-- The slot, the core and the word of a slot command; none for a command that is no instruction of a bundle. -/
def encodeSlot (i : Instr) : Option (SlotOf × Nat × SlotWord) :=
  match i with
  | .sSlotNop c g f => some (.s, c, slotBits (formNo f) g 0x00)
  | .add c g f => some (.s, c, slotBits (formSA f) g 0x01)
  | .sub c g f => some (.s, c, slotBits (formSA f) g 0x02)
  | .mul c g f => some (.s, c, slotBits (formSA f) g 0x03)
  | .and c g f => some (.s, c, slotBits (formSA f) g 0x04)
  | .or c g f => some (.s, c, slotBits (formSA f) g 0x05)
  | .xor c g f => some (.s, c, slotBits (formSA f) g 0x06)
  | .shl c g f => some (.s, c, slotBits (formSA f) g 0x07)
  | .shr c g f => some (.s, c, slotBits (formSA f) g 0x08)
  | .sra c g f => some (.s, c, slotBits (formSA f) g 0x09)
  | .min c g f => some (.s, c, slotBits (formSA f) g 0x0A)
  | .max c g f => some (.s, c, slotBits (formSA f) g 0x0B)
  | .minu c g f => some (.s, c, slotBits (formSA f) g 0x0C)
  | .maxu c g f => some (.s, c, slotBits (formSA f) g 0x0D)
  | .li c g f => some (.s, c, slotBits (formSA f) g 0x0E)
  | .lih c g f => some (.s, c, slotBits (formSA f) g 0x0F)
  | .cmpEq c g f => some (.s, c, slotBits (formSP f) g 0x10)
  | .cmpNe c g f => some (.s, c, slotBits (formSP f) g 0x11)
  | .cmpLt c g f => some (.s, c, slotBits (formSP f) g 0x12)
  | .cmpGe c g f => some (.s, c, slotBits (formSP f) g 0x13)
  | .cmpLtu c g f => some (.s, c, slotBits (formSP f) g 0x14)
  | .cmpGeu c g f => some (.s, c, slotBits (formSP f) g 0x15)
  | .pand c g f => some (.s, c, slotBits (formSL f) g 0x18)
  | .por c g f => some (.s, c, slotBits (formSL f) g 0x19)
  | .pxor c g f => some (.s, c, slotBits (formSL f) g 0x1A)
  | .br c g f => some (.s, c, slotBits (formSB f) g 0x20)
  | .bdec c g f => some (.s, c, slotBits (formSB f) g 0x21)
  | .endProg c g f => some (.s, c, slotBits (formNo f) g 0x22)
  | .rdcyc c g f => some (.s, c, slotBits (formSX f) g 0x28)
  | .rdstep c g f => some (.s, c, slotBits (formSX f) g 0x29)
  | .rdseed c g f => some (.s, c, slotBits (formSX f) g 0x2A)
  | .stepadd c g f => some (.s, c, slotBits (formSX f) g 0x2B)
  | .stepset c g f => some (.s, c, slotBits (formSX f) g 0x2C)
  | .tnop c g f => some (.t, c, slotBits (formNo f) g 0x00)
  | .tclr c g f => some (.t, c, slotBits (formTC f) g 0x01)
  | .tadd c g f => some (.t, c, slotBits (formTA f) g 0x02)
  | .tmmaF4 c g f => some (.t, c, slotBits (formTM f) g 0x10)
  | .tmmaLb4 c g f => some (.t, c, slotBits (formTM f) g 0x11)
  | .tmmaE2m3 c g f => some (.t, c, slotBits (formTM f) g 0x12)
  | .tmmaE3m2 c g f => some (.t, c, slotBits (formTM f) g 0x13)
  | .tmmaE4m3 c g f => some (.t, c, slotBits (formTM f) g 0x14)
  | .tmmaE5m2 c g f => some (.t, c, slotBits (formTM f) g 0x15)
  | .tmmaBf16 c g f => some (.t, c, slotBits (formTM f) g 0x16)
  | .tmmaF16 c g f => some (.t, c, slotBits (formTM f) g 0x17)
  | .vnop c g f => some (.v, c, slotBits (formNo f) g 0x00)
  | .vaddF32 c g f => some (.v, c, slotBits (formVR f) g 0x01)
  | .vsubF32 c g f => some (.v, c, slotBits (formVR f) g 0x02)
  | .vmulF32 c g f => some (.v, c, slotBits (formVR f) g 0x03)
  | .vfmaF32 c g f => some (.v, c, slotBits (formVR f) g 0x04)
  | .vmaxF32 c g f => some (.v, c, slotBits (formVR f) g 0x05)
  | .vminF32 c g f => some (.v, c, slotBits (formVR f) g 0x06)
  | .vaddBf16 c g f => some (.v, c, slotBits (formVR f) g 0x08)
  | .vmulBf16 c g f => some (.v, c, slotBits (formVR f) g 0x09)
  | .vfmaBf16 c g f => some (.v, c, slotBits (formVR f) g 0x0A)
  | .vsqrtF32 c g f => some (.v, c, slotBits (formVR f) g 0x0C)
  | .vrcpF32 c g f => some (.v, c, slotBits (formVR f) g 0x0D)
  | .vrsqrtF32 c g f => some (.v, c, slotBits (formVR f) g 0x0E)
  | .vaddI32 c g f => some (.v, c, slotBits (formVR f) g 0x10)
  | .vsubI32 c g f => some (.v, c, slotBits (formVR f) g 0x11)
  | .vand c g f => some (.v, c, slotBits (formVR f) g 0x12)
  | .vor c g f => some (.v, c, slotBits (formVR f) g 0x13)
  | .vxor c g f => some (.v, c, slotBits (formVR f) g 0x14)
  | .vshlI32 c g f => some (.v, c, slotBits (formVR f) g 0x15)
  | .vshrI32 c g f => some (.v, c, slotBits (formVR f) g 0x16)
  | .vsraI32 c g f => some (.v, c, slotBits (formVR f) g 0x17)
  | .vld c g f => some (.v, c, slotBits (formVM f) g 0x18)
  | .vst c g f => some (.v, c, slotBits (formVM f) g 0x19)
  | .xld c g f => some (.v, c, slotBits (formVM f) g 0x1A)
  | .xst c g f => some (.v, c, slotBits (formVM f) g 0x1B)
  | .xset c g f => some (.v, c, slotBits (formVS f) g 0x1C)
  | .vbcast c g f => some (.v, c, slotBits (formVS f) g 0x1D)
  | .vmovs c g f => some (.v, c, slotBits (formVS f) g 0x1E)
  | .vtrd c g f => some (.v, c, slotBits (formVR f) g 0x20)
  | .vtrdRaw c g f => some (.v, c, slotBits (formVR f) g 0x21)
  | .vcvtF32Bf16 c g f => some (.v, c, slotBits (formVR f) g 0x24)
  | .vpkBf16 c g f => some (.v, c, slotBits (formVR f) g 0x25)
  | .vcvtF32F16 c g f => some (.v, c, slotBits (formVR f) g 0x26)
  | .vpkF16 c g f => some (.v, c, slotBits (formVR f) g 0x27)
  | .vcvtF32I32 c g f => some (.v, c, slotBits (formVR f) g 0x28)
  | .vcvtI32F32 c g f => some (.v, c, slotBits (formVR f) g 0x29)
  | .vqscaleF4 c g f => some (.v, c, slotBits (formVR f) g 0x30)
  | .vqscaleLb4 c g f => some (.v, c, slotBits (formVR f) g 0x31)
  | .vqscaleE2m3 c g f => some (.v, c, slotBits (formVR f) g 0x32)
  | .vqscaleE3m2 c g f => some (.v, c, slotBits (formVR f) g 0x33)
  | .vqscaleE4m3 c g f => some (.v, c, slotBits (formVR f) g 0x34)
  | .vqscaleE5m2 c g f => some (.v, c, slotBits (formVR f) g 0x35)
  | .vpackF4 c g f => some (.v, c, slotBits (formVR f) g 0x38)
  | .vpackLb4 c g f => some (.v, c, slotBits (formVR f) g 0x39)
  | .vpackE2m3 c g f => some (.v, c, slotBits (formVR f) g 0x3A)
  | .vpackE3m2 c g f => some (.v, c, slotBits (formVR f) g 0x3B)
  | .vpackE4m3 c g f => some (.v, c, slotBits (formVR f) g 0x3C)
  | .vpackE5m2 c g f => some (.v, c, slotBits (formVR f) g 0x3D)
  | .vunpkF4 c g f => some (.v, c, slotBits (formVR f) g 0x40)
  | .vunpkLb4 c g f => some (.v, c, slotBits (formVR f) g 0x41)
  | .vunpkE2m3 c g f => some (.v, c, slotBits (formVR f) g 0x42)
  | .vunpkE3m2 c g f => some (.v, c, slotBits (formVR f) g 0x43)
  | .vunpkE4m3 c g f => some (.v, c, slotBits (formVR f) g 0x44)
  | .vunpkE5m2 c g f => some (.v, c, slotBits (formVR f) g 0x45)
  | .mnop c g f => some (.m, c, slotBits (formNo f) g 0x00)
  | .msp c g f => some (.m, c, slotBits (formMS f) g 0x01)
  | .mld c g f => some (.m, c, slotBits (formMD f) g 0x02)
  | .mst c g f => some (.m, c, slotBits (formMD f) g 0x03)
  | .matom c g f => some (.m, c, slotBits (formMA f) g 0x04)
  | .msend c g f => some (.m, c, slotBits (formMN f) g 0x05)
  | .whs c g f => some (.m, c, slotBits (formMW f) g 0x06)
  | .waitw c g f => some (.m, c, slotBits (formMW f) g 0x07)
  | .waitm c g f => some (.m, c, slotBits (formMW f) g 0x08)
  | .post c g f => some (.m, c, slotBits (formMP f) g 0x09)
  | _ => none

/-- The decoder of a slot. -/
def decodeSlot (sl : SlotOf) (c : Nat) (w : SlotWord) : Option Instr :=
  match sl with
  | .s => decodeS c w
  | .t => decodeT c w
  | .v => decodeV c w
  | .m => decodeM c w

end Sys2Proof.Machine
end

