-- ==== Sys2Proof/WellFormed.lean ====
section
/-! DEFINITION. Well-formed commands: indices that name a unit of the module, blocks and frames of the lengths their
formats give, and encodings whose reserved bits are 0. -/

namespace Sys2Proof

/-! ## Units -/

/-- A port, one of 144 (R23). -/
def portOk (p : Nat) : Bool := p < 144
/-- A lane, one of 576 (R23). -/
def laneOk (l : Nat) : Bool := l < 576
/-- A core, one of 32 (R306). -/
def coreOk (c : Nat) : Bool := c < 32
/-- A kennel, one of 4,096 (R186). -/
def kennelOk (k : Nat) : Bool := k < 4096
/-- A queue of a kennel, one of 16 (R198). -/
def queueOk (q : Nat) : Bool := q < 16
/-- A symbol in error of a block of the pool: one of its 36 stored symbols or of the two of its address (R245). -/
def flipOk (f : Flip) : Bool := f.block < 196608 * 32768 && f.sym < 38
/-- A crossbar plane, one of four (R119). -/
def planeOk (k : Nat) : Bool := k < 4
/-- A rail (R479). -/
def railOk (r : Nat) : Bool := r < 13

/-- A register element that exists (R525). -/
def refOk (r : CsrRef) : Bool := (elementOf r).isSome

/-! ## What rows carry -/

/-- A packet's payload is LEN units of 16 bytes, at most 4,096 bytes (R87). -/
def arrivalOk (a : Arrival) : Bool := a.pkt.payload.length ≤ 4096 && a.port < 272

/-- A link frame: eight running totals and four slots of 256 bytes (R71, R72). -/
def frameOk (f : Frame) : Bool :=
  f.credit.length == 8 && f.slots.length == 4 && f.slots.all fun x => x.bytes.length == 256

/-- A TCL frame carries at most 64 data bytes (R497). -/
def tclOk (f : TclFrame) : Bool := f.data.length ≤ 64

/-- A flash slot holds at most 64 MiB (R521). -/
def slotOk (f : FlashSlot) : Bool := f.bytes.length ≤ 2 ^ 26

/-- A WIDTH block names a width of 1, 2 or 4, or 0 with SLEEP set (R49). -/
def widthOk (b : WidthBlk) : Bool := b.width == 1 || b.width == 2 || b.width == 4 || (b.width == 0 && b.sleep)

/-- The skew of a MARKER is one the receiver can measure. -/
def markerOk (m : MarkerBlk) : Bool := m.skewNs < 2 ^ 16 && m.earlyNs < 2 ^ 16

/-! ## Commands -/

def wellFormed (i : Instr) : Bool :=
  match i with
  | .portOff p => portOk p
  | .portBringup p => portOk p
  | .portTest p => portOk p
  | .maxrung p _ => portOk p
  | .retrain p => portOk p
  | .ceilclr p => portOk p
  | .flapclr p => portOk p
  | .sleepreq p _ => portOk p
  | .prbsTxen l _ => laneOk l
  | .prbsRxen l _ => laneOk l
  | .receiverDetect p _ _ => portOk p
  | .trainingFrame l _ => laneOk l
  | .bitlockAchieved p => portOk p
  | .stateTimeout p => portOk p
  | .nolinkHoldEnd p => portOk p
  | .stepEnd p => portOk p
  | .marker l m => laneOk l && markerOk m
  | .markerMissed l => laneOk l
  | .markerSend p => portOk p
  | .cap p _ => portOk p
  | .capSend p => portOk p
  | .fillerSend p => portOk p
  | .filler p => portOk p
  | .idle p => portOk p.port
  | .reservedControlBlock p _ => portOk p
  | .codeword l rx => laneOk l && rx.length == 544
  | .laneLoss l => laneOk l
  | .width p b => portOk p && widthOk b
  | .switchIndex p _ => portOk p
  | .laneReady l => laneOk l
  | .sleepEntryDone l => laneOk l
  | .sleepExitTimeout l => laneOk l
  | .linkFrame p f => portOk p && frameOk f
  | .nakTimeout p => portOk p
  | .replayTimeout p => portOk p
  | .linkSweepStart => true
  | .linkSweepAbort => true
  | .sweepStep => true
  | .packetIngress p _ => portOk p
  | .admissionDecide _ => true
  | .cellSlot plane => planeOk plane
  | .cellArrival _ _ => true
  | .resequenceGapTimeout _ => true
  | .outputServe p => portOk p
  | .lifetimeExpiry _ => true
  | .planeFault k => planeOk k
  | .planeDrainEnd k => planeOk k
  | .planeen _ => true
  | .rounds _ => true
  | .niPacketSend _ => true
  | .rateTick => true
  | .windowSlotIdle i => i < 65536
  | .windowFault w => w < 69633
  | .ackReceived a => arrivalOk a
  | .readRspReceived a => arrivalOk a
  | .atomicRspReceived a => arrivalOk a
  | .errRspReceived a => arrivalOk a
  | .tailWrite a => arrivalOk a
  | .pushWrite a => arrivalOk a
  | .doorbellRead a => arrivalOk a
  | .whistleRead a => arrivalOk a
  | .whistleWrite a => arrivalOk a
  | .whistleFaddI64 a => arrivalOk a
  | .whistleCas64 a => arrivalOk a
  | .counterViewRead a => arrivalOk a
  | .cheadWrite a => arrivalOk a
  | .completionControlRead a => arrivalOk a
  | .kfeaWrite a => arrivalOk a
  | .unservedAccess a => arrivalOk a
  | .poolRead a => arrivalOk a
  | .poolWrite a => arrivalOk a
  | .poolFaddI32 a => arrivalOk a
  | .poolFaddI64 a => arrivalOk a
  | .poolFaddF32 a => arrivalOk a
  | .poolCas64 a => arrivalOk a
  | .hbmAccessDone _ l => l.all flipOk
  | .mirrorWriteTimeout _ => true
  | .patrolScrubStep l => l.all flipOk
  | .slotEntryStart e => e < 1280
  | .translationInvalidate _ _ _ => true
  | .translationInvalidateDone => true
  | .polModeStatic => true
  | .polModeDynamic => true
  | .poolModeChange => true
  | .kcreate _ _ _ _ _ => true
  | .kbindport _ _ => true
  | .kunbindport _ _ => true
  | .kbindrank _ _ _ table => table.length ≤ 65536
  | .kbindpage _ _ => true
  | .kbindkey _ _ => true
  | .kgrantcore _ _ => true
  | .kgrantctr _ _ => true
  | .kqcreate _ _ _ _ => true
  | .kopen _ => true
  | .kreset _ => true
  | .kteardown _ => true
  | .kquery _ => true
  | .kennelResetEnd k => kennelOk k
  | .teardownEnd k => kennelOk k
  | .ktagQuarantineEnd _ => true
  | .descriptorRead k q l => kennelOk k && queueOk q && l.all flipOk
  | .nop k q => kennelOk k && queueOk q
  | .wait k q => kennelOk k && queueOk q
  | .waitTimeout k q _ => kennelOk k && queueOk q
  | .signal k q => kennelOk k && queueOk q
  | .copy k q => kennelOk k && queueOk q
  | .fill k q => kennelOk k && queueOk q
  | .atomic k q => kennelOk k && queueOk q
  | .launch k q => kennelOk k && queueOk q
  | .bcast k q => kennelOk k && queueOk q
  | .bcastv k q => kennelOk k && queueOk q
  | .reduce k q => kennelOk k && queueOk q
  | .reducev k q => kennelOk k && queueOk q
  | .allred k q => kennelOk k && queueOk q
  | .update k q => kennelOk k && queueOk q
  | .fence k q => kennelOk k && queueOk q
  | .timestamp k q => kennelOk k && queueOk q
  | .cancel k q => kennelOk k && queueOk q
  | .commandComplete k q _ => kennelOk k && queueOk q
  | .collData a => arrivalOk a
  | .collResult a => arrivalOk a
  | .collAdmit k q _ => kennelOk k && queueOk q
  | .blockResult _ _ _ _ => true
  | .collTimeout _ => true
  | .laneSelfTestEnd _ => true
  | .coreClaim k q _ => kennelOk k && queueOk q
  | .programLoadDone c => coreOk c
  | .programStart _ => true
  | .programEnd _ => true
  | .launchTimeLimit _ => true
  | .scrubDone c _ => coreOk c
  | .resultWriteback c => coreOk c
  | .moveComplete c _ => coreOk c
  | .staticLanding c => coreOk c
  | .networkLanding c => coreOk c
  | .waitResume c => coreOk c
  | .sSlotNop c _ f => coreOk c && f == 0
  | .add c _ f => coreOk c && f.rsv == 0
  | .sub c _ f => coreOk c && f.rsv == 0
  | .mul c _ f => coreOk c && f.rsv == 0
  | .and c _ f => coreOk c && f.rsv == 0
  | .or c _ f => coreOk c && f.rsv == 0
  | .xor c _ f => coreOk c && f.rsv == 0
  | .shl c _ f => coreOk c && f.rsv == 0
  | .shr c _ f => coreOk c && f.rsv == 0
  | .sra c _ f => coreOk c && f.rsv == 0
  | .min c _ f => coreOk c && f.rsv == 0
  | .max c _ f => coreOk c && f.rsv == 0
  | .minu c _ f => coreOk c && f.rsv == 0
  | .maxu c _ f => coreOk c && f.rsv == 0
  | .li c _ f => coreOk c && f.rsv == 0
  | .lih c _ f => coreOk c && f.rsv == 0
  | .cmpEq c _ f => coreOk c && f.rsv == 0
  | .cmpNe c _ f => coreOk c && f.rsv == 0
  | .cmpLt c _ f => coreOk c && f.rsv == 0
  | .cmpGe c _ f => coreOk c && f.rsv == 0
  | .cmpLtu c _ f => coreOk c && f.rsv == 0
  | .cmpGeu c _ f => coreOk c && f.rsv == 0
  | .pand c _ f => coreOk c && f.rsv == 0
  | .por c _ f => coreOk c && f.rsv == 0
  | .pxor c _ f => coreOk c && f.rsv == 0
  | .br c _ f => coreOk c && f.rsv == 0
  | .bdec c _ f => coreOk c && f.rsv == 0
  | .endProg c _ f => coreOk c && f == 0
  | .rdcyc c _ f => coreOk c && f.rsv == 0
  | .rdstep c _ f => coreOk c && f.rsv == 0
  | .rdseed c _ f => coreOk c && f.rsv == 0
  | .stepadd c _ f => coreOk c && f.rsv == 0
  | .stepset c _ f => coreOk c && f.rsv == 0
  | .tnop c _ f => coreOk c && f == 0
  | .tclr c _ f => coreOk c && f.rsv == 0
  | .tadd c _ f => coreOk c && f.rsv == 0
  | .tmmaF4 c _ f => coreOk c && f.rsv == 0
  | .tmmaLb4 c _ f => coreOk c && f.rsv == 0
  | .tmmaE2m3 c _ f => coreOk c && f.rsv == 0
  | .tmmaE3m2 c _ f => coreOk c && f.rsv == 0
  | .tmmaE4m3 c _ f => coreOk c && f.rsv == 0
  | .tmmaE5m2 c _ f => coreOk c && f.rsv == 0
  | .tmmaBf16 c _ f => coreOk c && f.rsv == 0
  | .tmmaF16 c _ f => coreOk c && f.rsv == 0
  | .vnop c _ f => coreOk c && f == 0
  | .vaddF32 c _ f => coreOk c && f.rsv == 0
  | .vsubF32 c _ f => coreOk c && f.rsv == 0
  | .vmulF32 c _ f => coreOk c && f.rsv == 0
  | .vfmaF32 c _ f => coreOk c && f.rsv == 0
  | .vmaxF32 c _ f => coreOk c && f.rsv == 0
  | .vminF32 c _ f => coreOk c && f.rsv == 0
  | .vaddBf16 c _ f => coreOk c && f.rsv == 0
  | .vmulBf16 c _ f => coreOk c && f.rsv == 0
  | .vfmaBf16 c _ f => coreOk c && f.rsv == 0
  | .vsqrtF32 c _ f => coreOk c && f.rsv == 0
  | .vrcpF32 c _ f => coreOk c && f.rsv == 0
  | .vrsqrtF32 c _ f => coreOk c && f.rsv == 0
  | .vaddI32 c _ f => coreOk c && f.rsv == 0
  | .vsubI32 c _ f => coreOk c && f.rsv == 0
  | .vand c _ f => coreOk c && f.rsv == 0
  | .vor c _ f => coreOk c && f.rsv == 0
  | .vxor c _ f => coreOk c && f.rsv == 0
  | .vshlI32 c _ f => coreOk c && f.rsv == 0
  | .vshrI32 c _ f => coreOk c && f.rsv == 0
  | .vsraI32 c _ f => coreOk c && f.rsv == 0
  | .vld c _ f => coreOk c && f.rsv == 0
  | .vst c _ f => coreOk c && f.rsv == 0
  | .xld c _ f => coreOk c && f.rsv == 0
  | .xst c _ f => coreOk c && f.rsv == 0
  | .xset c _ f => coreOk c && f.rsv == 0
  | .vbcast c _ f => coreOk c && f.rsv == 0
  | .vmovs c _ f => coreOk c && f.rsv == 0
  | .vtrd c _ f => coreOk c && f.rsv == 0
  | .vtrdRaw c _ f => coreOk c && f.rsv == 0
  | .vcvtF32Bf16 c _ f => coreOk c && f.rsv == 0
  | .vcvtF32F16 c _ f => coreOk c && f.rsv == 0
  | .vpkBf16 c _ f => coreOk c && f.rsv == 0
  | .vpkF16 c _ f => coreOk c && f.rsv == 0
  | .vcvtF32I32 c _ f => coreOk c && f.rsv == 0
  | .vcvtI32F32 c _ f => coreOk c && f.rsv == 0
  | .vqscaleF4 c _ f => coreOk c && f.rsv == 0
  | .vqscaleLb4 c _ f => coreOk c && f.rsv == 0
  | .vqscaleE2m3 c _ f => coreOk c && f.rsv == 0
  | .vqscaleE3m2 c _ f => coreOk c && f.rsv == 0
  | .vqscaleE4m3 c _ f => coreOk c && f.rsv == 0
  | .vqscaleE5m2 c _ f => coreOk c && f.rsv == 0
  | .vpackF4 c _ f => coreOk c && f.rsv == 0
  | .vpackLb4 c _ f => coreOk c && f.rsv == 0
  | .vpackE2m3 c _ f => coreOk c && f.rsv == 0
  | .vpackE3m2 c _ f => coreOk c && f.rsv == 0
  | .vpackE4m3 c _ f => coreOk c && f.rsv == 0
  | .vpackE5m2 c _ f => coreOk c && f.rsv == 0
  | .vunpkF4 c _ f => coreOk c && f.rsv == 0
  | .vunpkLb4 c _ f => coreOk c && f.rsv == 0
  | .vunpkE2m3 c _ f => coreOk c && f.rsv == 0
  | .vunpkE3m2 c _ f => coreOk c && f.rsv == 0
  | .vunpkE4m3 c _ f => coreOk c && f.rsv == 0
  | .vunpkE5m2 c _ f => coreOk c && f.rsv == 0
  | .mnop c _ f => coreOk c && f == 0
  | .msp c _ f => coreOk c && f.rsv == 0
  | .mld c _ f => coreOk c && f.rsv == 0
  | .mst c _ f => coreOk c && f.rsv == 0
  | .matom c _ f => coreOk c && f.rsv == 0
  | .msend c _ f => coreOk c && f.rsv == 0
  | .whs c _ f => coreOk c && f.rsv == 0
  | .waitw c _ f => coreOk c && f.rsv == 0
  | .waitm c _ f => coreOk c && f.rsv == 0
  | .post c _ f => coreOk c && f.rsv == 0
  | .start a => arrivalOk a
  | .time a => arrivalOk a
  | .timeSend p => portOk p
  | .timeHoldover => true
  | .align => true
  | .alignEffect => true
  | .noadapt _ => true
  | .nofast _ => true
  | .kscent _ _ _ _ _ _ _ => true
  | .scentSpaceReturn k => kennelOk k
  | .tensorDigestDone _ => true
  | .stage image => image.length ≤ 2 ^ 21
  | .stageDone => true
  | .commit => true
  | .rollback => true
  | .epoch a => arrivalOk a
  | .epochFlip => true
  | .epochDrainEnd => true
  | .feaLock => true
  | .romBoot a b => slotOk a && slotOk b
  | .kelpieRestart => true
  | .monLock _ _ => true
  | .seqOpen => true
  | .seqGo => true
  | .seqTimeout => true
  | .authdataChallenge => true
  | .authdataToken _ => true
  | .keygen _ => true
  | .keyzero _ => true
  | .mirset _ _ _ => true
  | .rsetown _ _ _ => true
  | .rtvquota _ _ => true
  | .spgfloor _ => true
  | .svnfloor _ _ => true
  | .dbgunlock _ _ => true
  | .linksec _ _ => true
  | .lcstrans _ _ _ => true
  | .fwload _ image => image.length ≤ 2 ^ 21
  | .kmap _ _ _ _ => true
  | .kunmap _ _ => true
  | .kprot _ _ _ => true
  | .hndsev _ _ => true
  | .hndforce _ _ => true
  | .ctrsamp _ _ _ _ => true
  | .getVersion => true
  | .getCapabilities => true
  | .negotiateAlgorithms => true
  | .getDigests => true
  | .getCertificate _ => true
  | .challenge _ nonce => nonce.length == 32
  | .getMeasurements _ nonce => nonce.length == 32
  | .vendorMlDsaSignature => true
  | .linkKeyMessage a => arrivalOk a
  | .linktag a => arrivalOk a
  | .linktagTimeout p => portOk p
  | .recordClose p => portOk p
  | .linkRekey p => portOk p
  | .twinEntryExpiry _ _ => true
  | .renew _ => true
  | .claim _ => true
  | .heartbeatSend => true
  | .heartbeatTimeout => true
  | .claimComplete => true
  | .mate a => arrivalOk a
  | .mateSend => true
  | .yield => true
  | .claimEnable _ => true
  | .leashMode _ => true
  | .resyncGo => true
  | .resyncComplete a => arrivalOk a
  | .houndSourceAssert i _ => i < 1024
  | .houndParityError => true
  | .stickyClear w _ => w < 32
  | .supplyOkRise _ _ => true
  | .supplyOkFall => true
  | .powerUp => true
  | .powerDown => true
  | .railGood r => railOk r
  | .railEnableTimeout r => railOk r
  | .railWindowFault r => railOk r
  | .railDischarged r => railOk r
  | .supplyWaitEnd => true
  | .stacksTrained _ => true
  | .epo => true
  | .governorInstant => true
  | .holdExpiry c => coreOk c
  | .estimatorRefresh rails _ _ => rails.length == 13
  | .estimatorCalibrate => true
  | .thermalThreshold readings => readings.length == 40
  | .tclGo => true
  | .tclBytes _ => true
  | .tclFrameStart _ => true
  | .tclBackoffEnd => true
  | .tclAnswerTimeout => true
  | .tclAck f => tclOk f
  | .tclData f => tclOk f
  | .tclReject f => tclOk f
  | .tclError f => tclOk f
  | .pwrGpioWrite _ _ => true
  | .trayrailWrite _ => true
  | .srecPop _ => true
  | .counterClearingRead r => refOk r.ref
  | .registerWrite _ r _ => refOk r
  | .patternCheck l _ => laneOk l
  | .nonMonitorMonRead _ r => refOk r.ref
  | .traymateTclFrame f => tclOk f
  | .mateseenExpiry => true
  | .hbmRetrainDone => true
  | .perBankRefresh stack => stack < 8
  | .reporterRequest r => refOk r

end Sys2Proof
end

