-- ==== Sys2Proof/Safety.lean ====
section
/-! DEFINITION. The terms that statements use: a module that runs, a command that issues, a core that issues, and the
invariants of the state. -/

namespace Sys2Proof.Machine

/-- The module is not in the safe state, and no action of Hound waits. -/
abbrev Quiet (s : State) : Prop := s.sealed' = false ∧ s.hnd.todo = []

/-- Neither die is held in reset nor stopped by a power-down (R482, R483). -/
abbrev Runs (s : State) : Prop := Quiet s ∧ s.fabRuns = true ∧ s.cmpRuns = true

/-- The monitor serves calls (R410, R411, R425). -/
abbrev Served (s : State) : Prop := Runs s ∧ servesCalls s = true

/-- No packet of a port waits in receive staging, nor for its acknowledgement. -/
abbrev LinkEmpty (s : State) (p : Nat) : Prop :=
  (s.link p).replay = [] ∧ ∀ v, v < 8 → ((s.link p).vc v).bytes = []

/-- The pool's memory and Kelpie's SRAM are in their canonical form. -/
abbrev MemOk (s : State) : Prop := s.pool.wf = true ∧ sramWf s.klp.sram = true

/-- The commands that act in the safe state: Hound, its reporter, the power manager and Kelpie's restart and boot run on (R473,
R474); every other
command leaves a module in the safe state as it is. DEDUCED, log entry 61: unsafe. -/
def actsSealed (i : Instr) : Bool :=
  match i with
  | .houndSourceAssert _ _ | .houndParityError | .reporterRequest _ | .perBankRefresh _ | .supplyOkRise _ _
  | .supplyOkFall | .railGood _ | .railEnableTimeout _ | .railWindowFault _ | .railDischarged _ | .supplyWaitEnd
  | .stacksTrained _ | .epo | .estimatorRefresh _ _ _ | .estimatorCalibrate | .thermalThreshold _ | .kelpieRestart
  | .romBoot _ _ => true
  | _ => false

/-- A core that issues a bundle in this cycle. -/
abbrev Issues (s : State) (c : Nat) : Prop := Quiet s ∧ c < 32 ∧ issuing s c = true

/-- What the hazard checker finds on an instruction of core `c` that uses `u` (R326, R341). -/
def checked (s : State) (c : Nat) (g : Guard) (u : Uses) : Option Nat := (s.core c).check s.cyc.toNat g u

/-- What a slot's command `i` of a core that issues does, `u` being what it uses and `t` the state after its own effect:
that effect when no check fails and its guard holds, the stop of the core when a check fails (R326, R327), nothing when its
guard is false (R341). -/
abbrev SlotRuns (s : State) (c : Nat) (g : Guard) (u : Uses) (i : Instr) (t : State) : Prop :=
  (checked s c g u = none → (s.core c).guard g = true → exec i s = .next t) ∧
  (checked s c g u = none → (s.core c).guard g = false → exec i s = .next s) ∧
  (∀ cause, checked s c g u = some cause → exec i s = .next (settle (hazardStop c cause s)))

/-- No test of the translation or of the memory stops an access of the module itself to a kennel's pages (R234, R241,
R246). -/
abbrev RangeOk (s : State) (k va : Nat) (op : PoolOp) : Prop :=
  s.dieOut = false ∧ s.pool.errs = [] ∧ refusedPages s k va op false = none ∧
    (blocksOf s k va op.len).any (blockLost s) = false

/-- The accesses of the pool that stay when collective `id` ends: all but those of its own that are not served (R295). -/
def accsWithout (s : State) (id : Nat) : List PoolAcc :=
  s.pool.accs.filter fun a => match a.asker with
    | .retr i _ => i != id || a.served
    | _ => true

/-- The head of queue `q` of kennel `k` is the descriptor `d`, and it may issue (R204, R206). -/
abbrev Issuable (s : State) (k q : Nat) (x : Queue) (d : Desc) : Prop :=
  Runs s ∧ k < 4096 ∧ s.queue k q = some x ∧ x.ahead.head? = some d ∧ mayIssue s k q x d = true ∧
    findCmd s k q d.seq = none

/-- A descriptor header that validation passes (R205, R207). -/
abbrev HeaderOk (s : State) (k : Nat) (d : Desc) : Prop :=
  headerBad d = false ∧ headerProt s k d = false ∧ bit d.flags 1 = false

/-- The command that a descriptor becomes when it issues. -/
def issuedCmd (s : State) (k q : Nat) (d : Desc) : Cmd :=
  { k := k, q := q, seq := d.seq, desc := d.bytes, opc := d.opc,
    repro := bit d.flags 1 || (s.kennel k).repro, fen := d.fence, issuedAt := s.time }

/-- The state after the head of a queue has issued as command `c` (R204): it is no longer ahead of issue. -/
def issuedAs (s : State) (k q : Nat) (c : Cmd) : State :=
  { modQueue k q (fun y => { y with ahead := y.ahead.drop 1 }) s with cmds := s.cmds ++ [c] }

end Sys2Proof.Machine
end

