-- ==== Sys2Proof/Certificates/Slice0/Obligations.lean ====
section
/-! DEFINITION. The statements about the model. -/

open Sys2Proof Sys2Proof.Machine

/-! ## Ports and lanes (spec/02): LNE_PCTL, LNE_PRBS -/
/-- R64: a write that changes MODE to 0 puts the port in OFF, one that changes it to 1 starts the bring-up in DETECT at
rung 0; R63: one that changes it to 2 starts in DETECT at the MAXRUNG rung toward TEST; R466: a port-fatal source whose sticky bit
stands blocks each of them, and R414: Kelpie's reporter leaves every port OFF; a write of the value that MODE holds changes nothing.
R45: MAXRUNG holds what was written.  R64: CEILCLR is noted for the next bring-up, which starts with ceiling 3,
FLAPCLR re-admits the excluded lanes (R53), RETRAIN comes up again from DETECT at the port's rung (R43), in STEP at
the rung before the step (R45), and leaves OFF, TEST and SLEEP alone.  Each changes nothing else.
R406: a module that has not accepted feature 17 ignores a sleep mask.  R57, R59: in OFF a mask is stored; one that leaves three lanes awake is ignored;
in ACTIVE with a width change in progress it waits for the change's end.  R58: a port in SLEEP comes up in DETECT
when bits of its mask are cleared, with the lanes then clear retained, and stays asleep when none is.
R68: TXEN and RXEN hold what is written and act only in TEST; a checker that is switched on starts
unsynchronised; R61: a synchronised checker advances the pattern by itself and counts each bit that differs from it in
LNE_PRBS_ERR. -/
def Obligations.PortControl : Prop :=
  (
  ∀ (s : State) (p : Nat), p < 144 → Runs s →
    (modeBlocked s p = false → s.klp.mode ≠ .reporter → (s.port p).forced = false → s.xbr.flows = [] → LinkEmpty s p →
      (s.rd F.LNE_PCTL_MODE p ≠ 0 → ∃ t, exec (.portOff p) s = .next t ∧ t.rd F.LNE_PCTL_MODE p = 0 ∧
        (t.port p).st = .off ∧ (t.port p).rung = (s.port p).rung ∧ (t.port p).map = 0 ∧
        (∀ q, q ≠ p → t.port q = s.port q) ∧ (∀ l, l / 4 ≠ p → t.lane l = s.lane l) ∧
        (∀ i, i < 4 → (t.lane (4 * p + i)).bitLock = false ∧ (t.lane (4 * p + i)).asleep = false) ∧
        (∀ g j, fkey g j ≠ fkey F.LNE_PCTL_MODE p → fkey g j ≠ fkey F.LNE_EVT_DOWN p → t.rd g j = s.rd g j) ∧
        t = { s with csr := t.csr, ports := t.ports, lanes := t.lanes, phy := t.phy, links := t.links, xbr := t.xbr,
                     sweep := t.sweep }) ∧
      (s.rd F.LNE_PCTL_MODE p ≠ 1 → ∃ t, exec (.portBringup p) s = .next t ∧ t.rd F.LNE_PCTL_MODE p = 1 ∧
        (t.port p).st = .detect ∧ (t.port p).rung = 0 ∧ (t.port p).retained = 0 ∧
        ((s.port p).ceilClr = true → (t.port p).ceil = 3) ∧ (t.port p).climbing = true ∧
        (t.port p).testing = false ∧ (∀ q, q ≠ p → t.port q = s.port q) ∧
        (∀ l, l / 4 ≠ p → t.lane l = s.lane l) ∧
        (∀ g j, fkey g j ≠ fkey F.LNE_PCTL_MODE p → fkey g j ≠ fkey F.LNE_EVT_DOWN p → t.rd g j = s.rd g j) ∧
        t = { s with csr := t.csr, ports := t.ports, lanes := t.lanes, phy := t.phy, links := t.links, xbr := t.xbr,
                     sweep := t.sweep }) ∧
      (s.rd F.LNE_PCTL_MODE p ≠ 2 → ∃ t, exec (.portTest p) s = .next t ∧ t.rd F.LNE_PCTL_MODE p = 2 ∧
        (t.port p).st = .detect ∧ (t.port p).rung = s.rd F.LNE_PCTL_MAXRUNG p ∧ (t.port p).testing = true ∧
        (t.port p).retained = 0 ∧
        (∀ q, q ≠ p → t.port q = s.port q) ∧ (∀ l, l / 4 ≠ p → t.lane l = s.lane l) ∧
        (∀ g j, fkey g j ≠ fkey F.LNE_PCTL_MODE p → fkey g j ≠ fkey F.LNE_EVT_DOWN p → t.rd g j = s.rd g j) ∧
        t = { s with csr := t.csr, ports := t.ports, lanes := t.lanes, phy := t.phy, links := t.links, xbr := t.xbr,
                     sweep := t.sweep })) ∧
    (s.rd F.LNE_PCTL_MODE p = 0 ∨ modeBlocked s p = true ∨ s.klp.mode = .reporter → exec (.portOff p) s = .next s) ∧
    (s.rd F.LNE_PCTL_MODE p = 1 ∨ modeBlocked s p = true ∨ s.klp.mode = .reporter → exec (.portBringup p) s = .next s) ∧
    (s.rd F.LNE_PCTL_MODE p = 2 ∨ modeBlocked s p = true ∨ s.klp.mode = .reporter → exec (.portTest p) s = .next s)
  ) ∧
  (
  ∀ (s : State) (p : Nat), p < 144 → Runs s →
    (∀ v, exec (.maxrung p v) s = .next (s.wr F.LNE_PCTL_MAXRUNG v.toNat p)) ∧
    exec (.ceilclr p) s = .next (s.modPort p fun x => { x with ceilClr := true }) ∧
    ((s.port p).st ≠ .active → ∃ t, exec (.flapclr p) s = .next t ∧ t = { s with lanes := t.lanes } ∧
      (∀ i, i < 4 → t.lane (4 * p + i) = { s.lane (4 * p + i) with excluded := false }) ∧
      ∀ l, l / 4 ≠ p → t.lane l = s.lane l) ∧
    (s.xbr.flows = [] → LinkEmpty s p → (s.port p).forced = false → (s.port p).testing = false →
      (s.port p).st ∉ [PSt.off, .test, .sleep] → ∃ t, exec (.retrain p) s = .next t ∧
        (t.port p).st = .detect ∧ (t.port p).climbing = false ∧
        ((s.port p).st ≠ .step → (t.port p).rung = (s.port p).rung) ∧
        (∀ r, (s.port p).st = .step → (s.port p).worked = some r → (t.port p).rung = r) ∧
        (∀ q, q ≠ p → t.port q = s.port q) ∧ (∀ l, l / 4 ≠ p → t.lane l = s.lane l) ∧
        (∀ g j, fkey g j ≠ fkey F.LNE_EVT_DOWN p → t.rd g j = s.rd g j) ∧
        t = { s with csr := t.csr, ports := t.ports, lanes := t.lanes, phy := t.phy, links := t.links, xbr := t.xbr,
                     sweep := t.sweep }) ∧
    ((s.port p).st ∈ [PSt.off, .test, .sleep] → exec (.retrain p) s = .next s)
  ) ∧
  (
  ∀ (s : State) (p : Nat) (m : BitVec 4), p < 144 → Runs s →
    (s.feature 17 = false ∨ mapCount (15 - m.toNat) = 3 → exec (.sleepreq p m) s = .next s) ∧
    (s.feature 17 = true → mapCount (15 - m.toNat) ≠ 3 → (s.port p).st = .off →
      exec (.sleepreq p m) s = .next (s.wr F.LNE_PCTL_SLEEPREQ m.toNat p)) ∧
    (s.feature 17 = true → mapCount (15 - m.toNat) ≠ 3 → (s.port p).st = .active → (s.port p).chg.isSome = true →
      (s.port p).farCaps.getLsbD 0 = true →
      exec (.sleepreq p m) s = .next ((s.wr F.LNE_PCTL_SLEEPREQ m.toNat p).modPort p
        fun x => { x with sleepWait := some m })) ∧
    (s.feature 17 = true → mapCount (15 - m.toNat) ≠ 3 → (s.port p).st = .sleep →
      s.rd F.LNE_PCTL_SLEEPREQ p &&& (15 - m.toNat) = 0 →
      exec (.sleepreq p m) s = .next (s.wr F.LNE_PCTL_SLEEPREQ m.toNat p)) ∧
    (s.feature 17 = true → mapCount (15 - m.toNat) ≠ 3 → s.rd F.LNE_PCTL_SLEEPREQ p &&& (15 - m.toNat) ≠ 0 →
      (s.port p).st = .sleep → (s.port p).forced = false →
      ∃ t, exec (.sleepreq p m) s = .next t ∧ t.rd F.LNE_PCTL_SLEEPREQ p = m.toNat ∧
        (t.port p).st = .detect ∧ (t.port p).retained = 15 - m ∧ (∀ q, q ≠ p → t.port q = s.port q) ∧
        t = { s with csr := t.csr, ports := t.ports, lanes := t.lanes, phy := t.phy })
  ) ∧
  (
  ∀ (s : State) (l : Nat), l < 576 → Runs s →
    (∀ v, exec (.prbsTxen l v) s = .next (s.wr F.LNE_PRBS_TXEN (b2n v) l)) ∧
    (∀ v, (v = true → s.rdB F.LNE_PRBS_RXEN l = false) →
      exec (.prbsRxen l v) s = .next ((s.wr F.LNE_PRBS_RXEN (b2n v) l).modLane l
        fun x => { x with sync := false, prbs := [] })) ∧
    (s.rdB F.LNE_PRBS_RXEN l = true → exec (.prbsRxen l true) s = .next (s.wr F.LNE_PRBS_RXEN 1 l)) ∧
    ((s.port (l / 4)).st = .test → s.rdB F.LNE_PRBS_RXEN l = true → (s.lane l).sync = true → ∀ b,
      exec (.patternCheck l [b]) s = .next
        (let want := if (s.port (l / 4)).rung = 0 then prbs31Next (s.lane l).prbs else prbs13Next (s.lane l).prbs
         let t := s.modLane l fun x => { x with prbs := (want :: x.prbs).take 31 }
         if b = want then t else t.count F.LNE_PRBS_ERR_COUNT l)) ∧
    ((s.port (l / 4)).st ≠ .test → ∀ bs, exec (.patternCheck l bs) s = .next s)
  )


/-! ## Bring-up (spec/02) -/
/-- R38: a receiver detect that sees the far end on every lane it needs starts TRAIN with those lanes active; one that
does not, or that comes within the hold of R44, leaves the port in DETECT.  R44: the end of the hold.  R38: STEP ends in
TRAIN.
R38: a training frame on an active lane of a port in TRAIN applies the far end's tap requests, each tap by itself, and
forms the status field that answers them, and the port goes to
BITLOCK once every active lane has had three ready frames in a row; R42: bit lock on the active lanes leads to MARKLOCK,
and R63: to TEST on the way to TEST. -/
def Obligations.PortBringUp : Prop :=
  (
  ∀ (s : State) (p : Nat), p < 144 → Runs s →
    (∀ seen cart, (s.port p).st = .detect →
      let need : BitVec 4 := if (s.port p).retained = 0 then 0xF else (s.port p).retained
      ((s.port p).hold = false → seen &&& need = need →
        ∃ t, exec (.receiverDetect p seen cart) s = .next t ∧ (t.port p).st = .train ∧
          (t.port p).rung = (s.port p).rung ∧ (t.port p).map = need ∧ (t.port p).tx = need ∧ (t.port p).width = mapCount need.toNat ∧
          (t.port p).ownCart = cart ∧ (∀ q, q ≠ p → t.port q = s.port q) ∧
          (∀ l, l / 4 ≠ p → t.lane l = s.lane l) ∧ t = { s with ports := t.ports, lanes := t.lanes }) ∧
      ((s.port p).hold = true ∨ seen &&& need ≠ need →
        exec (.receiverDetect p seen cart) s = .next (s.modPort p fun x => { x with ownCart := cart }))) ∧
    (∀ seen cart, (s.port p).st ≠ .detect → exec (.receiverDetect p seen cart) s = .next s) ∧
    exec (.nolinkHoldEnd p) s = .next (s.modPort p fun x => { x with hold := false }) ∧
    ((s.port p).st = .step → ∃ t, exec (.stepEnd p) s = .next t ∧ (t.port p).st = .train ∧
      (t.port p).rung = (s.port p).rung ∧ t = { s with ports := t.ports, lanes := t.lanes }) ∧
    ((s.port p).st ≠ .step → exec (.stepEnd p) s = .next s)
  ) ∧
  (
  ∀ (s : State) (p i : Nat), p < 144 → i < 4 → Runs s →
    (∀ f, (s.port p).st = .train → (s.port p).map.getLsbD i = true →
      ∃ t, exec (.trainingFrame (4 * p + i) f) s = .next t ∧
        (f.preset = true → (t.lane (4 * p + i)).tapPre = 0 ∧ (t.lane (4 * p + i)).tapMain = 0 ∧
          (t.lane (4 * p + i)).tapPost = 0) ∧
        (f.preset = false → f.limPre = false → f.limMain = false → f.limPost = false →
          (f.reqMain = 1 → (t.lane (4 * p + i)).tapMain = (s.lane (4 * p + i)).tapMain + 1) ∧
          (f.reqMain = 2 → (t.lane (4 * p + i)).tapMain = (s.lane (4 * p + i)).tapMain - 1) ∧
          (f.reqPre = 1 → (t.lane (4 * p + i)).tapPre = (s.lane (4 * p + i)).tapPre + 1) ∧
          (f.reqPost = 2 → (t.lane (4 * p + i)).tapPost = (s.lane (4 * p + i)).tapPost - 1)) ∧
        (f.preset = false → f.limMain = true → (t.lane (4 * p + i)).tapMain = (s.lane (4 * p + i)).tapMain) ∧
        (t.lane (4 * p + i)).status = BitVec.ofNat 8 (statusField f) ∧ (t.lane (4 * p + i)).polInv = f.inverted ∧
        ((t.port p).st = .bitlock ↔
          ∀ j, j < 4 → (s.port p).map.getLsbD j = true → 3 ≤ (t.lane (4 * p + j)).rdyRun) ∧
        (∀ q, q ≠ p → t.port q = s.port q) ∧ t = { s with ports := t.ports, lanes := t.lanes, phy := t.phy }) ∧
    ((s.port p).st = .bitlock → ∃ t, exec (.bitlockAchieved p) s = .next t ∧
      (t.port p).st = (if (s.port p).testing then .test else .marklock) ∧
      ((s.port p).map.getLsbD i = true → (t.lane (4 * p + i)).bitLock = true) ∧
      (∀ l, l / 4 ≠ p → t.lane l = s.lane l) ∧ t = { s with ports := t.ports, lanes := t.lanes })
  )

/-- R42 to R44: the first failed attempt of a climb trains again at the same rung; the second falls back to the last
rung that worked and lowers the ceiling to it, or, where none has, holds the port in DETECT at rung 0; a
port that comes up without climbing tries its rung once more from DETECT.  Each failure sets STEPFAIL.
R47 to R49, R53: the loss of one of four healthy lanes of an ACTIVE port sets the lane aside, records the time and
starts a fallback to the two lowest-numbered lanes left, 32 codeword sets ahead, with a WIDTH block on each of them. -/
def Obligations.PortFailures : Prop :=
  (
  ∀ (s : State) (p : Nat), p < 144 → Runs s → (s.port p).testing = false → (s.port p).forced = false →
    (s.port p).st ∈ [PSt.train, .bitlock, .marklock, .capx, .step] →
    ((s.port p).climbing = true → (s.port p).fails = 0 → ∃ t, exec (.stateTimeout p) s = .next t ∧
      (t.port p).st = .train ∧ (t.port p).rung = (s.port p).rung ∧ (t.port p).fails = 1 ∧
      t.rd F.LNE_EVT_STEPFAIL p = 1 ∧ t = { s with csr := t.csr, ports := t.ports, lanes := t.lanes, phy := t.phy }) ∧
    ((s.port p).climbing = true → (s.port p).fails ≠ 0 → (s.port p).worked = none →
      ∃ t, exec (.stateTimeout p) s = .next t ∧ (t.port p).st = .detect ∧ (t.port p).rung = 0 ∧
        (t.port p).hold = true ∧ t.rd F.LNE_EVT_STEPFAIL p = 1 ∧ t.rd F.LNE_EVT_NOLINK p = 1 ∧
        t = { s with csr := t.csr, ports := t.ports, lanes := t.lanes, phy := t.phy }) ∧
    (∀ r, (s.port p).climbing = true → (s.port p).fails ≠ 0 → (s.port p).worked = some r →
      ∃ t, exec (.stateTimeout p) s = .next t ∧ (t.port p).st = .detect ∧ (t.port p).rung = r ∧
        (t.port p).ceil = r ∧ (t.port p).climbing = false ∧ t.rd F.LNE_EVT_STEPFAIL p = 1 ∧
        t.rd F.LNE_EVT_FALLBACK p = 1 ∧
        t = { s with csr := t.csr, ports := t.ports, lanes := t.lanes, phy := t.phy }) ∧
    ((s.port p).climbing = false → (s.port p).fails = 0 → ∃ t, exec (.stateTimeout p) s = .next t ∧
      (t.port p).st = .detect ∧ (t.port p).rung = (s.port p).rung ∧ (t.port p).fails = 1 ∧
      t.rd F.LNE_EVT_STEPFAIL p = 1 ∧ t = { s with csr := t.csr, ports := t.ports, lanes := t.lanes, phy := t.phy })
  ) ∧
  (
  ∀ (s : State) (p i : Nat), p < 144 → i < 4 → Runs s → (s.port p).st = .active → (s.port p).map = 0xF →
    (s.port p).tx = 0xF →
    (s.port p).chg = none → (∀ j, j < 4 → (s.lane (4 * p + j)).healthy = true ∧ (s.lane (4 * p + j)).seen = false) →
    (recentLosses s.clock (s.lane (4 * p + i)).lossTimes).length < 3 →
    ∃ t, exec (.laneLoss (4 * p + i)) s = .next t ∧ (t.lane (4 * p + i)).lost = true ∧
      (t.lane (4 * p + i)).lossTimes = s.clock :: recentLosses s.clock (s.lane (4 * p + i)).lossTimes ∧
      (t.port p).chg = some { kind := .fallback, width := 2,
                              map := if i = 0 then 6 else if i = 1 then 5 else 3,
                              txAt := (s.port p).setIdx + 32, rxAt := none,
                              oldWidth := (s.port p).width, oldMap := 0xF,
                              tx := if i = 0 then 6 else if i = 1 then 5 else 3 } ∧
      (∀ k, k ≠ 4 * p + i → t.lane k = s.lane k) ∧
      (∀ j, j < 4 → ((if i = 0 then 6 else if i = 1 then 5 else 3 : BitVec 4)).getLsbD j = true →
        ((Tbl.get (t.line p).local' j []).getLast?).any (fun b => b.bytes.take 4 == [0x2D, 0, 2,
          if i = 0 then 6 else if i = 1 then 5 else 3])) ∧
      t = { s with ports := t.ports, lanes := t.lanes, phy := t.phy }
  )

/-- R33 and R34: a MARKER updates its lane's far lane number, skew and lock, which two markers one period apart with
consecutive numbers give; R35, R66: a spread above 64 ns after MARKLOCK sets DESKEW; R38: in MARKLOCK the last active lane to lock within 64 ns leads to CAPX.  R33: one missed marker
is remembered, the second drops the lock.  R32: each marker sent raises MSEQ and restarts the codeword-set index, and each active lane's MARKER block goes before what
waits for its next codeword.
R41: a valid CAP block in CAPX records the far end's rungs, capabilities and identity, an invalid one nothing;
a CAP block is sent with ACK once a valid one has come; until the far end's first ACK one sent counts none, and the eighth one after it leads to STEP
when both ends sent STEP and otherwise to ACTIVE (R40).  R36, R37, R31, R75: FILLER and reserved blocks, and IDLE
blocks, which inside a frame make the receiver resynchronise.
R28: a codeword without an error resets its lane's run of uncorrectable ones; an uncorrectable one is counted in
LNE_FEC_UCW.  On an active lane it lengthens the run, and on an ACTIVE port the receiver resynchronises (R75). -/
def Obligations.PortBlocks : Prop :=
  (
  ∀ (s : State) (p i : Nat) (m : MarkerBlk), p < 144 → i < 4 → Runs s → m.errored = false →
    ((s.port p).st ∈ [PSt.capx, .active] → (s.lane (4 * p + i)).bitLock = true →
      let u := s.modLane (4 * p + i) fun x =>
        { x with farLane := m.lane, seen := true, lastSeq := some m.mseq, missed := 0, skew := m.skewNs,
                 early := m.earlyNs, markLock := x.markLock || (m.onTime && x.lastSeq == some (m.mseq - 1)) }
      (spread u (4 * p + i) ≤ 64 → exec (.marker (4 * p + i) m) s = .next u) ∧
      (64 < spread u (4 * p + i) → exec (.marker (4 * p + i) m) s = .next (u.wr F.LNE_EVT_DESKEW 1 p))) ∧
    ((s.port p).st = .marklock → (s.lane (4 * p + i)).bitLock = true → (s.port p).map.getLsbD i = true →
      m.onTime = true → (s.lane (4 * p + i)).lastSeq = some (m.mseq - 1) → m.skewNs ≤ 64 →
      (∀ j, j < 4 → j ≠ i → (s.port p).map.getLsbD j = true →
        (s.lane (4 * p + j)).markLock = true ∧ (s.lane (4 * p + j)).skew ≤ 64) →
      ∃ t, exec (.marker (4 * p + i) m) s = .next t ∧ (t.port p).st = .capx ∧
        (t.lane (4 * p + i)).markLock = true ∧ (∀ q, q ≠ p → t.port q = s.port q) ∧
        t = { s with ports := t.ports, lanes := t.lanes, det := t.det }) ∧
    ((s.lane (4 * p + i)).markLock = true → (s.lane (4 * p + i)).missed = 0 →
      exec (.markerMissed (4 * p + i)) s = .next (s.modLane (4 * p + i) fun x => { x with missed := 1 })) ∧
    ((s.lane (4 * p + i)).markLock = true → (s.lane (4 * p + i)).missed ≠ 0 → (s.port p).st ≠ .active →
      exec (.markerMissed (4 * p + i)) s = .next (s.modLane (4 * p + i) fun x =>
        { x with markLock := false, missed := 0, lastSeq := none })) ∧
    ((s.port p).st ∈ [PSt.bitlock, .marklock, .capx, .active] → ∃ t, exec (.markerSend p) s = .next t ∧
      (t.port p).mseq = (s.port p).mseq + 1 ∧ (t.port p).setIdx = 0 ∧
      ((txMap (s.port p)).getLsbD i = true → Tbl.get (t.line p).local' i [] =
        markerBlk i (mapCount (txMap (s.port p)).toNat) (txMap (s.port p)).toNat ((s.port p).mseq + 1).toNat (s.port p).rung ::
          Tbl.get (s.line p).local' i []) ∧ t = { s with ports := t.ports, phy := t.phy })
  ) ∧
  (
  ∀ (s : State) (p : Nat), p < 144 → Runs s →
    (∀ b, (s.port p).st = .capx → b.errored = false → b.rungs.getLsbD (s.port p).rung = true →
      s.rd F.DET_TSRC_PORT ≠ p → exec (.cap p b) s = .next (s.modPort p fun x =>
        { x with capFar := true, farRungs := b.rungs, farCaps := b.caps, ident := some b.ident,
                 farAck := x.farAck || b.ack, farStep := x.farStep || (b.ack && b.step) })) ∧
    (∀ b, (s.port p).st ≠ .capx ∨ b.errored = true ∨ b.rungs.getLsbD (s.port p).rung = false →
      exec (.cap p b) s = .next s) ∧
    ((s.port p).st = .capx → (s.port p).capFar = true → (s.port p).farAck = false → (s.port p).acksSent = 0 →
      exec (.capSend p) s = .next ((sendBlks p [capBlk (ownCap s p)] s).modPort p
        fun x => { x with stepSent := x.stepSent || wantsStep s p })) ∧
    ((s.port p).st = .capx → (s.port p).capFar = false → (ownCap s p).ack = false ∧
      exec (.capSend p) s = .next (sendBlks p [capBlk (ownCap s p)] s)) ∧
    (s.line p = {} → (s.port p).st = .capx → (s.port p).sinceFill < 4095 → (s.port p).capFar = false →
      ∃ t, exec (.capSend p) s = .next t ∧ (t.line p).stream = [capBlk (ownCap s p)] ∧
        (t.port p).sinceFill = (s.port p).sinceFill + 1) ∧
    ((s.port p).st = .capx → (s.port p).capFar = true → (s.port p).farAck = true → (s.port p).acksSent = 7 →
      (s.port p).stepSent = true → (s.port p).farStep = true → ∃ t, exec (.capSend p) s = .next t ∧
        (t.port p).st = .step ∧ (t.port p).rung = (s.port p).rung + 1 ∧
        (t.port p).worked = some (s.port p).rung ∧ (∀ l, l / 4 ≠ p → t.lane l = s.lane l) ∧
        (s.line p = {} → (t.line p).stream = []) ∧ ((s.line p).marks = [] → t.det = s.det) ∧
        t = { s with ports := t.ports, phy := t.phy, lanes := t.lanes, det := t.det }) ∧
    ((s.port p).st = .capx → (s.port p).capFar = true → (s.port p).farAck = true → (s.port p).acksSent = 7 →
      (s.port p).stepSent = false → wantsStep s p = false → s.spg.plan = false → s.rd F.DET_TSRC_PORT ≠ p →
      s.rdB F.MON_LINKSEC_EN p = false → (∀ q, q < 144 → q ≠ p → (s.port q).st ≠ .active) →
      (∀ j, j < 4 → (s.lane (4 * p + j)).bitLock = true ∧ (s.lane (4 * p + j)).markLock = true) →
      ∃ t, exec (.capSend p) s = .next t ∧ (t.port p).st = .active ∧ (t.port p).order = s.activeCount ∧
        t.activeCount = s.activeCount + 1 ∧ t.rd F.LNE_EVT_UP p = 1 ∧ (t.link p).expE = 0 ∧
        (t.link p).txSeq = 0 ∧ (t.link p).replay = [] ∧ (∀ q, q ≠ p → t.port q = s.port q ∧ t.link q = s.link q) ∧
        t = { s with csr := t.csr, ports := t.ports, lanes := t.lanes, phy := t.phy, links := t.links,
                     sweep := t.sweep, activeCount := t.activeCount, klp := t.klp }) ∧
    ((s.port p).st ∈ [PSt.bitlock, .marklock, .capx, .active] →
      ∃ t, exec (.fillerSend p) s = .next t ∧ (t.port p) = { s.port p with sinceFill := 0 } ∧
        t.line p = { s.line p with stream := (s.line p).stream ++ [fillerBlk] } ∧
        t = { s with ports := t.ports, phy := t.phy }) ∧
    exec (.filler p) s = .next s ∧
    (∀ b, exec (.reservedControlBlock p b) s = .next s) ∧
    (∀ inside, (s.port p).st = .active → passing s p = true → (inside = true → (s.link p).framed = false) →
      exec (.idle ⟨p, inside⟩) s = .next (s.modLink p fun l => { l with framed := true, sepSeen := true })) ∧
    ((s.port p).st = .active → passing s p = true → (s.link p).framed = true →
      exec (.idle ⟨p, true⟩) s = .next ((s.count F.LNK_BADFRM_CNT_COUNT p).modLink p fun l =>
        { l with framed := false, nakWait := true, sepSeen := false, nakOut := true })) ∧
    (∀ inside, (s.port p).st ≠ .active ∨ passing s p = false → exec (.idle ⟨p, inside⟩) s = .next s)
  ) ∧
  (
  ∀ (s : State) (l : Nat) (rx : List (BitVec 10)), l < 576 → Runs s →
    (s.port (l / 4)).st ∈ [PSt.bitlock, .marklock, .capx, .active] → (s.lane l).bitLock = true →
    ((rsDecode (rx.map BitVec.toNat)).map Prod.snd = some 0 → ∃ t, exec (.codeword l rx) s = .next t ∧
      (t.lane l).ucRun = 0 ∧ (t.lane l).bitLock = true ∧ (∀ k, k ≠ l → t.lane k = s.lane k) ∧
      t = { s with lanes := t.lanes, phy := t.phy }) ∧
    (rsDecode (rx.map BitVec.toNat) = none → laneActive s l = true → (s.lane l).ucRun < 3 →
      ∃ t, exec (.codeword l rx) s = .next t ∧ (t.lane l).ucRun = (s.lane l).ucRun + 1 ∧
        t.rd F.LNE_FEC_UCW_COUNT l = min (s.rd F.LNE_FEC_UCW_COUNT l + 1) (2 ^ F.LNE_FEC_UCW_COUNT.w - 1) ∧
        ((s.port (l / 4)).st = .active → (t.link (l / 4)).framed = false) ∧
        (∀ k, k ≠ l → t.lane k = s.lane k) ∧
        t = { s with csr := t.csr, lanes := t.lanes, phy := t.phy, links := t.links, samp := t.samp,
                     freeIdx := t.freeIdx })
  )

/-- R49, R51, R54: a WIDTH block on an ACTIVE port without a change in progress starts the change it names, with the far
end's switch index, and an acknowledgement alone starts none; the first of the two switch indices is
noted and one that the far end has not named yet changes nothing.  R53, R54: a lane that rejoins; R56: deep sleep
entry completes, and a waking lane without bit lock is lost. -/
def Obligations.WidthChanges : Prop :=
  ∀ (s : State) (p i : Nat), p < 144 → i < 4 → Runs s →
    (∀ b, (s.port p).st = .active → (s.port p).chg = none → b.ack = false → b.sleep = false →
      ∃ t, exec (.width p b) s = .next t ∧ (∃ c, (t.port p).chg = some c ∧ c.width = b.width ∧
        ((s.port p).tx = (s.port p).map → c.map = b.map ∧ c.tx = b.map) ∧
        c.rxAt = some b.switch ∧ c.kind = (if b.up then .restore else .fallback) ∧
        c.oldMap = (s.port p).map) ∧ (t.port p).paused = b.up ∧
      t = { s with ports := t.ports, phy := t.phy }) ∧
    (∀ b, (s.port p).st = .active → (s.port p).chg = none → b.ack = true → b.sleep = false →
      exec (.width p b) s = .next s) ∧
    (∀ b, (s.port p).st ≠ .active → exec (.width p b) s = .next s) ∧
    (∀ tx, (s.port p).chg = none → exec (.switchIndex p tx) s = .next s) ∧
    (∀ tx c, (s.port p).chg = some c → c.rxAt = none → exec (.switchIndex p tx) s = .next s) ∧
    (∀ c, (s.port p).chg = some c → c.rxAt.isSome = true → c.rxDone = false →
      exec (.switchIndex p true) s = .next (s.modPort p fun x =>
        { x with chg := some { c with txDone := true }, setIdx := c.txAt })) ∧
    (∀ c, (s.port p).chg = some c → c.rxAt.isSome = true → c.txDone = false →
      exec (.switchIndex p false) s = .next (s.modPort p fun x =>
        { x with chg := some { c with rxDone := true } })) ∧
    ((s.port p).st = .active → (s.port p).chg.isSome = true → laneActive s (4 * p + i) = false →
      (s.lane (4 * p + i)).bitLock = true → (s.lane (4 * p + i)).markLock = true →
      spread s (4 * p + i) ≤ 64 → sleepAsked s (4 * p + i) = false → (s.lane (4 * p + i)).excluded = false →
      (s.lane (4 * p + i)).asleep = false → (s.lane (4 * p + i)).entering = false →
      exec (.laneReady (4 * p + i)) s = .next (s.modLane (4 * p + i) fun x => { x with ready := true })) ∧
    ((s.lane (4 * p + i)).entering = true →
      exec (.sleepEntryDone (4 * p + i)) s = .next (s.modLane (4 * p + i) fun x =>
        { x with entering := false, asleep := true, bitLock := false, markLock := false })) ∧
    ((s.lane (4 * p + i)).entering = false → exec (.sleepEntryDone (4 * p + i)) s = .next s) ∧
    ((s.lane (4 * p + i)).exiting = true → (s.lane (4 * p + i)).bitLock = false →
      (recentLosses s.clock (s.lane (4 * p + i)).lossTimes).length < 3 →
      ∃ t, exec (.sleepExitTimeout (4 * p + i)) s = .next t ∧ (t.lane (4 * p + i)).lost = true ∧
        (t.lane (4 * p + i)).exiting = false ∧ t = { s with lanes := t.lanes }) ∧
    ((s.lane (4 * p + i)).exiting = false ∨ (s.lane (4 * p + i)).bitLock = true →
      exec (.sleepExitTimeout (4 * p + i)) s = .next s)


/-! ## Links (spec/03) -/
/-- R78, R85: a good frame on an ACTIVE port in the framed state gives each channel the credits its running total has
grown by (while the receiver passes blocks on, R49); R77, R78: a data unit with the expected number is accepted and its bytes join the channel's stream;
R79: one ahead of it starts a NAK wait; R81: an acknowledgement of the last unit sent empties the replay buffer, one of a unit sent before the window changes
nothing, and one of a number never sent is a protocol error that takes the port out of ACTIVE.
R76, R79: a frame whose LCRC fails is counted in LNK_BADFRM and the receiver resynchronises with NAK; R75: in RESYNC a
frame is only counted; a port that is not ACTIVE, or passes no blocks on since a lane of its sets was lost (R49), takes
no frame. -/
def Obligations.LinkFrames : Prop :=
  (
  ∀ (s : State) (p : Nat) (f : Frame), p < 144 → Runs s → (s.port p).st = .active →
    passing s p = true → (s.link p).framed = true → frameGood f = true → f.nak = false →
    (f.ackv = false → (∀ e, e ∈ f.slots → e.data = false) →
      exec (.linkFrame p f) s = .next (s.modLink p fun l =>
        { l with farTot := f.credit,
                 credits := (l.credits.zip (l.farTot.zip f.credit)).map
                   fun x => x.1 + (x.2.2 - x.2.1).toNat })) ∧
    (∀ u es, f.slots = u :: es → f.ackv = false → (∀ e, e ∈ es → e.data = false) → u.data = true →
      s.linkSec p = none →
      (u.seq = (s.link p).expE → (s.link p).nakWait = false → ((s.link p).vc u.vc.toNat).left = 0 →
        ∃ t, exec (.linkFrame p f) s = .next t ∧ (t.link p).expE = u.seq + 1 ∧ (t.link p).accepted = true ∧
          ((t.link p).vc u.vc.toNat).bytes =
            ((s.link p).vc u.vc.toNat).bytes ++ u.bytes.take (u.fill.toNat + 1) ∧
          ((t.link p).vc u.vc.toNat).off = ((s.link p).vc u.vc.toNat).off + u.fill.toNat + 1 ∧
          (∀ q, q ≠ p → t.link q = s.link q) ∧ t = { s with links := t.links }) ∧
      (u.seq ≠ (s.link p).expE → (u.seq - (s.link p).expE).toNat < 2048 → (s.link p).nakWait = false →
        ∃ t, exec (.linkFrame p f) s = .next t ∧ (t.link p).nakWait = true ∧ (t.link p).nakOut = true ∧
          (t.link p).expE = (s.link p).expE ∧ (t.link p).rx = (s.link p).rx ∧ t = { s with links := t.links })) ∧
    (f.ackv = true → (∀ e, e ∈ f.slots → e.data = false) → (s.link p).anySent = true →
      (s.link p).replay ≠ [] → f.ack = (s.link p).txSeq - 1 → (s.link p).replay.length < 4096 →
      ∃ t, exec (.linkFrame p f) s = .next t ∧ (t.link p).replay = [] ∧ (t.link p).retries = 0 ∧
        (t.link p).farTot = f.credit ∧ t = { s with links := t.links }) ∧
    (f.ackv = true → (∀ e, e ∈ f.slots → e.data = false) → f.ack ≠ (s.link p).txSeq - 1 → (s.link p).replay = [] →
      ((s.link p).wasSent f.ack = true → exec (.linkFrame p f) s = .next (s.setLink p (applyCredit f (s.link p)))) ∧
      ((s.link p).wasSent f.ack = false → (s.port p).forced = false → ∃ t, exec (.linkFrame p f) s = .next t ∧
        t.rd F.LNK_EVT_PROTO p = 1 ∧ t.portUp p = false))
  ) ∧
  (
  ∀ (s : State) (p : Nat) (f : Frame), p < 144 → Runs s →
    ((s.port p).st = .active → passing s p = true → (s.link p).framed = true → frameGood f = false →
      exec (.linkFrame p f) s = .next ((s.count F.LNK_BADFRM_CNT_COUNT p).modLink p fun l =>
        { l with framed := false, nakWait := true, sepSeen := false, nakOut := true })) ∧
    ((s.port p).st = .active → passing s p = true → (s.link p).framed = false →
      exec (.linkFrame p f) s = .next (s.count F.LNK_BADFRM_CNT_COUNT p)) ∧
    ((s.port p).st ≠ .active ∨ passing s p = false → exec (.linkFrame p f) s = .next s)
  )

/-- R79: a NAK wait that lasts sends NAK again.  R80: the oldest unit's timeout resends every unit of the replay
buffer after one IDLE, sets RETRY and counts it, but not where a NAK started a replay in the same cycle; both need an
ACTIVE port. -/
def Obligations.LinkTimeouts : Prop :=
  ∀ (s : State) (p : Nat), p < 144 → Runs s →
    ((s.port p).st = .active → (s.link p).nakWait = true →
      exec (.nakTimeout p) s = .next (s.modLink p fun l => { l with nakOut := true })) ∧
    ((s.port p).st ≠ .active ∨ (s.link p).nakWait = false → exec (.nakTimeout p) s = .next s) ∧
    ((s.port p).st = .active → (s.link p).replay ≠ [] → (s.link p).retries < 7 →
      (s.link p).replayAt ≠ some (s.time, false) →
      exec (.replayTimeout p) s = .next (((s.wr F.LNK_EVT_RETRY 1 p).count F.LNK_RETRY_CNT_COUNT p).modLink p
        fun l => { l with resend := l.replay.length, needIdle := true, retries := l.retries + 1,
                          replayAt := some (s.time, true) })) ∧
    ((s.link p).replayAt = some (s.time, false) → exec (.replayTimeout p) s = .next s) ∧
    ((s.port p).st ≠ .active ∨ (s.link p).replay = [] → exec (.replayTimeout p) s = .next s)

/-- R101: START clears DONE and starts a sweep at port 0 with no events, ABORT stops it, and each of both leaves the
other case alone; a step copies the four identity words of its port and the 144th step ends the sweep. -/
def Obligations.WiringSweep : Prop :=
  ∀ (s : State), Runs s →
    (s.sweep.busy = false → ∃ t, exec .linkSweepStart s = .next t ∧ t.sweep.busy = true ∧ t.sweep.pos = 0 ∧
      t.sweep.events = 0 ∧ t.rd F.LNK_SWEEP_DONE = 0 ∧ t = { s with sweep := t.sweep, csr := t.csr }) ∧
    (s.sweep.busy = true → exec .linkSweepStart s = .next s) ∧
    (s.sweep.busy = true →
      exec .linkSweepAbort s = .next { s with sweep := { s.sweep with busy := false } }) ∧
    (s.sweep.busy = false → exec .linkSweepAbort s = .next s ∧ exec .sweepStep s = .next s) ∧
    (s.sweep.busy = true → s.sweep.pos < 144 → ∃ t, exec .sweepStep s = .next t ∧
      (∀ k, k < 4 → Tbl.get t.sweep.snap (4 * s.sweep.pos + k) 0 = faridWord s s.sweep.pos k) ∧
      t.sweep.pos = s.sweep.pos + 1 ∧ (t.sweep.busy = true ↔ s.sweep.pos < 143) ∧
      (s.sweep.pos = 143 → t.rd F.LNK_SWEEP_DONE = 1) ∧ t = { s with sweep := t.sweep, csr := t.csr })


/-! ## Switch core (spec/04) -/
/-- R156: a header is taken only from an ACTIVE port with 24 bytes in its stream.  R90: one whose LEN is above 256 is
counted and dropped as MALFORMED, and the bytes present leave its staging; R150: they are the ones counted.  R89, R156: one that passes the checks
and has a route becomes a request for its output, with HOP one higher. -/
def Obligations.PacketIngress : Prop :=
  ∀ (s : State) (p : Nat) (v : BitVec 3), p < 144 → Runs s →
    ((s.port p).st ≠ .active ∨ 0 < ((s.link p).vc v.toNat).left ∨ ((s.link p).vc v.toNat).bytes.length < 24 →
      exec (.packetIngress p v) s = .next s) ∧
    ((s.port p).st = .active → ((s.link p).vc v.toNat).left = 0 → 24 ≤ ((s.link p).vc v.toNat).bytes.length →
      let x := (s.link p).vc v.toNat
      let h := Packet.ofHeader x.bytes
      let n := min h.size x.bytes.length
      let s1 := ((s.count F.OUB_RXPKT_CNT_COUNT p).count F.OUB_RXBYTE_CNT_COUNT p n).modLink p fun l => l.setVc v.toNat
        { l.vc v.toNat with bytes := x.bytes.drop n, left := h.size - n, flow := none, also := [],
                            junk := x.bytes.take n }
      (256 < h.len.toNat → ∃ t, exec (.packetIngress p v) s = .next t ∧
        t.rd F.OUB_RXPKT_CNT_COUNT p = min (s.rd F.OUB_RXPKT_CNT_COUNT p + 1) (2 ^ F.OUB_RXPKT_CNT_COUNT.w - 1) ∧
        t.rd F.OUB_DROP_CNT_COUNT (16 * p + 5) =
          min (s.rd F.OUB_DROP_CNT_COUNT (16 * p + 5) + 1) (2 ^ F.OUB_DROP_CNT_COUNT.w - 1) ∧
        t.rd F.OUB_RXBYTE_CNT_COUNT p = min (s.rd F.OUB_RXBYTE_CNT_COUNT p + n) (2 ^ F.OUB_RXBYTE_CNT_COUNT.w - 1) ∧
        ((t.link p).vc v.toNat).bytes = x.bytes.drop h.size ∧ ((t.link p).vc v.toNat).flow = none ∧
        t = { s with csr := t.csr, links := t.links, samp := t.samp, freeIdx := t.freeIdx }) ∧
      (∀ out evc dln, route s1 s1.spg.active p (ingressHeader s1 p h) = (.port out evc dln, s1) →
        ingressCause s1 p h = none → (ingressHeader s1 p h).epb = s.spg.epb →
        (∀ n, n < 8 → s.rdB F.OUB_MIRCTL_EN n = false) → x.bytes.length < h.size →
        (∀ f, f ∈ s.xbr.flows → f.id ≠ s.xbr.nextId) →
        ∃ t, exec (.packetIngress p v) s = .next t ∧
          (∃ f, t.xbr.flows = s.xbr.flows ++ [f] ∧ f.id = s.xbr.nextId ∧ f.inp = p ∧ f.out = out ∧ f.evc = evc ∧
            f.hdr.hop = h.hop + 1 ∧ f.hdr.dln = dln ∧ f.total = h.size ∧ f.bytes = x.bytes ∧ f.admitted = false) ∧
          ((t.link p).vc v.toNat).left = h.size - x.bytes.length ∧
          ((t.link p).vc v.toNat).flow = some s.xbr.nextId ∧ t.xbr.nextId = s.xbr.nextId + 1 ∧
          t = { s with csr := t.csr, links := t.links, xbr := t.xbr, samp := t.samp, freeIdx := t.freeIdx }))

/-- R125, R128: the first request to an internal output is admitted when the output has the cells free, which are
then reserved, and is held otherwise; an unknown packet and an admitted one need no decision.  R126: a
request to a port that is not ACTIVE is dropped.
R121 to R123: a plane in service carries an eligible cell of the only packet that waits; a plane out of service
carries none.  R133: a cell that arrives in order is released; R95, R117: a whole packet for an internal output goes
to the interface's inbox. -/
def Obligations.AdmissionAndCells : Prop :=
  (
  ∀ (s : State) (id : Nat), Runs s →
    (findFlow s id = none → exec (.admissionDecide id) s = .next s) ∧
    (∀ f, findFlow s id = some f → f.admitted = true → exec (.admissionDecide id) s = .next s) ∧
    (∀ f, s.xbr.flows = [f] → f.id = id → f.admitted = false → f.mirror = none → 144 ≤ f.out → s.xbr.up ≠ 0 →
      (cellsOf f.total ≤ Tbl.get s.xbr.intFree f.out 1024 → ∃ t, exec (.admissionDecide id) s = .next t ∧
        (∃ g, t.xbr.flows = [g] ∧ g.admitted = true ∧ g.held = false ∧ g.saf = true ∧
          g.cells.length = cellsOf f.total ∧ g.hdr = f.hdr ∧ g.bytes = f.bytes) ∧
        Tbl.get t.xbr.intFree f.out 1024 = Tbl.get s.xbr.intFree f.out 1024 - cellsOf f.total ∧
        t = { s with xbr := t.xbr }) ∧
      (Tbl.get s.xbr.intFree f.out 1024 < cellsOf f.total → exec (.admissionDecide id) s = .next
        { s with xbr := { s.xbr with flows := [{ f with held := true }] } })) ∧
    (∀ f, s.xbr.flows = [f] → f.id = id → f.admitted = false → f.held = false → f.mirror = none → f.inp < 144 →
      f.out < 144 → s.xbr.up ≠ 0 → (s.port f.out).st ≠ .active → ∃ t, exec (.admissionDecide id) s = .next t ∧
        t.xbr.flows = [] ∧ t.rd F.OUB_DROP_CNT_COUNT (16 * f.out + 2) =
          min (s.rd F.OUB_DROP_CNT_COUNT (16 * f.out + 2) + 1) (2 ^ F.OUB_DROP_CNT_COUNT.w - 1) ∧
        t = { s with csr := t.csr, links := t.links, xbr := t.xbr, samp := t.samp, freeIdx := t.freeIdx })
  ) ∧
  (
  ∀ (s : State) (f : Flow), Runs s →
    (∀ k i, k < 4 → s.xbr.flows = [f] → f.admitted = true → f.inp < 272 → f.out < 272 → s.xbr.up.getLsbD k = true →
      nextCell f k = some i → inFlight s f < 64 → ∃ t, exec (.cellSlot k) s = .next t ∧
        (∃ g, t.xbr.flows = [g] ∧ g.cells = ListOps.modify f.cells i (fun c => { c with st := .flying })) ∧
        t = { s with xbr := t.xbr, links := t.links }) ∧
    (∀ k, k < 4 → s.xbr.up.getLsbD k = false → exec (.cellSlot k) s = .next s) ∧
    (∀ c, s.xbr.flows = [f] → f.admitted = true → f.cells = [c] → c.st = .flying →
      (f.out < 144 → exec (.cellArrival f.id 0) s = .next
        (let g : Flow := { f with cells := [{ c with st := .released }], rel := s.xbr.nextRel }
         { s with xbr := { s.xbr with flows := [g], nextRel := s.xbr.nextRel + 1 } })) ∧
      (144 ≤ f.out → f.chkBad = false → f.cutShort = false → ∃ t, exec (.cellArrival f.id 0) s = .next t ∧
        t.xbr.flows = [] ∧ (∃ a, t.ni.inbox = s.ni.inbox ++ [a] ∧ a.port = f.inp ∧ a.pkt.dst = f.hdr.dst ∧
          a.pkt.payload = (Packet.ofBytes f.bytes).payload) ∧
        t = { s with csr := t.csr, links := t.links, xbr := t.xbr, ni := t.ni, samp := t.samp,
                     freeIdx := t.freeIdx })) ∧
    (∀ id n, findFlow s id = none → exec (.cellArrival id n) s = .next s)
  )

/-- R134 to R139, R71 to R74: a port that is not ACTIVE, or whose stream is paused, sends no frame; one with nothing to
send sends a frame of four empty slots with its acknowledgement and credit totals; a packet of at most
256 bytes that is released whole leaves in one unit, which enters the replay buffer and takes a credit. -/
def Obligations.OutputServes : Prop :=
  ∀ (s : State) (p : Nat), p < 144 → Runs s →
    ((s.port p).st ≠ .active ∨ (s.port p).paused = true → exec (.outputServe p) s = .next s) ∧
    ((s.port p).st = .active → (s.port p).paused = false → (s.link p).resend = 0 →
      (s.link p).replay.length < replayDepth s p →
      (s.xbr.flows = [] → ∃ t, exec (.outputServe p) s = .next t ∧
        (∃ f, (t.link p).last = some f ∧ f.slots = List.replicate 4 nullSlot ∧ f.ack = (s.link p).expE - 1 ∧
          f.ackv = (s.link p).accepted ∧ f.nak = (s.link p).nakOut ∧ f.credit = (s.link p).outTot ∧
          f.lcrc = BitVec.ofNat 32 (crc32 (frameBody f))) ∧
        (t.link p).nakOut = false ∧ (t.link p).needIdle = false ∧ (t.link p).replay = (s.link p).replay ∧
        t = { s with links := t.links, ports := t.ports, phy := t.phy, xbr := t.xbr }) ∧
      (∀ f c v n, s.xbr.flows = [f] → f.out = p → f.evc = v → v < 8 → f.admitted = true → f.started = false →
        f.mirror = none → f.cutShort = false → f.saf = false → f.cells = [c] → c.st = .released → f.sent = 0 →
        28 ≤ f.total → f.total ≤ 256 → f.total ≤ f.bytes.length → (s.link p).credits = List.replicate 8 (n + 1) →
        s.outp p = {} → s.linkSec p = none → ∃ t, exec (.outputServe p) s = .next t ∧ t.xbr.flows = [] ∧
          (t.link p).replay = (s.link p).replay ++
            [⟨(s.link p).txSeq, BitVec.ofNat 3 v, f.wire 0 f.total, [f.lastByte]⟩] ∧
          (t.link p).txSeq = (s.link p).txSeq + 1 ∧ (t.link p).credits.getD v 0 = n ∧
          t = { s with csr := t.csr, links := t.links, ports := t.ports, phy := t.phy, xbr := t.xbr, samp := t.samp,
                       freeIdx := t.freeIdx }))

/-- R143: a packet without a lost cell waits on; one with a lost cell that has not started is discarded and counted as
PLANE.  R168: a packet over the per-hop limit that has not started is discarded and counted as LIFETIME at its input;
one bound for an internal output, and one that is gone without trace, change nothing.
R143, R144: a plane fault takes the plane out of service, shows it in PLANEFLT and asserts its source, which at the
severity of its class marks the module degraded; a write of PLANEEN enables planes in service and starts
the drain of the others, and is ignored where it would leave none, or where none is in service; a drained plane leaves service, the last one stays.
R121: ROUNDS holds what was written. -/
def Obligations.LatePacketsAndPlanes : Prop :=
  (
  ∀ (s : State) (f : Flow), Runs s →
    (∀ id, findFlow s id = some f → (f.cells.any fun c => c.st == .lost) = false →
      exec (.resequenceGapTimeout id) s = .next s) ∧
    (∀ id, findFlow s id = none → exec (.resequenceGapTimeout id) s = .next s ∧
      (unackedAt s id = none → exec (.lifetimeExpiry id) s = .next s)) ∧
    (∀ id, findFlow s id = some f → 144 ≤ f.out → exec (.lifetimeExpiry id) s = .next s) ∧
    (s.xbr.flows = [f] → f.inp < 144 → f.out < 144 → f.started = false →
      (∃ t, exec (.lifetimeExpiry f.id) s = .next t ∧ t.xbr.flows = [] ∧
        t.rd F.OUB_DROP_CNT_COUNT (16 * f.inp + 8) =
          min (s.rd F.OUB_DROP_CNT_COUNT (16 * f.inp + 8) + 1) (2 ^ F.OUB_DROP_CNT_COUNT.w - 1) ∧
        t = { s with csr := t.csr, links := t.links, xbr := t.xbr, samp := t.samp, freeIdx := t.freeIdx }) ∧
      ((f.cells.any fun c => c.st == .lost) = true → ∃ t, exec (.resequenceGapTimeout f.id) s = .next t ∧
        t.xbr.flows = [] ∧ t.rd F.OUB_DROP_CNT_COUNT (16 * f.out + 11) =
          min (s.rd F.OUB_DROP_CNT_COUNT (16 * f.out + 11) + 1) (2 ^ F.OUB_DROP_CNT_COUNT.w - 1) ∧
        t = { s with csr := t.csr, links := t.links, xbr := t.xbr, samp := t.samp, freeIdx := t.freeIdx }))
  ) ∧
  (
  ∀ (s : State) (k : Nat), k < 4 → Runs s →
    (s.xbr.up.getLsbD k = true → s.xbr.up ≠ BitVec.ofNat 4 (2 ^ k) → s.sev (708 + k) = 4 →
      stickyBit s (708 + k) = false → ∃ t, exec (.planeFault k) s = .next t ∧
        t.xbr.up = s.xbr.up &&& ~~~(BitVec.ofNat 4 (2 ^ k)) ∧
        bit (t.rd F.XBR_STS_PLANEFLT) k = true ∧ stickyBit t (708 + k) = true ∧
        t.rd F.HND_STS_DEGRADED = 1 ∧
        t = { s with csr := t.csr, xbr := t.xbr, samp := t.samp, freeIdx := t.freeIdx }) ∧
    (s.xbr.up.getLsbD k = false → exec (.planeFault k) s = .next s) ∧
    (s.xbr.drain.getLsbD k = true → planeEmpty s k = true → s.xbr.up ≠ BitVec.ofNat 4 (2 ^ k) → exec (.planeDrainEnd k) s = .next
      { s with xbr := { s.xbr with up := s.xbr.up &&& ~~~(BitVec.ofNat 4 (2 ^ k)),
                                   drain := s.xbr.drain &&& ~~~(BitVec.ofNat 4 (2 ^ k)) } }) ∧
    (s.xbr.drain.getLsbD k = false ∨ planeEmpty s k = false ∨ s.xbr.up = BitVec.ofNat 4 (2 ^ k) → exec (.planeDrainEnd k) s = .next s) ∧
    (∀ m : BitVec 4,
      let flt := BitVec.ofNat 4 (s.rd F.XBR_STS_PLANEFLT)
      (m &&& ~~~flt ≠ 0 → s.xbr.up ≠ 0 → exec (.planeen m) s = .next
        { s.wr F.XBR_CTL_PLANEEN m.toNat with
            xbr := { s.xbr with up := s.xbr.up ||| (m &&& ~~~flt), drain := s.xbr.up &&& ~~~m } }) ∧
      (m &&& ~~~flt = 0 ∨ s.xbr.up = 0 → exec (.planeen m) s = .next s)) ∧
    (∀ v, exec (.rounds v) s = .next (s.wr F.XBR_CTL_ROUNDS v.toNat))
  )


/-! ## Network interface (spec/05) -/
/-- R178, R180, R182: a source with nothing to send, and one whose window may not send, leave the interface as it is; a
queued message that opens a window leaves with PSN 0, is outstanding until its answer, and becomes a request of the
switch core with its check formed (R94).
R182, R183: at each tick of 1 µs a window that has had neither an echo nor a rise for INC gains AI/256 of the line
rate, up to the line rate; one that has had either keeps its rate.  R179: a pair whose overflow window has nothing
outstanding takes the lowest free slot.
R182, R183: the first echo that a window gets in GAP multiplies its rate by CUT/16, not below FLOOR/256 of the line
rate; rates are kept with a binary exponent, which grows by four digits at a cut. -/
def Obligations.InterfaceSending : Prop :=
  (
  ∀ (s : State) (src : SendSrc), Runs s →
    (stranded s src = none → nextOf s src = none → exec (.niPacketSend src) s = .next s) ∧
    (∀ c, nextOf s src = some c → stranded s src = none → s.ni.ovfPairs = [] → ∀ i,
      slotOfPair s (c.pkt.dst, c.kennel) = some i → maySend s (.slot i) c.pkt = false →
      exec (.niPacketSend src) s = .next s) ∧
    (∀ q p, src = .queued q.id → s.ni = { queue := [q], nextQ := s.ni.nextQ } → q.port = some p → q.pkt.ktag = 0 →
      q.toMate = false → q.pkt.twn = false → q.pkt.fen = false → q.pkt.payload.length ≤ 4096 → s.knl = [] → s.rtv.colls = [] →
      ∃ t, exec (.niPacketSend src) s = .next t ∧ t.ni.queue = [] ∧
        (∃ o, t.ni.outst = [o] ∧ o.pkt.psn = 0 ∧ o.pkt.win = 0 ∧ o.pkt.dst = q.pkt.dst ∧ o.copies = 1 ∧
          o.bytes = q.pkt.payload.length ∧ o.sentAt = s.clock ∧ o.owner = q.owner) ∧
        (t.window 0).pair = some (q.pkt.dst, 4096) ∧ (t.window 0).psn = 1 ∧
        (∃ f, t.xbr.flows = s.xbr.flows ++ [f] ∧ f.out = p ∧ f.id = s.xbr.nextId ∧
          f.bytes = { q.pkt with win := 0, psn := 0 }.seal.bytes) ∧
        t = { s with ni := t.ni, xbr := t.xbr })
  ) ∧
  (
  ∀ (s : State), Runs s →
    (∀ (i : Nat) (w : Window), s.ni.slots = [(i, w)] → w.pair.isSome = true → s.ni.ovf = [] → s.ni.ovfPairs = [] →
    let inc := max 1 (s.rd F.RTE_CCTL_INC)
    (usPast s.clock inc w.lastEcho = true → usPast s.clock inc w.lastInc = true →
      ∃ t, exec .rateTick s = .next t ∧
        (t.window i).rate = min (lineRate * 2 ^ w.exp)
          (w.rate + lineRate * s.rd F.RTE_CCTL_AI * 2 ^ w.exp / 256) ∧
        (t.window i).lastInc = some s.clock ∧ (t.window i).psn = w.psn ∧ (t.window i).pair = w.pair ∧
        t = { s with ni := { s.ni with slots := t.ni.slots } }) ∧
    (usPast s.clock inc w.lastEcho = false ∨ usPast s.clock inc w.lastInc = false → exec .rateTick s = .next s)) ∧
    (∀ pair i, s.ni.ovfPairs = [pair] → freeSlot s = some i → s.ni.outst = [] →
      ∃ t, exec .rateTick s = .next t ∧ (t.window i).pair = some pair ∧ t.ni.ovfPairs = [] ∧
        (t.window i).psn = (s.window i).psn ∧ t = { s with ni := t.ni })
  ) ∧
  (
  ∀ (s : State) (a : Arrival) (o : Outst) (i : Nat), Runs s → answered s a.pkt = [o] → o.owner = .answer →
    o.wid = .slot i → s.ni.ovfPairs = [] → a.pkt.opc = 0x08 → a.pkt.cmk = 2 → i < 65536 →
    usPast s.clock (max 1 (s.rd F.RTE_CCTL_GAP)) (s.window i).lastCut = true →
    ∃ t, exec (.ackReceived a) s = .next t ∧ (t.window i).exp = (s.window i).exp + 4 ∧
      (t.window i).rate = max (lineRate * max 1 (s.rd F.RTE_CCTL_FLOOR) * 2 ^ ((s.window i).exp + 4) / 256)
        ((s.window i).rate * max 8 (s.rd F.RTE_CCTL_CUT)) ∧
      (t.window i).lastCut = some s.clock ∧ (t.window i).lastEcho = some s.clock ∧
      (∀ j, j ≠ i → t.window j = s.window j) ∧ t = { s with ni := t.ni }
  )

/-- R178: a slot with nothing outstanding is freed and its numbering goes on, one with a packet outstanding stays.
R108: a window whose oldest packet stays unanswered is freed, and each command with a packet in it fails with
WINDOW_FAULT; R177: so does one whose fenced first packet waits for that window; R506: the kennel's count rises.
R93, R180, R444, R536: an answer that matches one outstanding packet of a command takes it out of its window and out
of the inbox: an ACK counts its bytes, a READ_RSP brings its data, an ATOMIC_RSP the old value, an ERR_RSP the status.  A
response with another opcode is not this row's. -/
def Obligations.WindowsAndAnswers : Prop :=
  (
  ∀ (s : State) (i : Nat), i < 65536 → Runs s → s.ni.ovfPairs = [] →
    ((s.window i).pair.isSome = true → s.outOf (.slot i) = [] → ∃ t, exec (.windowSlotIdle i) s = .next t ∧
      (t.window i).pair = none ∧ (t.window i).psn = (s.window i).psn ∧ (∀ j, j ≠ i → t.window j = s.window j) ∧
      t = { s with ni := { s.ni with slots := t.ni.slots } }) ∧
    ((s.window i).pair = none ∨ s.outOf (.slot i) ≠ [] → exec (.windowSlotIdle i) s = .next s) ∧
    (s.outOf (.slot i) = [] → exec (.windowFault i) s = .next s) ∧
    (∀ o c off, s.outOf (.slot i) = [o] → s.cmds = [c] → o.owner = .cmd c.k c.q c.seq off → s.rtv.colls = [] →
      c.fen = false → c.status = 0 → ∀ dst, (s.window i).pair = some (dst, c.k) → c.k < 4096 →
      ∃ t, exec (.windowFault i) s = .next t ∧ (t.window i).pair = none ∧ o ∉ t.ni.outst ∧
        (∃ d, t.cmds = [d] ∧ d.status = Code.windowFault ∧ d.outst = c.outst - 1) ∧
        t = { s.count F.CTR_KNL_COUNT (16 * c.k + 13) with ni := t.ni, cmds := t.cmds }) ∧
    (∀ o c, s.outOf (.slot i) = [o] → o.owner = .answer → s.cmds = [c] → s.rtv.colls = [] → c.fen = true →
      ∀ n, cmdNext s c = some n → (s.window i).pair = some (n.pkt.dst, c.k) → c.status = 0 →
      ∃ t, exec (.windowFault i) s = .next t ∧ (t.window i).pair = none ∧
        ∃ d, t.cmds = [d] ∧ d.status = Code.windowFault)
  ) ∧
  (
  ∀ (s : State) (a : Arrival) (o : Outst) (c : Cmd) (off : Nat), Runs s → answered s a.pkt = [o] →
    s.ni.outst = [o] → s.ni.ovfPairs = [] → s.cmds = [c] → o.owner = .cmd c.k c.q c.seq off → a.pkt.cmk ≠ 2 →
    let t := { s with ni := { s.ni with inbox := s.ni.inbox.erase a, outst := [] } }
    (a.pkt.opc = 0x08 → exec (.ackReceived a) s = .next
      { t with cmds := [({ c with outst := c.outst - 1, bytes := c.bytes + o.bytes } : Cmd).settle] }) ∧
    (a.pkt.opc = 0x09 → c.opc = 0x03 → c.status = 0 → bit (field c.desc 36 1) 0 = false →
      bit (field c.desc 36 1) 1 = false → exec (.readRspReceived a) s = .next
      { t with cmds := [{ c with outst := c.outst - 1, buf := Tbl.set c.buf off a.pkt.payload }] }) ∧
    (a.pkt.opc = 0x0A → c.opc = 0x05 → exec (.atomicRspReceived a) s = .next
      { t with cmds := [({ c with outst := c.outst - 1, cnt0 := field a.pkt.payload 0 8 } : Cmd).settle] }) ∧
    (a.pkt.opc = 0x0B → exec (.errRspReceived a) s = .next
      { t with cmds := [((({ c with outst := c.outst - 1 } : Cmd).fail
        (errStatus (field a.pkt.payload 0 1))).settle)] }) ∧
    (a.pkt.opc ≠ 0x08 → exec (.ackReceived a) s = .next s) ∧
    (a.pkt.opc ≠ 0x09 → exec (.readRspReceived a) s = .next s) ∧
    (a.pkt.opc ≠ 0x0A → exec (.atomicRspReceived a) s = .next s) ∧
    (a.pkt.opc ≠ 0x0B → exec (.errRspReceived a) s = .next s)
  )


/-! ## Queues and commands (spec/06) -/
/-- R207, R208, R209: NOP completes as it issues; a descriptor with a set reserved field ends with BAD_DESCRIPTOR, a
reserved opcode with BAD_OPCODE.  WAIT records its whistle and completes as it issues when the threshold is met.
R209: a WAIT whose TMO field is not 0 ends with TIMEOUT when the time is up, one with TMO 0 never does.
R209, R218: a local SIGNAL adds its increment to the whistle as it issues and is complete; a remote one waits for its
packet.  FENCE waits for the commands of its queue issued before it, and
TIMESTAMP records the module time in ns. -/
def Obligations.WaitsAndSignals : Prop :=
  (
  ∀ (s : State) (k q : Nat) (x : Queue) (d : Desc), Issuable s k q x d →
    let c := issuedCmd s k q d
    (d.opc = 0x00 → HeaderOk s k d →
      (nonzero d 16 63 = false → exec (.nop k q) s = .next (issuedAs s k q { c with done := true })) ∧
      (nonzero d 16 63 = true →
        exec (.nop k q) s = .next (issuedAs s k q { c with done := true, status := Code.badDescriptor }))) ∧
    (0x10 ≤ d.opc → exec (.nop k q) s = .next (issuedAs s k q { c with done := true, status := Code.badOpcode })) ∧
    (1 ≤ d.opc → d.opc < 0x10 → exec (.nop k q) s = .next s) ∧
    (d.opc = 0x01 → HeaderOk s k d → d.wen = true → nonzero d 20 63 = false →
      let v := s.whistle k (d.waitw % 4096)
      exec (.wait k q) s = .next (issuedAs s k q { c with cnt0 := v.toNat, done := decide (d.thresh ≤ v.toNat) })) ∧
    (d.opc = 0x01 → HeaderOk s k d → d.wen = false →
      exec (.wait k q) s = .next (issuedAs s k q { c with done := true, status := Code.badDescriptor }))
  ) ∧
  (
  ∀ (s : State) (c : Cmd), c.k < 4096 → Runs s → s.cmds = [c] → c.opc = 0x01 → c.done = false →
    (field c.desc 16 4 ≠ 0 → c.status = 0 → exec (.waitTimeout c.k c.q c.seq) s = .next
      { s with cmds := [{ c with status := Code.timeout, done := true }] }) ∧
    (field c.desc 16 4 = 0 → exec (.waitTimeout c.k c.q c.seq) s = .next s)
  ) ∧
  (
  ∀ (s : State) (k q : Nat) (x : Queue) (d : Desc), Issuable s k q x d → HeaderOk s k d →
    let c := issuedCmd s k q d
    (d.opc = 0x02 → s.cmds = [] → s.dieOut = false → field d.bytes 20 1 = 0 → nonzero d 21 23 = false →
      nonzero d 32 63 = false → field d.bytes 18 2 < (s.kennel k).nWh → field d.bytes 18 2 < 4096 →
      ∃ t, exec (.signal k q) s = .next t ∧ t.cmds = [{ c with done := true }] ∧
        t.whistle k (field d.bytes 18 2) =
          s.whistle k (field d.bytes 18 2) + BitVec.ofNat 64 (field d.bytes 24 8) ∧
        (∀ w, w ≠ field d.bytes 18 2 → t.whistle k w = s.whistle k w) ∧
        t = { s with knl := t.knl, cmds := t.cmds, csr := t.csr, samp := t.samp, freeIdx := t.freeIdx }) ∧
    (d.opc = 0x02 → field d.bytes 20 1 = 1 → nonzero d 21 23 = false → nonzero d 32 63 = false →
      field d.bytes 18 2 < 4096 → (rankEid s k (field d.bytes 16 2)).1 = 0 →
      exec (.signal k q) s = .next (issuedAs s k q c)) ∧
    (d.opc = 0x0D → field d.bytes 16 1 = 0 → nonzero d 17 63 = false →
      exec (.fence k q) s = .next (issuedAs s k q
        { c with targets := (issuedOf s k q).map fun m => (m.q, m.seq) })) ∧
    (d.opc = 0x0E → field d.bytes 24 1 = 0 → nonzero d 22 23 = false → nonzero d 25 63 = false →
      exec (.timestamp k q) s = .next (issuedAs s k q { c with cnt0 := s.nowNs, rd := 1, done := true }))
  )

/-- R210, R211: COPY and FILL whose ends are remote, and ATOMIC on a remote address, issue and wait for their packets;
a length that is 0 or no multiple of 16 is refused with BAD_DESCRIPTOR.  With its source in the local pool a COPY asks the pool
for its first piece as it issues, a local FILL asks it to write one, and a local ATOMIC becomes a pool access.
R333: a LAUNCH whose checks fail ends with their status; one that passes becomes a program that waits for its cores.
R207: the checks take place after the head has left the queue; R237, R246: the image is translated and read through the error
code first. -/
def Obligations.MovesAndLaunchesIssue : Prop :=
  (
  ∀ (s : State) (k q : Nat) (x : Queue) (d : Desc), Issuable s k q x d → HeaderOk s k d →
    let c := issuedCmd s k q d
    let b := d.bytes
    (d.opc = 0x03 → field b 36 1 = 0 → nonzero d 22 23 = false → nonzero d 30 31 = false →
      nonzero d 37 39 = false → nonzero d 48 63 = false → field b 16 6 % 16 = 0 → field b 24 6 % 16 = 0 →
      (field b 40 8 ≠ 0 → field b 40 8 % 16 = 0 → field b 40 8 ≤ 2 ^ 40 → (rankEid s k (field b 32 2)).1 = 0 →
        (rankEid s k (field b 34 2)).1 = 0 → exec (.copy k q) s = .next (issuedAs s k q c)) ∧
      (field b 40 8 = 0 ∨ field b 40 8 % 16 ≠ 0 →
        exec (.copy k q) s = .next (issuedAs s k q { c with done := true, status := Code.badDescriptor }))) ∧
    (d.opc = 0x03 → (field b 36 1 = 1 ∨ field b 36 1 = 3) → nonzero d 22 23 = false → nonzero d 30 31 = false →
      nonzero d 37 39 = false → nonzero d 48 63 = false → field b 16 6 % 16 = 0 → field b 24 6 % 16 = 0 →
      field b 40 8 ≠ 0 → field b 40 8 % 16 = 0 → field b 40 8 ≤ 2 ^ 40 →
      (field b 36 1 = 1 → (rankEid s k (field b 34 2)).1 = 0) → (s.kennel k).feature 1 = true →
      mapped s k (field b 16 6) (field b 40 8) = true →
      (field b 36 1 = 3 → mapped s k (field b 24 6) (field b 40 8) = true) →
      let n := min 4096 (field b 40 8)
      poolCheck s k (field b 16 6) (.read n) false = none → ∃ t, exec (.copy k q) s = .next t ∧
        t.cmds = s.cmds ++ [{ c with outst := 1, rd := n }] ∧
        (∃ a, t.pool.accs = s.pool.accs ++ [a] ∧ a.id = s.pool.nextAcc ∧ a.k = k ∧ a.va = field b 16 6 ∧
          a.op = .read n ∧ a.asker = .cmd k q d.seq 0 ∧ a.served = false) ∧
        t.pool.mem = s.pool.mem ∧ t = { s with knl := t.knl, cmds := t.cmds, pool := t.pool }) ∧
    (d.opc = 0x03 → field b 36 1 = 2 → nonzero d 22 23 = false → nonzero d 30 31 = false →
      nonzero d 37 39 = false → nonzero d 48 63 = false → field b 16 6 % 16 = 0 → field b 24 6 % 16 = 0 →
      field b 40 8 ≠ 0 → field b 40 8 % 16 = 0 → field b 40 8 ≤ 2 ^ 40 → (rankEid s k (field b 32 2)).1 = 0 →
      (s.kennel k).feature 1 = true → mapped s k (field b 24 6) (field b 40 8) = true →
      exec (.copy k q) s = .next (issuedAs s k q c)) ∧
    (d.opc = 0x04 → field b 26 1 = 1 → nonzero d 22 23 = false → nonzero d 27 31 = false →
      nonzero d 48 63 = false → field b 16 6 % 16 = 0 → field b 40 8 % 16 = 0 → field b 40 8 ≠ 0 →
      field b 40 8 ≤ 2 ^ 40 → (s.kennel k).feature 1 = true → mapped s k (field b 16 6) (field b 40 8) = true →
      let n := min 4096 (field b 40 8)
      let w := patternBytes ((b.drop 32).take 8) n
      poolCheck s k (field b 16 6) (.write w) false = none → ∃ t, exec (.fill k q) s = .next t ∧
        t.cmds = s.cmds ++ [{ c with outst := 1, wr := n }] ∧
        (∃ a, t.pool.accs = s.pool.accs ++ [a] ∧ a.id = s.pool.nextAcc ∧ a.k = k ∧ a.va = field b 16 6 ∧
          a.op = .write w ∧ a.asker = .cmd k q d.seq 0 ∧ a.served = false) ∧
        t.pool.mem = s.pool.mem ∧ t = { s with knl := t.knl, cmds := t.cmds, pool := t.pool }) ∧
    (d.opc = 0x04 → field b 26 1 = 0 → nonzero d 22 23 = false → nonzero d 27 31 = false →
      nonzero d 48 63 = false → field b 16 6 % 16 = 0 → field b 40 8 % 16 = 0 → field b 40 8 ≠ 0 →
      field b 40 8 ≤ 2 ^ 40 → (rankEid s k (field b 24 2)).1 = 0 →
      exec (.fill k q) s = .next (issuedAs s k q c)) ∧
    (d.opc = 0x05 → field b 27 1 < 4 → nonzero d 22 23 = false → nonzero d 28 31 = false →
      nonzero d 48 63 = false → field b 16 6 % (descAtomic b).align = 0 →
      ((s.kennel k).repro = false ∨ field b 27 1 ≠ 2) →
      (field b 26 1 = 0 → (rankEid s k (field b 24 2)).1 = 0 →
        exec (.atomic k q) s = .next (issuedAs s k q c)) ∧
      (field b 26 1 = 1 → (s.kennel k).feature 1 = true → (s.kennel k).feature 2 = true →
        mapped s k (field b 16 6) (descAtomic b).len = true →
        poolCheck s k (field b 16 6) (descAtomic b) false = none → ∃ t, exec (.atomic k q) s = .next t ∧
          t.cmds = s.cmds ++ [{ c with outst := 1, rd := 1 }] ∧
          (∃ a, t.pool.accs = s.pool.accs ++ [a] ∧ a.id = s.pool.nextAcc ∧ a.k = k ∧ a.va = field b 16 6 ∧
            a.op = descAtomic b ∧ a.asker = .cmd k q d.seq 0 ∧ a.served = false) ∧
          t.pool.mem = s.pool.mem ∧ t = { s with knl := t.knl, cmds := t.cmds, pool := t.pool }))
  ) ∧
  (
  ∀ (s : State) (k q : Nat) (x : Queue) (d : Desc), Issuable s k q x d → d.opc = 0x06 →
    let c := issuedCmd s k q d
    let s1 := touchImage k (launchArgs d.bytes) (modQueue k q (fun y => { y with ahead := y.ahead.drop 1 }) s)
    (launchStatus s1 k d ≠ 0 → exec (.launch k q) s = .next (settle
      { s1 with cmds := s.cmds ++ [{ c with done := true, status := launchStatus s1 k d }] })) ∧
    (launchStatus s1 k d = 0 → s1.hnd.todo = [] → ∃ t, exec (.launch k q) s = .next t ∧
      t.cmds = s.cmds ++ [{ c with prog := some s.isl.nextProg }] ∧
      (∃ p, t.isl.progs = s.isl.progs ++ [p] ∧ p.id = s.isl.nextProg ∧ p.k = k ∧ p.q = q ∧ p.seq = d.seq ∧
        p.cores = [] ∧ p.ncore = (launchArgs d.bytes).ncore ∧ p.tlim = (launchArgs d.bytes).tlim) ∧
      t = { s1 with cmds := t.cmds, isl := t.isl })
  )

/-- R271, R273, R290: each collective command ends with the status of its checks, or with RESOURCE_FULL when its staging
can never be had, or waits in its queue for its admission (UPDATE after reading its LAUNCH descriptor, R274). -/
def Obligations.CollectivesIssue : Prop :=
  ∀ (s : State) (k q : Nat) (x : Queue) (d : Desc), Issuable s k q x d →
    ∀ r ∈ [(Instr.bcast k q, 0x07), (.bcastv k q, 0x08), (.reduce k q, 0x09), (.reducev k q, 0x0A),
        (.allred k q, 0x0B), (.update k q, 0x0C)], d.opc = r.2 →
    let c := issuedCmd s k q d
    let s0 := modQueue k q (fun y => { y with ahead := y.ahead.drop 1 }) s
    let s1 := translate k (collUses (collOf s0 k q d.seq d.bytes false) (field d.bytes 58 6)) (collStatus s0 k d) s0
    let s2 := issuedAs s k q c
    let y := collOf s2 k q d.seq d.bytes c.repro
    let need := ({ y with repro := y.repro || s.rdB F.DET_CTL_NOFAST } : Coll).need (s.rd F.RTV_CTL_WIN + 1)
    (collStatus s1 k d ≠ 0 → exec r.1 s = .next (settle
      { s1 with cmds := s.cmds ++ [{ c with done := true, status := collStatus s1 k d }] })) ∧
    (collStatus s1 k d = 0 → stagingBytes < need ∨ quotaBytes s k < need →
      (∀ z, z ∈ s.rtv.colls → z.id ≠ s.rtv.nextId) → ∃ t, exec r.1 s = .next t ∧
        t.cmds = s.cmds ++ [{ c with done := true, status := Code.resourceFull, coll := some s.rtv.nextId }] ∧
        (∃ w, t.queue k q = some w ∧ w.collWait = false ∧ w.ahead = x.ahead.drop 1) ∧
        t = { s with knl := t.knl, cmds := t.cmds, rtv := t.rtv, ni := t.ni,
                     pool := { s.pool with accs := accsWithout s s.rtv.nextId } }) ∧
    (collStatus s1 k d = 0 → need ≤ stagingBytes → need ≤ quotaBytes s k → y.stoch = false →
      (r.2 = 0x0C → (collRead k (field d.bytes 58 6) 64 s2).1 = 0 ∧
        (collRead k (field d.bytes 58 6) 64 s2).2.2.hnd.todo = []) →
      ∃ t, exec r.1 s = .next t ∧ t.cmds = s.cmds ++ [{ c with coll := some s.rtv.nextId }] ∧
        (∃ z, t.rtv.colls = s.rtv.colls ++ [z] ∧ z.id = s.rtv.nextId ∧ z.k = k ∧ z.q = q ∧ z.seq = d.seq ∧
          z.opc = r.2 ∧ z.admitted = false) ∧
        (∃ w, t.queue k q = some w ∧ w.collWait = true ∧ w.ahead = x.ahead.drop 1) ∧
        t = { s with knl := t.knl, cmds := t.cmds, rtv := t.rtv, csr := t.csr, samp := t.samp,
                     freeIdx := t.freeIdx })

/-- R203: the slot at HEAD is read ahead of issue, HEAD goes on by one and the descriptor waits behind those read
before; nothing is read at TAIL, outside OPEN, or with 16 read ahead.  R198: a slot in a page that is not mapped is
passed over too, and nothing is put ahead.
R214, R215: CANCEL of commands that its target queue has not read marks each of them, COUNT0 holds how many it
reached, and a queue that the kennel does not have gives 0.
R220, R223, R224: a command whose effects are complete leaves the issued ones, and its record is at CTAIL, which goes
on by one; a command that is not complete stays.  R227: a quiet command that succeeded leaves no record. -/
def Obligations.QueueProgress : Prop :=
  (
  ∀ (s : State) (k q : Nat) (e : List Flip), k < 4096 → Runs s →
    (∀ x, s.queue k q = some x → (s.kennel k).st = .open → s.fatal = false → stopping s = false →
      s.dieOut = false → x.head ≠ x.tail → x.ahead.length < 16 → x.head ∉ x.skip → s.scent k = none →
      (s.part = .s → ∃ t, exec (.descriptorRead k q e) s = .next t ∧
        (∃ y, t.queue k q = some y ∧ y.head = x.head + 1 ∧ y.tail = x.tail ∧
          y.ahead = x.ahead ++ [⟨x.head, Tbl.get x.ring (x.head.toNat % 2 ^ x.log2) (List.replicate 64 0)⟩]) ∧
        t = { disturb e s with knl := t.knl }) ∧
      (s.part ≠ .s → e = [] →
        let va := x.base + 64 * (x.head.toNat % 2 ^ x.log2)
        ∀ pa, physAddr s k va = some pa → (pageEntry s k (va / 2 ^ 21)).isSome = true → s.cryptoErr = false →
        blockLost s (pa / 64) = false → s.pool.errsOf (pa / 64) = [] → ∃ t, exec (.descriptorRead k q e) s = .next t ∧
        (∃ y, t.queue k q = some y ∧ y.head = x.head + 1 ∧ y.tail = x.tail ∧
          y.ahead = x.ahead ++ [⟨x.head, readVa s k va 64⟩]) ∧
        t = { s with knl := t.knl, csr := t.csr, samp := t.samp, freeIdx := t.freeIdx }) ∧
      (s.part ≠ .s → pageEntry s k ((x.base + 64 * (x.head.toNat % 2 ^ x.log2)) / 2 ^ 21) = none →
        ∃ t, exec (.descriptorRead k q e) s = .next t ∧
        ∃ y, t.queue k q = some y ∧ y.head = x.head + 1 ∧ y.tail = x.tail ∧ y.ahead = x.ahead)) ∧
    (∀ x, s.queue k q = some x → (s.kennel k).st ≠ .open ∨ x.head = x.tail ∨ 16 ≤ x.ahead.length →
      exec (.descriptorRead k q e) s = .next (disturb e s)) ∧
    (s.queue k q = none → exec (.descriptorRead k q e) s = .next (disturb e s))
  ) ∧
  (
  ∀ (s : State) (k q : Nat) (x : Queue) (d : Desc), Issuable s k q x d → HeaderOk s k d → d.opc = 0x0F →
    let c := issuedCmd s k q d
    let tq := field d.bytes 16 1
    let n := field d.bytes 24 4
    let a : W32 := BitVec.ofNat 32 (field d.bytes 20 4)
    tq < 16 → tq ≠ q → nonzero d 17 19 = false → nonzero d 28 63 = false → n ≠ 0 → n ≤ 65536 →
    (s.queue k tq = none → exec (.cancel k q) s = .next (issuedAs s k q { c with done := true })) ∧
    (∀ y, s.queue k tq = some y → y.ahead = [] → issuedOf s k tq = [] → y.skip = [] → a = y.head →
      n ≤ (y.tail - y.head).toNat → ∃ t, exec (.cancel k q) s = .next t ∧
        (∃ z, t.queue k tq = some z ∧ z.skip = (upto n).map (fun i => y.head + BitVec.ofNat 32 i) ∧
          z.head = y.head ∧ z.tail = y.tail) ∧
        (∃ e, t.cmds = s.cmds ++ [e] ∧ e.cnt0 = n ∧ e.done = false ∧ e.seq = d.seq) ∧
        t = { s with knl := t.knl, cmds := t.cmds })
  ) ∧
  (
  ∀ (s : State) (c : Cmd), c.k < 4096 → Runs s → s.cmds = [c] → c.coll = none → s.dieOut = false →
    (isDone s c = false → exec (.commandComplete c.k c.q c.seq) s = .next s) ∧
    (isDone s c = true → c.opc ≠ 0x03 → c.opc ≠ 0x04 → bit c.sigw 15 = false →
      (s.kennel c.k).held = [] →
      let code := if c.status ≠ 0 then c.status else if c.cancelLost then Code.cancelLost else Code.ok
      let kn := s.kennel c.k
      ((c.quiet && code == 0) = false → kn.ringFull = false → ∃ t,
        exec (.commandComplete c.k c.q c.seq) s = .next t ∧ t.cmds = [] ∧
        (t.kennel c.k).ctail = kn.ctail + 1 ∧
        Tbl.get (t.kennel c.k).recs (kn.ctail.toNat % 2 ^ kn.cqLog) [] =
          withPhase (recordBytes code c.opc c.q c.seq c.cnt0 c.cnt1 s.nowNs) kn.ctail.toNat kn.cqLog ∧
        (t.kennel c.k).wh = kn.wh ∧
        t = { s with knl := t.knl, cmds := t.cmds, csr := t.csr, samp := t.samp, freeIdx := t.freeIdx }) ∧
      ((c.quiet && code == 0) = true → ∃ t, exec (.commandComplete c.k c.q c.seq) s = .next t ∧ t.cmds = [] ∧
        t.knl = s.knl ∧ t = { s with cmds := t.cmds, csr := t.csr, samp := t.samp, freeIdx := t.freeIdx }))
  )


/-! ## Accesses to the kennel view (spec/06, spec/17) -/
/-- R186, R192: a packet whose tag names no served kennel is answered PROTECTION, and a doorbell access outside OPEN is
answered KENNEL_RESET (also a READ, which is the model's choice).  R199: a READ of the page gives TAIL, then HEAD and
QSTS.
R201: a PUSH write of j descriptors, j from 1 to 32, places them from TAIL on and advances TAIL by j; with fewer than j
free slots it is answered RESOURCE_FULL and changes no queue, and one of another length or place is BAD_DESCRIPTOR.  On the
part without a pool the ring stands in queue SRAM.  On the others it stands in the pool, and the clause speaks of a push that
lies in one page and does not wrap; no other byte changes. -/
def Obligations.DoorbellsAndPush : Prop :=
  (
  ∀ (s : State) (a : Arrival) (k : Nat), Runs s → a.pkt.ktag ≠ 0 →
    (isTail a.pkt = true → servedKennel s a.pkt.ktag = none →
      exec (.tailWrite a) s = .next (sendErr a.pkt Code.protection (takeArrival a s))) ∧
    (servedKennel s a.pkt.ktag = some k → (s.kennel k).st ≠ .open →
      (isTail a.pkt = true → exec (.tailWrite a) s = .next (sendErr a.pkt Code.kennelReset (takeArrival a s))) ∧
      (isPush a.pkt = true → exec (.pushWrite a) s = .next (sendErr a.pkt Code.kennelReset (takeArrival a s))) ∧
      (isBellRead a.pkt = true →
        exec (.doorbellRead a) s = .next (sendErr a.pkt Code.kennelReset (takeArrival a s)))) ∧
    (servedKennel s a.pkt.ktag = some k → (s.kennel k).st = .open →
      let q := offOf a.pkt / 4096
      q < 16 → ∀ x, s.queue k q = some x →
      (isBellRead a.pkt = true → pageOffOf a.pkt = 0 → rlenOf a.pkt = 2 →
        exec (.doorbellRead a) s = .next (sendAnswer (readRspOf a.pkt
          (leBytes 16 x.tail.toNat ++ (leBytes 8 x.head.toNat ++ leBytes 8 (qsts s k q x))))
          (takeArrival a s)))) ∧
    (isTail a.pkt = false → exec (.tailWrite a) s = .next s) ∧
    (isPush a.pkt = false → exec (.pushWrite a) s = .next s) ∧
    (isBellRead a.pkt = false → exec (.doorbellRead a) s = .next s)
  ) ∧
  (
  ∀ (s : State) (a : Arrival) (k : Nat), Runs s → isPush a.pkt = true → a.pkt.ktag ≠ 0 →
    servedKennel s a.pkt.ktag = some k → (s.kennel k).st = .open →
    let q := offOf a.pkt / 4096
    let u := takeArrival a s
    q < 16 → ∀ x, s.queue k q = some x →
    (pageOffOf a.pkt ≠ 0x800 ∨ a.pkt.len.toNat % 4 ≠ 0 ∨ a.pkt.len = 0 ∨ 128 < a.pkt.len.toNat →
      exec (.pushWrite a) s = .next (sendErr a.pkt Code.badDescriptor u)) ∧
    (∀ j, 1 ≤ j → j ≤ 32 → pageOffOf a.pkt = 0x800 → a.pkt.len.toNat = 4 * j →
      (x.free < j → exec (.pushWrite a) s = .next (sendErr a.pkt Code.resourceFull u)) ∧
      (j ≤ x.free → s.part = .s →
        let slot := fun i => (x.tail.toNat + i) % 2 ^ x.log2
        let item := fun i => (a.pkt.payload.drop (64 * i)).take 64
        let ring := (upto j).foldl (fun r i => Tbl.set r (slot i) (item i)) x.ring
        exec (.pushWrite a) s = .next (sendAck a.pkt
          (modQueue k q (fun y => { y with tail := y.tail + BitVec.ofNat 32 j })
            (modQueue k q (fun y => { y with ring := ring }) u))) ∧
        (∀ i, i < j → Tbl.find ring (slot i) = some (item i))) ∧
      (j ≤ x.free → s.part ≠ .s →
        let slot := x.tail.toNat % 2 ^ x.log2
        let va := x.base + 64 * slot
        slot + j ≤ 2 ^ x.log2 → va % 2 ^ 21 + 64 * j ≤ 2 ^ 21 → a.pkt.payload.length = 64 * j → va % 64 = 0 →
        poolCheck s k va (.write a.pkt.payload) false = none → badFormat s k (va / 2 ^ 21) = false →
        (blocksOf s k va (64 * j)).any (blockLost s) = false → mirrorPages s k va (64 * j) = [] →
        mirrorPages (writeVa k va a.pkt.payload s) k va (64 * j) = [] → s.pool.accs = [] →
        ∀ pa, physAddr s k va = some pa → ∃ t, exec (.pushWrite a) s = .next t ∧
          (∃ y, t.queue k q = some y ∧ y.tail = x.tail + BitVec.ofNat 32 j ∧ y.head = x.head) ∧
          (∀ i, i < 64 * j → t.pool.byte (pa + i) = a.pkt.payload.getD i 0) ∧
          (∀ b, b < pa ∨ pa + 64 * j ≤ b → t.pool.byte b = s.pool.byte b) ∧ t.pool.accs = []))
  )

/-- R218: a READ of whistles returns consecutive values, a WRITE sets the whistles it covers, FADD_I64 adds modulo 2^64
and returns the old value, CAS64 stores when the old value compares equal and returns it.  R217: beyond the kennel's
count the answer is PROTECTION.
R217, R218: setting a whistle changes that whistle alone, and every WAIT of the kennel on it whose threshold it
reaches completes; an add wraps modulo 2^64. -/
def Obligations.WhistleAccessesAndValues : Prop :=
  (
  ∀ (s : State) (a : Arrival) (k : Nat), Runs s → a.pkt.ktag ≠ 0 → servedKennel s a.pkt.ktag = some k →
    s.scent k = none → s.dieOut = false → offOf a.pkt % 8 = 0 →
    let w := offOf a.pkt / 8
    let p := a.pkt
    let u := takeArrival a s
    (∀ n, isWhistle p 0x02 = true → rlenOf p = n → w + 2 * n ≤ (s.kennel k).nWh →
      exec (.whistleRead a) s = .next (sendAnswer
        (readRspOf p ((upto (2 * n)).flatMap fun i => leBytes 8 (s.whistle k (w + i)).toNat)) u)) ∧
    (isWhistle p 0x01 = true → p.len = 1 → w + 2 ≤ (s.kennel k).nWh →
      exec (.whistleWrite a) s = .next (sendAck p (whSet k (w + 1) (BitVec.ofNat 64 (field p.payload 8 8))
        (whSet k w (BitVec.ofNat 64 (field p.payload 0 8)) u)))) ∧
    (isWhistle p 0x04 = true → w + 1 ≤ (s.kennel k).nWh →
      exec (.whistleFaddI64 a) s = .next (sendAnswer (atomRspOf p (s.whistle k w).toNat)
        (whAdd k w (BitVec.ofNat 64 (field p.payload 0 8)) u))) ∧
    (isWhistle p 0x06 = true → w + 1 ≤ (s.kennel k).nWh →
      exec (.whistleCas64 a) s = .next (sendAnswer (atomRspOf p (s.whistle k w).toNat)
        (if (s.whistle k w).toNat = field p.payload 0 8 then
          whSet k w (BitVec.ofNat 64 (field p.payload 8 8)) u else u))) ∧
    (isWhistle p 0x04 = true → (s.kennel k).nWh ≤ w →
      exec (.whistleFaddI64 a) s = .next (sendErr p Code.protection u)) ∧
    (isWhistle p 0x02 = false → exec (.whistleRead a) s = .next s) ∧
    (isWhistle p 0x01 = false → exec (.whistleWrite a) s = .next s) ∧
    (isWhistle p 0x04 = false → exec (.whistleFaddI64 a) s = .next s) ∧
    (isWhistle p 0x06 = false → exec (.whistleCas64 a) s = .next s)
  ) ∧
  (
  ∀ (s : State) (k w : Nat) (v : W64),
    (whSet k w v s).whistle k w = v ∧ (whAdd k w v s).whistle k w = s.whistle k w + v ∧
    (∀ j i, j ≠ k ∨ i ≠ w → (whSet k w v s).whistle j i = s.whistle j i ∧
      (whAdd k w v s).whistle j i = s.whistle j i) ∧
    (∀ c, c ∈ s.cmds → c.k = k → c.opc = 0x01 → field c.desc 2 2 % 4096 = w → field c.desc 6 6 ≤ v.toNat →
      { c with done := true } ∈ (whSet k w v s).cmds) ∧
    whSet k w v s = { s with knl := (whSet k w v s).knl, cmds := (whSet k w v s).cmds }
  )

/-- R508, R509: a READ of the counter view within a kennel's view mask returns the counters at its offsets, and outside
the mask PROTECTION.  R223: CHEAD moves forward to at most CTAIL, a READ of the control page returns CTAIL and CHEAD, or
records.  R407: KFEA takes the AND with the module's accepted set before the kennel is first opened.  R518: what no
region serves is BAD_DESCRIPTOR.
R93, R107: an answer that is not twin-marked and has a route goes before the switch core as a request of its own, with
the identities swapped and the tag, generation, window and number of the packet it answers, its check formed (R94). -/
def Obligations.ViewAndRingAccesses : Prop :=
  (
  ∀ (s : State) (a : Arrival) (k : Nat), Runs s → a.pkt.ktag ≠ 0 → servedKennel s a.pkt.ktag = some k →
    let p := a.pkt
    let u := takeArrival a s
    let kn := s.kennel k
    (isCounterRead p = true → offOf p % 8 = 0 → offOf p + 16 * rlenOf p ≤ 0xB000 →
      let offs := (upto (2 * rlenOf p)).map fun i => offOf p + 8 * i
      ((∀ o, o ∈ offs → bit kn.viewMask (viewBit o) = true) → exec (.counterViewRead a) s = .next
        (sendAnswer (readRspOf p (offs.flatMap fun o => leBytes 8 (viewWord s k o))) u)) ∧
      (∀ o, o ∈ offs → bit kn.viewMask (viewBit o) = false →
        exec (.counterViewRead a) s = .next (sendErr p Code.protection u))) ∧
    (isCheadWrite p = true → offOf p = 0x10 → p.len = 1 → field p.payload 4 12 = 0 → kn.held = [] →
      let new : W32 := BitVec.ofNat 32 (field p.payload 0 4)
      ((new - kn.chead).toNat ≤ (kn.ctail - kn.chead).toNat →
        exec (.cheadWrite a) s = .next (sendAck p (u.modKennel k fun x => { x with chead := new }))) ∧
      ((kn.ctail - kn.chead).toNat < (new - kn.chead).toNat →
        exec (.cheadWrite a) s = .next (sendErr p Code.badDescriptor u))) ∧
    (isRingRead p = true → offOf p = 0 → rlenOf p = 2 →
      exec (.completionControlRead a) s = .next (sendAnswer
        (readRspOf p (leBytes 16 kn.ctail.toNat ++ leBytes 16 kn.chead.toNat)) u)) ∧
    (isRingRead p = true → 0x1000 ≤ offOf p → offOf p % 16 = 0 →
      offOf p + 16 * rlenOf p ≤ 0x1000 + 32 * 2 ^ kn.cqLog →
      exec (.completionControlRead a) s = .next (sendAnswer
        (readRspOf p (recordRead kn (offOf p - 0x1000) (16 * rlenOf p))) u)) ∧
    (isKfeaWrite p = true → offOf p = 0x120 → p.len = 2 →
      (kn.st = .created → kn.everOpen = false → kn.repro = false → exec (.kfeaWrite a) s = .next
        (sendAck p (u.modKennel k fun x =>
          { x with feat := BitVec.ofNat 64 (field p.payload 0 32 &&& s.accepted) }))) ∧
      (kn.st ≠ .created → exec (.kfeaWrite a) s = .next (sendErr p Code.protection u))) ∧
    (opcClass p.opc.toNat = some 0 → servedElsewhere p = false →
      exec (.unservedAccess a) s = .next (sendErr p Code.badDescriptor u)) ∧
    (servedElsewhere p = true → exec (.unservedAccess a) s = .next s) ∧
    (isCounterRead p = false → exec (.counterViewRead a) s = .next s) ∧
    (isCheadWrite p = false → exec (.cheadWrite a) s = .next s) ∧
    (isRingRead p = false → exec (.completionControlRead a) s = .next s) ∧
    (isKfeaWrite p = false → exec (.kfeaWrite a) s = .next s)
  ) ∧
  (
  ∀ (s : State) (q : Packet) (pl : List Byte) (opc len : Nat), q.twn = false →
    let p := { answerHead q opc len pl with epb := s.spg.epb }.seal
    ∀ out vc dln, route s s.spg.active (internalPos p) p = (.port out vc dln, s) →
      ∃ f, (sendAnswer (answerHead q opc len pl) s).xbr.flows = s.xbr.flows ++ [f] ∧
        f.id = s.xbr.nextId ∧ f.out = out ∧ f.evc = vc ∧ f.hdr.dst = q.src ∧ f.hdr.src = q.dst ∧
        f.hdr.ktag = q.ktag ∧ f.hdr.gen = q.gen ∧ f.hdr.win = q.win ∧ f.hdr.psn = q.psn ∧
        f.hdr.opc = BitVec.ofNat 6 opc ∧ f.bytes = Packet.bytes { p with vc := BitVec.ofNat 3 vc, dln := dln }
  )


/-! ## Pool (spec/07) -/
/-- R241: a checked access of the fabric, every page of which has a well-formed entry, joins the pool's accesses when no
test fails, and is answered with the failing test's code otherwise; the tests in their order: the feature, the alignment,
the entry, its W, MTARGET, and FADD_F32 in a REPRO kennel.  R234, R517: only a packet of the pool window is one. -/
def Obligations.PoolAccesses : Prop :=
  ∀ (s : State) (a : Arrival) (k : Nat), Runs s → a.pkt.ktag ≠ 0 → servedKennel s a.pkt.ktag = some k →
    s.scent k = none →
    let p := a.pkt
    let va := p.addr.toNat
    let u := takeArrival a s
    (∀ (c : Instr) (n : Nat) (op : PoolOp),
      (c, n, op) ∈ [(Instr.poolRead a, 2, PoolOp.read (16 * rlenOf p)), (.poolWrite a, 1, .write p.payload),
        (.poolFaddI32 a, 3, .faddI32 (BitVec.ofNat 32 (field p.payload 0 4))),
        (.poolFaddI64 a, 4, .faddI64 (BitVec.ofNat 64 (field p.payload 0 8))),
        (.poolFaddF32 a, 5, .faddF32 (BitVec.ofNat 32 (field p.payload 0 4))),
        (.poolCas64 a, 6, .cas (BitVec.ofNat 64 (field p.payload 0 8)) (BitVec.ofNat 64 (field p.payload 8 8)))] →
      (isPool p n = false → exec c s = .next s) ∧
      (isPool p n = true → (∀ q, q ∈ pagesOf va op.len → badFormat s k q = false) →
        (poolCheck s k va op (fromMate a s) = none → exec c s = .next { u with pool := { s.pool with
          accs := s.pool.accs ++ [{ id := s.pool.nextAcc, k := k, va := va, op := op, asker := .fabric p a.port,
                                    at' := s.time }],
          nextAcc := s.pool.nextAcc + 1 } }) ∧
        (∀ code, poolCheck s k va op (fromMate a s) = some code → exec c s = .next (sendErr p code u)))) ∧
    (∀ (op : PoolOp) (mirror : Bool), s.hasPool = true → s.cryptoErr = false → s.dieOut = false →
      let kn := s.kennel k
      (kn.feature 1 = false → poolCheck s k va op mirror = some Code.featureNotAccepted) ∧
      (op.isAtomic = true → kn.feature 2 = false → poolCheck s k va op mirror = some Code.featureNotAccepted) ∧
      (kn.feature 1 = true → kn.feature 2 = true →
        (va % op.align ≠ 0 → poolCheck s k va op mirror = some Code.badDescriptor) ∧
        (va % op.align = 0 → pagesOf va op.len = [va / 2 ^ 21] →
          (pageEntry s k (va / 2 ^ 21) = none → poolCheck s k va op mirror = some Code.protection) ∧
          (∀ e, pageEntry s k (va / 2 ^ 21) = some e →
            (op.isWrite = true → Pte.w e = false ∨ (Pte.mt e = true ∧ mirror = false) →
              poolCheck s k va op mirror = some Code.protection) ∧
            (op.isWrite = false → poolCheck s k va op mirror = none) ∧
            (Pte.w e = true → Pte.mt e = false →
              (∀ v, op = .faddF32 v → poolCheck s k va op mirror =
                if kn.repro then some Code.notReproducible else none) ∧
              (∀ v, op = .faddI64 v → poolCheck s k va op mirror = none))))))

/-- R246, R248, R252: in Dynamic mode the only access, whose blocks are good and whose pages are not mirrored, is served: a READ is
answered with the bytes, a WRITE stores its bytes and is acknowledged, an atomic stores its result and is answered with
the old value; no other byte changes.  R245, R246: a block with one symbol in error is corrected, counted and recorded,
and its bytes come out as they were written; an uncorrectable one answers CHECK_FAIL, is counted and recorded, and stays
uncorrectable.
A store through the kennel's window changes the bytes it covers and no other, and keeps the memory's canonical form;
reading them gives them back, unless the store has changed the page's own translation (R234, R236). -/
def Obligations.PoolServing : Prop :=
  (
  ∀ (s : State) (a : PoolAcc) (pkt : Packet) (port : Nat), Runs s →
    s.pool.accs = [a] → a.asker = .fabric pkt port → a.served = false → s.rd F.POL_STS_CUR = 0 →
    s.pool.retrain = false → s.scent a.k = none → s.dieOut = false → s.cryptoErr = false →
    s.rd F.POL_STS_STKUP = 255 → s.pool.errs = [] → a.parts = [] →
    let drain := s.pool.drain.filter fun c => !(accChannels s a).contains c
    let turn := (accChannels s a).foldl (fun t ch => Tbl.put t ch 0 33) s.pool.turn
    let old := readVa s a.k a.va a.op.len
    let stored := fun (d : List Byte) (t : State) =>
      { t with pool := (writeVa a.k a.va d s).pool }
    let done := fun (t : State) => { t with pool := { t.pool with accs := [], drain := drain, turn := turn } }
    let apart := fun (d : List Byte) => mirrorPages (writeVa a.k a.va d s) a.k a.va d.length = []
    let updated := fun (d : List Byte) => apart d → exec (.hbmAccessDone a.id []) s = .next (sendAnswer (atomRspOf pkt (leVal old))
      (done (stored d (s.count F.CTR_KNL_COUNT (16 * a.k + 8)))))
    (∀ n, a.op = .read n → exec (.hbmAccessDone a.id []) s = .next (sendAnswer (readRspOf pkt old)
      (done (s.count F.CTR_KNL_COUNT (16 * a.k + 6) n)))) ∧
    (∀ d, a.op = .write d → apart d → exec (.hbmAccessDone a.id []) s = .next (sendAck pkt
      (done (stored d (s.count F.CTR_KNL_COUNT (16 * a.k + 7) d.length))))) ∧
    (∀ v, a.op = .faddI32 v → updated (leBytes 4 ((leVal old + v.toNat) % 2 ^ 32))) ∧
    (∀ v, a.op = .faddI64 v → updated (leBytes 8 ((leVal old + v.toNat) % 2 ^ 64))) ∧
    (∀ v, a.op = .faddF32 v → updated (leBytes 4 (add32 (leVal old) v.toNat))) ∧
    (∀ v w, a.op = .cas v w → leVal old = v.toNat → updated (leBytes 8 w.toNat)) ∧
    (∀ v w, a.op = .cas v w → leVal old ≠ v.toNat → exec (.hbmAccessDone a.id []) s = .next
      (sendAnswer (atomRspOf pkt (leVal old)) (done (s.count F.CTR_KNL_COUNT (16 * a.k + 8))))) ∧
    (∀ n b j m, a.op = .read n → readBlocks s a.k a.va a.op = [b] → j < 38 →
      decodeErrs [(j, m.toNat)] = .corrected j m.toNat → exec (.hbmAccessDone a.id [⟨b, j, m⟩]) s = .next
        (sendAnswer (readRspOf pkt old) (done ((logCorrected b s).count F.CTR_KNL_COUNT (16 * a.k + 6) n)))) ∧
    (∀ n b es, a.op = .read n → readBlocks s a.k a.va a.op = [b] → (disturb es s).pool.isBad b = true →
      exec (.hbmAccessDone a.id es) s = .next (settle (sendErr pkt Code.checkFail
        (done (logUncorrectable b (disturb es s)))))) ∧
    (∀ id e, id ≠ a.id → exec (.hbmAccessDone id e) s = .next (disturb e s))
  ) ∧
  (
  ∀ (s : State) (k va : Nat) (d : List Byte) (pa : Nat), d ≠ [] →
    va / 2 ^ 21 = (va + d.length - 1) / 2 ^ 21 → physAddr s k va = some pa →
    let t := writeVa k va d s
    (∀ i, i < d.length → t.pool.byte (pa + i) = d.getD i 0) ∧
    (∀ b, b < pa ∨ pa + d.length ≤ b → t.pool.byte b = s.pool.byte b) ∧
    (pageEntry t k (va / 2 ^ 21) = pageEntry s k (va / 2 ^ 21) → readVa t k va d.length = d) ∧ (MemOk s → MemOk t) ∧ t = { s with pool := t.pool }
  )

/-- R251: a mirror write that is not answered in time marks its page stale, raises MGEN by one, counts the failure and
asserts the source, and the access waits for it no longer.  R254: in Dynamic mode an entry serves
nothing.  R373: in an unclaimed or a SCRUB entry the corrected blocks that wait are written back.  R238: an invalidation is the monitor's, and completes
when no access that was past translation remains.  R256: a pending mode takes effect at a table wrap with no Static program
running.  R495: a retraining that ends releases the accesses.  R235: a per-bank refresh shows nothing.
R247: patrol scrub reads one block: a good one only moves it on, a corrected one is counted; after the last block of
the pool it starts again and counts the pass. -/
def Obligations.PoolMaintenance : Prop :=
  (
  ∀ (s : State), Runs s →
    (∀ o e id, s.ni.outst = [o] → o.owner = .mirror id → s.pool.accs = [] → s.ni.queue = [] → s.tray.resync = none →
      effSev s 723 ≤ 1 → stickyBit s 723 = false → quietSource s 723 = false → o.kennel < 4096 →
      pageEntry s o.kennel (o.pkt.addr.toNat / 2 ^ 21) = some e → Pte.stale e = false →
      ∃ t, exec (.mirrorWriteTimeout id) s = .next t ∧
        (∀ a, entryAddr s o.kennel (o.pkt.addr.toNat / 2 ^ 21) = some a → t.pool.word a = (e ||| 16) % 2 ^ 32 + (Pte.mgen e + 1) % 2 ^ 32 * 2 ^ 32) ∧
        t.rd F.POL_MIRFAIL_CNT_COUNT =
          min (s.rd F.POL_MIRFAIL_CNT_COUNT + 1) (2 ^ F.POL_MIRFAIL_CNT_COUNT.w - 1) ∧
        stickyBit t 723 = true ∧ t.ni.outst = [{ o with owner := .module }] ∧
        t = { s with pool := { s.pool with mem := t.pool.mem }, ni := t.ni, csr := t.csr, samp := t.samp,
                     freeIdx := t.freeIdx }) ∧
    (∀ id, s.ni.outst = [] → exec (.mirrorWriteTimeout id) s = .next s) ∧
    (∀ e, e < 1280 → s.rd F.POL_STS_CUR = 0 → exec (.slotEntryStart e) s = .next s) ∧
    (∀ e c m k p va line, e < 1280 → s.rd F.POL_STS_CUR = 1 → s.cyc.toNat % 18 = 0 → s.cyc.toNat / 18 % 1280 = e →
      (slotEntry s e).kind = 0 → (slotEntry s e).core = c → c < 32 → (s.core c).moves = [m] → m.served = false →
      m.op = .postRead s.cyc.toNat va line 1 → coreProg s c = some p → p.k = k → va < 2 ^ 64 →
      (∀ q, q ∈ pagesOf va 64 → badFormat s k q = false) → poolCheck s k va (.read 64) false = none →
      s.rd F.POL_STS_STKUP = 255 → s.pool.errs = [] → exec (.slotEntryStart e) s = .next
        (modMove c m.id (fun m => { m with served := true, data := [readVa s k va 64] })
          (s.count F.CTR_KNL_COUNT (16 * k + 6) 64))) ∧
    (∀ e, e < 1280 → s.rd F.POL_STS_CUR = 1 → s.cyc.toNat % 18 = 0 → s.cyc.toNat / 18 % 1280 = e →
      ((slotEntry s e).kind = 3 ∨ ((slotEntry s e).kind = 0 ∧ entryClaimed s s.cyc.toNat = false)) →
      exec (.slotEntryStart e) s = .next (writeBack s)) ∧
    (∀ n all, s.hasPool = true → s.dieOut = false →
      (s.pool.inval = none → ∃ t, exec (.translationInvalidate .monitor n all) s = .next t ∧
        t.pool = { s.pool with inval := some (if all then none else some n.toNat, s.pool.nextAcc) } ∧
        t.rd F.POL_TINV_DONE = 0 ∧ t.rd F.POL_TINV_KENNEL = n.toNat ∧
        t = { s with csr := t.csr, pool := t.pool }) ∧
      (∀ b, quietSource s 720 = false → stickyBit s 720 = false → effSev s 720 ≤ 1 → b ≠ .monitor →
        ∃ t, exec (.translationInvalidate b n all) s = .next t ∧ stickyBit t 720 = true ∧
          t = { s with csr := t.csr, samp := t.samp, freeIdx := t.freeIdx })) ∧
    (∀ x b, s.pool.inval = some (x, b) →
      ((∀ a, a ∈ s.pool.accs → b ≤ a.id) → exec .translationInvalidateDone s = .next
        { s.wr F.POL_TINV_DONE 1 with pool := { s.pool with inval := none } }) ∧
      (∀ a, s.pool.accs = [a] → a.id < b → x = some a.k → exec .translationInvalidateDone s = .next s)) ∧
    (s.hasPool = true → s.dieOut = false →
      (s.rd F.POL_STS_CUR = 1 → exec .polModeDynamic s = .next
        ((s.wr F.POL_MODE_MODE 0).wr F.POL_MODE_PEND 1)) ∧
      (s.feature 4 = true → s.rd F.CLK_STS_HBMPT = 0 → s.rd F.POL_STS_CUR = 0 →
        (tableOk s = true → exec .polModeStatic s = .next ((s.wr F.POL_MODE_MODE 1).wr F.POL_MODE_PEND 1)) ∧
        (tableOk s = false → exec .polModeStatic s = .next (s.wr F.POL_STS_TBLBAD 1)))) ∧
    (s.rd F.POL_MODE_PEND = 1 →
      (s.cyc.toNat % 23040 = 0 → (∀ p, p ∈ s.isl.progs → p.static = false) → exec .poolModeChange s = .next
        (writeBack ((s.wr F.POL_STS_CUR (s.rd F.POL_MODE_MODE)).wr F.POL_MODE_PEND 0))) ∧
      (s.cyc.toNat % 23040 ≠ 0 → exec .poolModeChange s = .next s)) ∧
    exec .hbmRetrainDone s = .next { s with pool := { s.pool with retrain := false } } ∧
    (∀ i, i < 8 → exec (.perBankRefresh i) s = .next s)
  ) ∧
  (
  ∀ (s : State), Runs s → s.hasPool = true → s.dieOut = false → s.pool.retrain = false → s.rd F.POL_STS_CUR = 0 →
    let b := s.pool.scrubPos
    let on := { s with pool := { s.pool with scrubPos := b + 1 } }
    (s.rd F.POL_SCRUB_EN = 0 → ∀ e, exec (.patrolScrubStep e) s = .next (disturb e s)) ∧
    (s.rd F.POL_SCRUB_EN = 1 → s.rd F.POL_STS_STKUP = 255 → s.pool.errsOf b = [] →
      (b + 1 < 196608 * 32768 →
        exec (.patrolScrubStep []) s = .next on ∧
        (∀ j m, j < 38 → decodeErrs [(j, m.toNat)] = .corrected j m.toNat →
          ∃ t, exec (.patrolScrubStep [⟨b, j, m⟩]) s = .next t ∧ t.pool = on.pool ∧
          t.rd F.POL_CE_CNT_COUNT = min (s.rd F.POL_CE_CNT_COUNT + 1) (2 ^ F.POL_CE_CNT_COUNT.w - 1) ∧
          t.rd F.POL_ECCLOG_VALID 0 = 1 ∧ t.rd F.POL_ECCLOG_BLOCK 0 = b % 2 ^ F.POL_ECCLOG_BLOCK.w ∧
          t = { on with csr := t.csr, samp := t.samp, freeIdx := t.freeIdx })) ∧
      (b + 1 = 196608 * 32768 → exec (.patrolScrubStep []) s = .next
        ((({ s with pool := { s.pool with scrubPos := 0 } }).wr F.POL_STS_SCRUBDONE 1).wr F.POL_SCRUB_PASSES
          (s.rd F.POL_SCRUB_PASSES + 1))))
  )


/-! ## Kennels (spec/06, spec/07) -/
/-- R189, R190: KCREATE makes the lowest FREE index CREATED with its tag, generation, whistles, ring and the module's
accepted set, and clears its counters; with no room it returns RESOURCE_FULL.  R193, R195: KRESET completes the kennel's
commands with KENNEL_RESET, or with their own status where they were done (R296), and moves each HEAD to TAIL (R224: the counts of a COPY or FILL stand in its record); RESETTING ends in CREATED.  R196, R197: KTEARDOWN
leaves the kennel CLOSING without ports, cores, key or collective tags (R267); at its end the index is FREE and its tag in quarantine, which the
quarantine's end lifts.  R232: KQUERY answers KNL_STS. -/
def Obligations.KennelLifecycle : Prop :=
  ∀ (s : State), Runs s →
    (servesCalls s = true →
    (∀ (tag gen w n : W64) (k : Nat), s.rd F.FEA_LOCK_LOCK = 1 → tag ≠ 0 → tag.toNat ≤ 0xFFFF → gen.toNat ≤ 15 →
      1 ≤ w.toNat → w.toNat ≤ 4096 → 6 ≤ n.toNat → n.toNat ≤ 16 → liveKennel s (BitVec.ofNat 16 tag.toNat) = none →
      s.quarTags.contains (BitVec.ofNat 16 tag.toNat) = false → Tbl.find s.lastGen tag.toNat ≠ some gen.toNat →
      whistlesUsed s + w.toNat ≤ 1048576 → storageUsed s + (8 * w.toNat + 32 * 2 ^ n.toNat) ≤ storageRoom s →
      (freeKennel s = some k → ∃ t, exec (.kcreate tag gen 0 w n) s = .next t ∧
        t.kennel k = { st := .created, ktag := BitVec.ofNat 16 tag.toNat, gen := BitVec.ofNat 4 gen.toNat,
                       feat := BitVec.ofNat 64 s.accepted, nWh := w.toNat, cqLog := n.toNat,
                       fatal := (s.kennel k).fatal } ∧
        (∀ j, j ≠ k → t.kennel j = s.kennel j) ∧ (∀ i, i < 16 → t.rd F.CTR_KNL_COUNT (16 * k + i) = 0) ∧
        Tbl.find t.lastGen tag.toNat = some gen.toNat ∧ t.host = { s.host with status := 0, value := BitVec.ofNat 64 k } ∧
        t = { s with knl := t.knl, csr := t.csr, lastGen := t.lastGen, host := t.host }) ∧
      (freeKennel s = none → exec (.kcreate tag gen 0 w n) s = .next (refuse Code.resourceFull s))) ∧
    (∀ k : W64, k.toNat < 4096 →
      let x := s.kennel k.toNat
      (x.st = .created → x.queues ≠ [] → x.feature 1 = false → ringUnmapped s k.toNat = false →
        exec (.kopen k) s = .next (okWith 0 (s.modKennel k.toNat fun x =>
          { x with st := .open, everOpen := true, fatal := false }))) ∧
      (x.st ≠ .created → exec (.kopen k) s = .next (refuse Code.protection s)) ∧
      (x.st = .open → s.isl.progs = [] → s.ni.outst = [] → s.ni.queue = [] → x.held = [] →
        ((∀ c, c ∈ s.cmds → c.k ≠ k.toNat) → ∃ t, exec (.kreset k) s = .next t ∧
          (t.kennel k.toNat).st = .resetting ∧
          (∀ q, q < 16 → ∀ y, Tbl.find x.queues q = some y → ∃ z, Tbl.find (t.kennel k.toNat).queues q = some z ∧
            z.head = y.tail ∧ z.tail = y.tail ∧ z.ahead = []) ∧
          (∀ j, j ≠ k.toNat → t.kennel j = s.kennel j) ∧ t.cmds = s.cmds ∧
          t.rtv.colls = s.rtv.colls.filter (fun c => c.k != k.toNat) ∧ t.host.status = 0 ∧
          t.rd F.CTR_KNL_COUNT (16 * k.toNat + 14) =
            min (s.rd F.CTR_KNL_COUNT (16 * k.toNat + 14) + 1) (2 ^ F.CTR_KNL_COUNT.w - 1) ∧
          t = { s with knl := t.knl, csr := t.csr, rtv := t.rtv, det := t.det, ni := t.ni, host := t.host,
                       samp := t.samp, freeIdx := t.freeIdx }) ∧
        (∀ c, s.cmds = [c] → c.k = k.toNat → c.q < 16 → c.quiet = false → c.coll = none → bit c.sigw 15 = false →
          s.dieOut = false → x.ringFull = false → ∃ t, exec (.kreset k) s = .next t ∧ t.cmds = [] ∧
          (t.kennel k.toNat).ctail = x.ctail + 1 ∧
          Tbl.find (t.kennel k.toNat).recs (x.ctail.toNat % 2 ^ x.cqLog) = some (withPhase
            (recordBytes (if c.status ≠ 0 ∨ isDone s c = true then c.finalStatus else Code.kennelReset) c.opc c.q c.seq c.counted.cnt0 c.counted.cnt1 s.nowNs) x.ctail.toNat x.cqLog))) ∧
      (x.st ≠ .open → exec (.kreset k) s = .next (refuse Code.protection s)) ∧
      (x.st = .created → s.cmds = [] → s.isl.progs = [] → s.ni.outst = [] → s.ni.queue = [] → x.held = [] → s.pool.accs = [] →
        ∃ t, exec (.kteardown k) s = .next t ∧ (t.kennel k.toNat).st = .closing ∧ t.host.status = 0 ∧
          (∀ p, p < 144 → boundKennel t p ≠ some k.toNat) ∧ heldCores t k.toNat = [] ∧
          (∀ slot, x.key = some slot → slotFull t slot = false) ∧
          (∀ i, i < 16 → t.rd F.CTR_KNL_COUNT (16 * k.toNat + i) = 0) ∧
          t.rtv.next = s.rtv.next.filter (fun n => n.1 / 8192 != k.toNat) ∧
          (∀ j, j ≠ k.toNat → t.kennel j = s.kennel j) ∧
          t = { s with knl := t.knl, csr := t.csr, rtv := t.rtv, det := t.det, ni := t.ni, host := t.host,
                       klp := t.klp, isl := t.isl, binds := t.binds, scents := t.scents, samp := t.samp,
                       freeIdx := t.freeIdx }) ∧
      (x.st ≠ .created → x.st ≠ .open → exec (.kteardown k) s = .next (refuse Code.protection s)) ∧
      exec (.kquery k) s = .next (okWith (knlSts x + 2 ^ 32 * (heldCores s k.toNat).length) s))) ∧
    (∀ k, k < 4096 →
      ((s.kennel k).st = .resetting →
        exec (.kennelResetEnd k) s = .next (s.modKennel k fun x => { x with st := .created })) ∧
      ((s.kennel k).st ≠ .resetting → exec (.kennelResetEnd k) s = .next s) ∧
      ((s.kennel k).st = .closing → ∃ t, exec (.teardownEnd k) s = .next t ∧ t.kennel k = { fatal := (s.kennel k).fatal } ∧
        t.quarTags = s.quarTags ++ [(s.kennel k).ktag] ∧ (∀ j, j ≠ k → t.kennel j = s.kennel j) ∧
        t.pool = { (clearTables k s).pool with accs := s.pool.accs.filter fun a => a.k != k } ∧
        t = { s with knl := t.knl, quarTags := t.quarTags, pool := t.pool }) ∧
      ((s.kennel k).st ≠ .closing → exec (.teardownEnd k) s = .next s)) ∧
    (∀ tag, exec (.ktagQuarantineEnd tag) s = .next { s with quarTags := s.quarTags.filter (· != tag) })

/-- R411, R425: where no monitor serves them, calls do nothing.  R191: a monitor call whose kennel index is beyond 4095 returns BAD_DESCRIPTOR and changes nothing else.  R188, R192,
R198: in the states that allow it each grant is recorded, and ownership of the cores it names.  R236, R239, R240: KMAP maps a
zeroed page with a word of the kennel's level-2 table, KUNMAP takes the entry away, and KPROT replaces the flags. -/
def Obligations.KennelGrants : Prop :=
  ∀ (s : State) (k : W64), Runs s →
    (servesCalls s = false → ∀ a b : W64, exec (.kopen k) s = .next s ∧ exec (.kreset k) s = .next s ∧
      exec (.kteardown k) s = .next s ∧ exec (.kquery k) s = .next s ∧ exec (.kbindport k a) s = .next s ∧
      exec (.kbindkey k a) s = .next s ∧ exec (.kmap k a b 0) s = .next s) ∧
    (servesCalls s = true →
    let i := k.toNat
    let x := s.kennel i
    let ok := fun (f : Kennel → Kennel) => (okWith 0 (s.modKennel i f) : State)
    (4095 < i → ∀ (a b : W64),
      let bad := Host.Outcome.next (refuse Code.badDescriptor s)
      exec (.kbindport k a) s = bad ∧ exec (.kunbindport k a) s = bad ∧ exec (.kbindrank k a b []) s = bad ∧
      exec (.kbindkey k a) s = bad ∧ exec (.kgrantcore k 0) s = bad ∧ exec (.kgrantctr k a) s = bad ∧
      exec (.kqcreate k a b 6) s = bad ∧ exec (.kopen k) s = bad ∧ exec (.kreset k) s = bad ∧
      exec (.kteardown k) s = bad ∧ exec (.kquery k) s = bad) ∧
    (i < 4096 →
      (∀ p : W64, p.toNat < 144 → x.st = .created ∨ x.st = .open →
        (s.role p.toNat = 0 → (∀ b, armedBank s = some b → b.role p.toNat = 0) → boundKennel s p.toNat = none →
          exec (.kbindport k p) s = .next (okWith 0 { s with binds := Tbl.set s.binds p.toNat i })) ∧
        (s.role p.toNat ≠ 0 ∨ (∃ b, armedBank s = some b ∧ b.role p.toNat ≠ 0) → exec (.kbindport k p) s = .next (refuse Code.protection s)) ∧
        (boundKennel s p.toNat = some i →
          exec (.kunbindport k p) s = .next (okWith 0 { s with binds := Tbl.erase s.binds p.toNat })) ∧
        (boundKennel s p.toNat ≠ some i → exec (.kunbindport k p) s = .next (refuse Code.protection s))) ∧
      (∀ m : W64, m.toNat ≤ 7 → x.st = .created ∨ x.st = .open →
        exec (.kgrantctr k m) s = .next (ok fun x => { x with viewMask := m.toNat })) ∧
      (x.st = .created →
        (∀ (loc n : W64) (l : List W32), 1 ≤ n.toNat → n.toNat ≤ 65536 → loc.toNat < 2 ^ 40 → s.part ≠ .s → inMonitor s loc.toNat (4 * n.toNat) = false →
          ∃ t, exec (.kbindrank k loc n l) s = .next t ∧ (t.kennel i).rankN = n.toNat ∧
            (t.kennel i).rankLoc = loc.toNat ∧
            (∀ r, r < n.toNat → Tbl.get (t.kennel i).ranks r 0 = (l.getD r 0).toNat % 2 ^ 17) ∧
            t = okWith 0 (s.setKennel i { x with rankN := n.toNat, rankLoc := loc.toNat, ranks := (t.kennel i).ranks })) ∧
        (∀ r : W64, s.hasPool = true → x.feature 1 = true → r.toNat % 65536 = 0 → r.toNat < 196608 * 2 ^ 21 →
          x.root ≠ some r.toNat →
          exec (.kbindpage k r) s = .next (okWith 0 ((clearTables i s).modKennel i fun x =>
            { x with root := some r.toNat }))) ∧
        (∀ l : W64, l.toNat < 4096 → slotFull s l.toNat = true → slotBound s l.toNat = false → x.key = none →
          exec (.kbindkey k l) s = .next (ok fun x => { x with key := some l.toNat })) ∧
        (∀ l : W64, l.toNat < 4096 → slotFull s l.toNat = false →
          exec (.kbindkey k l) s = .next (refuse Code.protection s)) ∧
        (∀ (q base n : W64) (num : Nat), q.toNat < 16 → Tbl.find x.queues q.toNat = none → 6 ≤ n.toNat → n.toNat ≤ 16 →
          s.part ≠ .s → base.toNat % min (64 * 2 ^ n.toNat) (2 ^ 21) = 0 → base.toNat < 2 ^ 46 →
          lowestFree (queueNums s) 16384 = some num →
          exec (.kqcreate k q base n) s = .next (ok fun x =>
            { x with queues := Tbl.set x.queues q.toNat { num := num, base := base.toNat, log2 := n.toNat } }))) ∧
      (∀ (c : Nat), c < 32 → x.st = .created ∨ x.st = .open → x.feature 5 = true → bit s.part.cores c = true →
        (s.core c).st = .free → s.rd F.CMP_OWN_VALID c = 0 → heldCores s i = [] → ∃ t,
        exec (.kgrantcore k (BitVec.ofNat 64 (2 ^ c))) s = .next t ∧ t.rd F.CMP_OWN_VALID c = 1 ∧
          t.rd F.CMP_OWN_KENNEL c = i ∧ (t.core c).st = .idle ∧ t.host.status = 0 ∧
          (∀ d, d ≠ c → t.core d = s.core d) ∧
          t = { s with csr := t.csr, isl := t.isl, host := t.host }) ∧
      (∀ (va ppn fl : W64), s.hasPool = true → va.toNat % 2 ^ 21 = 0 → va.toNat < 2 ^ 46 → ppn.toNat ≤ 196607 →
        x.st = .created ∨ x.st = .open →
        let page := va.toNat / 2 ^ 21
        (fl = 0 ∨ fl = 2 → pageHeld s ppn.toNat = false → ppn.toNat < s.rd F.POL_MONRGN_FIRST →
          Pte.v (entry2 s i page) = false → x.key.isSome = true → x.feature 1 = true →
          let z := zeroPage ppn.toNat s
          ∀ r, x.root = some r → ∀ a, entryAddr (ensureTable i page z) i page = some a →
          ∃ t, exec (.kmap k va ppn fl) s = .next t ∧ t.host.status = 0 ∧
            t.pool.word a = 1 + fl.toNat + ppn.toNat * 2 ^ 8 ∧
            (let w := r + 8 * (page / 4096)
            (a + 8 ≤ w ∨ w + 8 ≤ a → pageEntry t i page = some (1 + fl.toNat + ppn.toNat * 2 ^ 8)) ∧
            (∀ j, j < a ∨ a + 8 ≤ j →
              (entryAddr z i page ≠ none → t.pool.byte j = if j / 2 ^ 21 = ppn.toNat then 0 else s.pool.byte j) ∧
              (entryAddr z i page = none → j < w ∨ w + 8 ≤ j → t.pool.byte j =
                if j / 2 ^ 21 = ppn.toNat ∨ j / 2 ^ 15 = freePlace z then 0 else s.pool.byte j))) ∧
            t = { s with pool := { s.pool with mem := t.pool.mem, errs := z.pool.errs }, host := t.host }) ∧
        (Pte.v (entry2 s i page) = true → s.pool.accs = [] → s.tray.resync = none →
          exec (.kunmap k va) s = .next (okWith 0 (setEntry i page 0 s))) ∧
        (Pte.v (entry2 s i page) = true → s.pool.accs = [] → fl = 0 ∨ fl = 2 →
          exec (.kprot k va fl) s = .next (okWith 0
            (setEntry i page (clearBits (entry2 s i page) 0xE + fl.toNat) s))) ∧
        (Pte.v (entry2 s i page) = false → exec (.kunmap k va) s = .next (refuse Code.protection s) ∧
          exec (.kprot k va 0) s = .next (refuse Code.protection s)))))


/-! ## The Retriever (spec/08) -/
/-- R268: a collective packet whose tag lies behind is acknowledged and counted stale; one ahead of the collective in
flight is acknowledged and kept when staging has room and stays unanswered otherwise, and then holds back those that
follow on its input, position and channel; one from a source or stage the
group does not expect is PROTECTION; an expected contribution within the window lands and is acknowledged.
R272, R291: a piece of the result lands in the window of the down phase (R288).  R271: for a block in the window that takes
input of the module's own, the pool is asked.  R285: a packet whose carried check
fails at the entry to staging ends the collective with CHECK_FAIL. -/
def Obligations.CollectivePackets : Prop :=
  ∀ (s : State) (a : Arrival) (k : Nat), Runs s → a.pkt.ktag ≠ 0 → servedKennel s a.pkt.ktag = some k →
    let p := a.pkt
    let u := takeArrival a s
    let ad := collAddrOf p
    (p.opc ≠ 0x10 → exec (.collData a) s = .next s) ∧ (p.opc ≠ 0x11 → exec (.collResult a) s = .next s) ∧
    (p.opc = 0x10 → behind a s = true → exec (.collData a) s = .next (holdArrival a s)) ∧
    (p.opc = 0x10 → behind a s = false → flyingOn s k ad.group = none →
      let d := (ad.cseq + 16 - nextTag s k ad.group) % 16
      (8 ≤ d → exec (.collData a) s = .next (sendAck p (u.count F.RTV_STALE_CNT_COUNT))) ∧
      (d < 8 → stagingRoom s k (16 * p.len.toNat) = true → exec (.collData a) s = .next
        (sendAck p { u with rtv := { s.rtv with early := s.rtv.early ++ [a] } })) ∧
      (d < 8 → stagingRoom s k (16 * p.len.toNat) = false →
        exec (.collData a) s = .next (holdFirst a u))) ∧
    (∀ c, s.rtv.colls = [c] → c.flying = true → c.k = k → c.group = ad.group → c.cseq = some ad.cseq → ad.cseq < 16 →
      s.rtv.early = [] → c.redo = [] → c.isVar = false → c.phase = 0 → 0 < c.cap → c.spread = [] → c.done = 0 →
      c.stopAt = none → c.chunk ≥ 14 → behind a s = false →
      (p.opc = 0x10 → c.expects p false = none →
        exec (.collData a) s = .next (sendErr p Code.protection u)) ∧
      (∀ m blk pc, p.opc = 0x10 → c.expects p false = some m → ad.off ≠ declOff → c.place p false = some (blk, pc) →
        c.inWindow ad.stg (blk / c.kBlocks) = true → c.down = [] → c.topLead = true → c.isReduce = false →
        (entersWhole p = true → exec (.collData a) s = .next (settle (askOwn c.id
          (sendAck p { u with rtv := { s.rtv with colls := [{ c.land p m with cameAt := some s.time }] } })))) ∧
        (entersWhole p = false → c.status = 0 → ∃ t, exec (.collData a) s = .next t ∧
          ∃ g, t.rtv.colls = [g] ∧ g.isOver = true ∧ g.status = Code.checkFail)) ∧
      (∀ m, p.opc = 0x11 → c.expects p true = some m → ad.off ≠ declOff → c.takes p true = true → entersWhole p = true → (c.place p true).isSome = true →
        c.isReduce = false → c.isBcast = false → c.topLead = false →
        (∀ b, b < ceilDiv c.cap (blockElems c.inF) → ((c.landResult p).result b).length < c.resultLen c.cap b) →
        exec (.collResult a) s = .next (settle (askOwn c.id
          (sendAck p { u with rtv := { s.rtv with colls := [{ c.landResult p with cameAt := some s.time }] } }))))) ∧
    (∀ c b va n, s.rtv.colls = [c] → c.flying = true → c.ownBlocks = [b] → c.ownRange b = some (va, n) →
      poolCheck s c.k va (.read n) false = none → askOwn c.id s =
        newAcc { id := 0, k := c.k, va := va, op := .read n, asker := .retr c.id b }
          { s with rtv := { s.rtv with colls := [{ c with asked := b :: c.asked }] } }) ∧
    (∀ c, s.rtv.colls = [c] → c.ownBlocks = [] → askOwn c.id s = s) ∧
    (∀ (c : Coll) (m blk pc : Nat), ad.off ≠ declOff → c.place p false = some (blk, pc) →
      Tbl.find c.staged (pieceKey ad.stg m blk pc) = none →
      let d := p.payload.take (min (c.inputBytes ad.stg (entriesIn c.inF c.cap blk) - 4096 * pc) 4096)
      d ≠ [] → Tbl.find (c.land p m).staged (pieceKey ad.stg m blk pc) = some d)

/-- R267, R289, R290: a collective whose need fits its kennel's quota, free staging and a free slot enters flight with its
group's tag, which advances by one modulo 16, and with its reservation; one that never can is refused with
RESOURCE_FULL; one that lacks room waits; a reduction with no lane in service ends with RESIDUE_FAIL, which is counted
(R305).  R294: a late member ends it with TIMEOUT, unless the last missing block has come at that time (R296).  R287: the lanes that fail the
self-test leave service.
R271, R280: of an ALLREDUCE of f32 sums over two accelerators of one rack whose block of both is staged, the block's
result is the sums entry by entry, and goes to both in COLL_RESULT packets.  R286: the first mismatch of a chunk only
records its recomputation, and the second ends the collective with RESIDUE_FAIL. -/
def Obligations.CollectiveProgress : Prop :=
  (
  ∀ (s : State) (c n : Coll) (x : Cmd), Runs s → s.rtv.colls = [c] → s.cmds = [x] → x.k = c.k → x.q = c.q →
    x.seq = c.seq → c.k < 4096 → s.dieOut = false →
    (x.coll = some c.id → c.admitted = false → c.isOver = false → regroup s c = some n → n.isVar = false →
      n.down = [] → n.spread = [] → n.redo = [] → n.stopAt = none → n.phase = 0 → n.done = 0 → 0 < n.cap → 14 ≤ n.chunk →
      s.scent c.k = none → s.rd F.DET_CTL_NOFAST = 0 → s.rd F.RTV_LANES_UP ≠ 0 →
      s.rtv.next.length < 16384 →
      let w := s.rd F.RTV_CTL_WIN + 1
      let q := n.need w
      let tag := nextTag s c.k c.group
      (s.rtv.early = [] → q ≤ stagingBytes → q ≤ quotaBytes s c.k →
        stagingRoom { s with rtv := { s.rtv with colls := [n] } } c.k q = true →
        let t := modQueue c.k c.q (fun y => { y with collWait := false })
          { s with
            cmds := [{ x with repro := c.repro }],
            rtv := { s.rtv with
              next := Tbl.set s.rtv.next (c.k * 8192 + c.group) ((tag + 1) % 16 + 1),
              colls := [{ n with admitted := true, cseq := some tag, reserve := q, w := w,
                                 tmo := if c.tmo = 0 then max 1 (s.rd F.RTV_CTL_TMODEF) else c.tmo }] } }
        exec (.collAdmit c.k c.q c.seq) s = .next (settle (askOwn c.id t)) ∧
          nextTag t c.k c.group = (tag + 1) % 16) ∧
      (quotaBytes s c.k < q → c.prog = none → ∃ t, exec (.collAdmit c.k c.q c.seq) s = .next t ∧
        (∃ g, t.rtv.colls = [g] ∧ g.isOver = true ∧ g.admitted = false) ∧
        t.cmds = [{ x.fail Code.resourceFull with done := true }] ∧
        t = { s with rtv := t.rtv, knl := t.knl, cmds := t.cmds, ni := t.ni,
                     pool := { s.pool with accs := accsWithout s c.id } }) ∧
      (q ≤ quotaBytes s c.k → q ≤ stagingBytes →
        stagingRoom { s with rtv := { s.rtv with colls := [n] } } c.k q = false →
        exec (.collAdmit c.k c.q c.seq) s = .next { s with rtv := { s.rtv with colls := [n] } })) ∧
    (x.coll = some c.id → c.admitted = false → c.isOver = false → c.status = 0 → regroup s c = some n → n = c →
      n.isBcast = false → s.scent c.k = none → s.rd F.DET_CTL_NOFAST = 0 → s.rd F.RTV_LANES_UP = 0 →
      n.need (s.rd F.RTV_CTL_WIN + 1) ≤ stagingBytes → n.need (s.rd F.RTV_CTL_WIN + 1) ≤ quotaBytes s c.k →
      ∃ t, exec (.collAdmit c.k c.q c.seq) s = .next t ∧
        (∃ g, t.rtv.colls = [g] ∧ g.isOver = true ∧ g.status = Code.residueFail) ∧
        t.rd F.RTV_RESFAIL_CNT_COUNT = min (s.rd F.RTV_RESFAIL_CNT_COUNT + 1) (2 ^ F.RTV_RESFAIL_CNT_COUNT.w - 1) ∧
        t.cmds = [{ x.fail Code.residueFail with done := true }]) ∧
    (c.flying = true → c.cameAt = some s.time → c.lateMask = 0 → c.upMissing = false →
      exec (.collTimeout c.id) s = .next s) ∧
    (c.flying = true → c.status = 0 → c.cameAt ≠ some s.time ∨ c.lateMask ≠ 0 ∨ c.upMissing = true → c.prog = none →
      ∃ t, exec (.collTimeout c.id) s = .next t ∧
      (∃ g, t.rtv.colls = [g] ∧ g.isOver = true ∧ g.status = Code.timeout ∧ g.late = c.lateMask ∧
        g.uplate = c.upMissing ∧ g.reserve = 0 ∧ g.overAt = some s.time) ∧
      t.cmds = [{ x.fail Code.timeout with done := true }] ∧
      t.rd F.RTV_TMO_CNT_COUNT = min (s.rd F.RTV_TMO_CNT_COUNT + 1) (2 ^ F.RTV_TMO_CNT_COUNT.w - 1) ∧
      t = { s with rtv := t.rtv, knl := t.knl, cmds := t.cmds, ni := t.ni, csr := t.csr, samp := t.samp,
                   freeIdx := t.freeIdx, pool := { s.pool with accs := accsWithout s c.id } }) ∧
    (c.flying = false → exec (.collTimeout c.id) s = .next s) ∧
    (∀ failed : W16,
      (s.rd F.RTV_LANES_TESTING = 1 → clearBits (s.rd F.RTV_LANES_UP) failed.toNat ≠ 0 →
        exec (.laneSelfTestEnd failed) s = .next
          ((s.wr F.RTV_LANES_UP (clearBits (s.rd F.RTV_LANES_UP) failed.toNat)).wr F.RTV_LANES_TESTING 0)) ∧
      (s.rd F.RTV_LANES_TESTING = 0 → exec (.laneSelfTestEnd failed) s = .next s))
  ) ∧
  (
  ∀ (s : State) (c : Coll) (x : Cmd) (m0 m1 : Nat), Runs s → s.rtv.colls = [c] → s.cmds = [x] → x.k = c.k → x.q = c.q →
    x.seq = c.seq → c.flying = true → c.status = 0 → c.phase = 0 → c.stopAt = none → c.opc = 0x0B →
    c.stages = [⟨0, [m0, m1], none⟩] → c.topLead = true → c.self_ = false → c.inF = 0 → c.outF = 0 → c.rop = 0 →
    c.repro = true → c.root = 0xFFFF → c.len % 16 = 0 → 0 < c.len → c.len ≤ 4096 → 14 ≤ c.chunk → 1 ≤ c.w → c.nstg = 1 →
    c.passed = [] → c.down = [] → c.spread = [] → c.outst = [] → c.redo = [] → c.done = 0 → c.unreached = 0 →
    s.rtv.early = [] → s.rd F.RTV_LANES_TESTING = 0 → s.rd F.RTV_LANES_UP ≠ 0 →
    (c.input 0 0 0).length = c.len → (c.input 0 1 0).length = c.len →
    let sums := (upto (c.len / 4)).flatMap fun i =>
      leBytes 4 (add32 (field (c.input 0 0 0) (4 * i) 4) (field (c.input 0 1 0) (4 * i) 4))
    let sent := fun (dst : Nat) =>
      requestHead s c.k 0x11 4 dst (collAddr c.group 0 (c.cseq.getD 0) 0) (c.len / 16) sums
    (∃ t, exec (.blockResult c.id 0 0 .pass) s = .next t ∧
      t.ni.queue = s.ni.queue ++ [⟨s.ni.nextQ, sent m0, .coll c.id 0 0, none⟩,
                                  ⟨s.ni.nextQ + 1, sent m1, .coll c.id 1 0, none⟩] ∧
      (∃ g, t.rtv.colls = [g] ∧ g.passed = [0] ∧ g.result 0 = sums ∧ g.spread = [0] ∧ Tbl.get g.outst 0 0 = 2 ∧
        g.isOver = false) ∧
      t = { s with rtv := t.rtv, ni := t.ni }) ∧
    (c.rechecked = [] → ∃ t, exec (.blockResult c.id 0 0 .recompute) s = .next t ∧
      t.rtv.colls = [{ c with rechecked := [0], rechk := c.rechk + 1 }] ∧
      t.rd F.RTV_RECHK_CNT_COUNT = min (s.rd F.RTV_RECHK_CNT_COUNT + 1) (2 ^ F.RTV_RECHK_CNT_COUNT.w - 1) ∧
      t = { s with rtv := t.rtv, csr := t.csr, samp := t.samp, freeIdx := t.freeIdx }) ∧
    (c.rechecked = [0] → effSev s 724 ≤ 4 → quietSource s 724 = false → stickyBit s 724 = false →
      ∃ t, exec (.blockResult c.id 0 0 .recompute) s = .next t ∧
        (∃ g, t.rtv.colls = [g] ∧ g.isOver = true ∧ g.status = Code.residueFail) ∧ stickyBit t 724 = true ∧
        t.cmds = [{ x.fail Code.residueFail with done := true }]) ∧
    (∀ id st b chk, id ≠ c.id → exec (.blockResult id st b chk) s = .next s)
  )


/-! ## Programs on the compute cores (spec/09) -/
/-- R334: a program whose cores are idle and within the cap claims them in logical order, one that alone exceeds the cap
ends with RESOURCE_FULL, and one without cores waits.  R335: a loaded core holds its text and its starting registers.
R336: at T0 every core runs.  R337: when every core has ended, the cores return to IDLE and the command completes with
the cycles from T0.  R330: a time limit ends it with TIMEOUT.  R329: a clean scrub frees its core, one that
fails leaves it in FAULT. -/
def Obligations.ProgramLifecycle : Prop :=
  ∀ (s : State) (p : Prog) (x : Cmd), Runs s → s.isl.progs = [p] → s.cmds = [x] → x.k = p.k → x.q = p.q →
    x.seq = p.seq → x.prog = some p.id → p.update = none → p.k < 4096 →
    (x.status = 0 → p.cores = [] → overCap s p = true →
      ∃ t, exec (.coreClaim p.k p.q p.seq) s = .next t ∧ t.isl.progs = [] ∧
        t.cmds = [{ x with status := Code.resourceFull, cnt0 := 0, done := true, prog := none }] ∧
        t = { s with isl := t.isl, cmds := t.cmds, csr := t.csr, samp := t.samp, freeIdx := t.freeIdx }) ∧
    (p.cores = [] → overCap s p = false → p.static = false → capRoom s p = true →
      (∀ l, coresFor s p = some l → ∃ t, exec (.coreClaim p.k p.q p.seq) s = .next t ∧
        t.isl.progs = [{ p with cores := l }] ∧
        (∀ i, i < l.length → (t.core (l.getD i 0)).st = .load ∧ (t.core (l.getD i 0)).prog = some p.id ∧
          (t.core (l.getD i 0)).lidx = i ∧ t.rd F.CMP_FLT_CAUSE (l.getD i 0) = 0) ∧
        (∀ d, d ∉ l → t.core d = s.core d) ∧ t = { s with isl := t.isl, csr := t.csr }) ∧
      (coresFor s p = none → exec (.coreClaim p.k p.q p.seq) s = .next s)) ∧
    (p.cores ≠ [] → exec (.coreClaim p.k p.q p.seq) s = .next s) ∧
    (∀ c, c < 32 → (s.core c).prog = some p.id → (s.core c).st = .load → p.loaded.contains (s.core c).lidx = false →
      let i := readImage s p.k ⟨p.paddr, 0, 0, p.ncore, 0, 0, false⟩
      let n := (s.core c).lidx
      i.cores.isSome = true → i.segs.isSome = true → s.pool.errs = [] →
      ((loadRanges p i n).all (fun r => mapped s p.k r.1 r.2 && !unreadable s p.k r.1 r.2)) = true →
      ∃ t, exec (.programLoadDone c) s = .next t ∧
        t.isl.progs = [{ p with loaded := p.loaded ++ [n], lastLoad := s.cyc.toNat }] ∧
        (t.core c).nbun = (i.text n).2 ∧ (t.core c).pc = 0 ∧ (t.core c).step = p.step ∧ (t.core c).seed = p.seed ∧
        (t.core c).sreg 1 = BitVec.ofNat 64 n ∧ (t.core c).sreg 2 = BitVec.ofNat 64 p.ncore ∧
        (t.core c).sreg 3 = p.aadr ∧ (t.core c).sreg 4 = 0 ∧ (t.core c).p = 1 ∧ (t.core c).m = [] ∧
        (t.core c).text = bundlesOf (readVa s p.k (p.paddr + (i.text n).1) (32 * min (i.text n).2 16384)) ∧
        (t.core c).st = .load ∧ (∀ d, d ≠ c → t.core d = s.core d) ∧
        t = { s with isl := t.isl, csr := t.csr, samp := t.samp, freeIdx := t.freeIdx }) ∧
    (∀ c, c < 32 → (s.core c).st ≠ .load → exec (.programLoadDone c) s = .next s) ∧
    (startable s p = true → s.det.barriers = [] → s.scent p.k = none → ∃ t, exec (.programStart p.id) s = .next t ∧
      t.isl.progs = [{ p with t0 := some s.cyc.toNat, running := true }] ∧
      (∀ c, c ∈ p.cores → t.core c = { s.core c with st := .run }) ∧
      (∀ c, c ∉ p.cores → t.core c = s.core c) ∧ t = { s with isl := t.isl }) ∧
    (startable s p = false → exec (.programStart p.id) s = .next s) ∧
    (allEnded s p = true → s.scent p.k = none → x.status = 0 → ∃ t, exec (.programEnd p.id) s = .next t ∧
      t.isl.progs = [] ∧ (∀ c, c ∈ p.cores → (t.core c).st = .idle ∧ (t.core c).prog = none ∧ (t.core c).moves = []) ∧
      (∀ c, c ∉ p.cores → t.core c = s.core c) ∧
      t.cmds = [{ x with cnt0 := lastEnd s p - p.t0.getD 0, done := true, prog := none }] ∧
      t = { s with isl := t.isl, cmds := t.cmds, csr := t.csr, samp := t.samp, freeIdx := t.freeIdx }) ∧
    (allEnded s p = false → exec (.programEnd p.id) s = .next s) ∧
    (p.tlim ≠ 0 → allEnded s p = false → x.status = 0 → ∃ t, exec (.launchTimeLimit p.id) s = .next t ∧
      t.isl.progs = [] ∧ (∀ c, c ∈ p.cores → (t.core c).st = .idle) ∧ (∀ c, c ∉ p.cores → t.core c = s.core c) ∧
      t.cmds = [{ x with status := Code.timeout, cnt0 := p.ran s.cyc.toNat, done := true, prog := none }] ∧
      t = { s with isl := t.isl, cmds := t.cmds, csr := t.csr, samp := t.samp, freeIdx := t.freeIdx }) ∧
    (p.tlim = 0 → exec (.launchTimeLimit p.id) s = .next s) ∧
    (∀ c, c < 32 → (s.core c).st = .scrub →
      (∃ t, exec (.scrubDone c true) s = .next t ∧ t.core c = { nextMove := (s.core c).nextMove } ∧ bit (t.rd F.CMP_SCRUB_BUSY) c = false ∧
        (∀ i, i < 8 → t.rd F.CTR_CORE_COUNT (8 * c + i) = 0) ∧ (∀ d, d ≠ c → t.core d = s.core d) ∧
        t = { s with isl := t.isl, csr := t.csr }) ∧
      (quietSource s (676 + c) = false → stickyBit s (676 + c) = false → effSev s (676 + c) ≤ 4 →
        ∃ t, exec (.scrubDone c false) s = .next t ∧ t.core c = { s.core c with st := .fault } ∧
          bit (t.rd F.CMP_SCRUB_BUSY) c = false ∧ stickyBit t (676 + c) = true ∧
          t.rd F.CMP_FLT_CAUSE c = Cause'.scrubFail % 2 ^ F.CMP_FLT_CAUSE.w ∧
          t = { s with isl := t.isl, csr := t.csr, samp := t.samp, freeIdx := t.freeIdx })) ∧
    (∀ c b, c < 32 → (s.core c).st ≠ .scrub → exec (.scrubDone c b) s = .next s)

/-- R342: a result is written in its cycle, to its register alone, and one that is not due stays.  R322, R324: a line of a
Static read entry lands 216 cycles after the entry starts, and a line of the core network in its cycle, in
the scratchpad.  R357: a transfer that is complete raises its move counter by 1.  R360: a wait whose condition
holds releases the core in the next cycle. -/
def Obligations.CoreArrivals : Prop :=
  ∀ (s : State) (c : Nat), c < 32 → Runs s →
    let x := s.core c
    let now := s.cyc.toNat
    let banks := x.banks.filter fun b => decide (now ≤ b.1)
    (∀ q, x.pend = [q] → now < q.due → exec (.resultWriteback c) s = .next (s.setCore c { x with banks := banks })) ∧
    (∀ q, x.pend = [q] → q.due ≤ now →
      let y : Core := { x with pend := [], banks := banks }
      (∀ r v, q.res = .s r v → r ≠ 0 → ∃ t, exec (.resultWriteback c) s = .next t ∧ (t.core c).sreg r = v ∧
        (∀ i, i ≠ r → (t.core c).sreg i = x.sreg i) ∧ t.core c = { y with s := (t.core c).s } ∧
        t = s.setCore c (t.core c)) ∧
      (∀ r v, q.res = .p r v → r ≠ 0 → r < 8 → ∃ t, exec (.resultWriteback c) s = .next t ∧ (t.core c).preg r = v ∧
        (∀ i, i < 8 → i ≠ r → (t.core c).preg i = x.preg i) ∧ t.core c = { y with p := (t.core c).p } ∧
        t = s.setCore c (t.core c)) ∧
      (∀ r l, q.res = .v r l → ∃ t, exec (.resultWriteback c) s = .next t ∧ (t.core c).vreg r = l ∧
        (∀ i, i ≠ r → (t.core c).vreg i = x.vreg i) ∧ t.core c = { y with v := (t.core c).v } ∧
        t = s.setCore c (t.core c)) ∧
      (∀ v, q.res = .step v →
        exec (.resultWriteback c) s = .next (s.setCore c { y with step := v }))) ∧
    (∀ m st va line d, x.moves = [m] → m.op = .postRead st va line 1 → m.served = true → m.data = [d] →
      (now = st + 216 → (x.banksAt now).contains (line % 48) = false → ∃ t, exec (.staticLanding c) s = .next t ∧
        (t.core c).line line = d ∧ (∀ l, l ≠ line → (t.core c).line l = x.line l) ∧
        (t.core c).moves = [{ m with data := [] }] ∧
        t = s.setCore c { x with spad := (t.core c).spad, moves := (t.core c).moves,
                                 banks := x.banks ++ [(now, line % 48)] }) ∧
      (now ≠ st + 216 → exec (.staticLanding c) s = .next s)) ∧
    (∀ n, x.net = [n] →
      (n.due ≤ now → (x.banksAt now).contains (n.line % 48) = false → ∃ t, exec (.networkLanding c) s = .next t ∧
        (t.core c).line n.line = n.data ∧ (∀ l, l ≠ n.line → (t.core c).line l = x.line l) ∧ (t.core c).net = [] ∧
        t = s.setCore c { x with spad := (t.core c).spad, net := [], banks := x.banks ++ [(now, n.line % 48)] }) ∧
      (now < n.due → exec (.networkLanding c) s = .next s)) ∧
    (∀ m, x.moves = [m] →
      (m.done now = true → ∃ t, exec (.moveComplete c m.id) s = .next t ∧ (t.core c).moves = [] ∧
        (t.core c).mreg m.ctr = x.mreg m.ctr + 1 ∧ (∀ i, i ≠ m.ctr → (t.core c).mreg i = x.mreg i) ∧
        t = { s.setCore c { x with moves := [], m := (t.core c).m } with
                csr := t.csr, samp := t.samp, freeIdx := t.freeIdx }) ∧
      (m.done now = false → exec (.moveComplete c m.id) s = .next s)) ∧
    (∀ w, x.waiting = some w →
      (waitHolds s c w = true →
        exec (.waitResume c) s = .next (s.setCore c { x with waiting := none, resumeAt := now + 1 })) ∧
      (waitHolds s c w = false → exec (.waitResume c) s = .next s)) ∧
    (x.waiting = none → exec (.waitResume c) s = .next s)


/-! ## The compute instruction set (spec/10) -/
/-- R344, R345: a scalar instruction writes its result to D alone, from the cycle of its latency on, and a write to s0 is
discarded; a compare and a predicate operation write PD, and p0 stays.  B is an s register or IMM sign-extended.
R346: a taken branch issues two more bundles and then its target; bdec takes the old value less 1 and branches unless
that is 0.  R337, R347: end records its cycle in the core and its program, once; rdcyc, rdstep and rdseed read the cycles
from T0, the step and a half of the seed; stepadd and stepset set the step one cycle later. -/
def Obligations.ScalarSlot : Prop :=
  (
  ∀ (s : State) (c : Nat) (g : Guard), Issues s c →
    let x := s.core c
    let now := s.cyc.toNat
    let res := fun (lat d : Nat) (v : W64) =>
      s.setCore c (if d = 0 then x else { x with pend := x.pend ++ [⟨now, now + lat, .s d v⟩] })
    let pres := fun (d : Nat) (v : Bool) =>
      s.setCore c (if d = 0 then x else { x with pend := x.pend ++ [⟨now, now + 1, .p d v⟩] })
    (∀ f : NoFmt, SlotRuns s c g { bad := f != 0 } (.sSlotNop c g f) (s.setCore c x)) ∧
    (∀ f : SA,
      let a := x.sreg f.a.toNat
      let b := if f.i then f.imm.signExtend 64 else x.sreg f.b.toNat
      let d := f.d.toNat
      let u := fun (lat : Nat) => ({ bad := f.rsv != 0, s := f.a.toNat :: (if f.i then [] else [f.b.toNat]),
                                     ws := [(d, lat)] } : Uses)
      SlotRuns s c g (u 1) (.add c g f) (res 1 d (a + b)) ∧ SlotRuns s c g (u 1) (.sub c g f) (res 1 d (a - b)) ∧
      SlotRuns s c g (u 3) (.mul c g f) (res 3 d (a * b)) ∧ SlotRuns s c g (u 1) (.and c g f) (res 1 d (a &&& b)) ∧
      SlotRuns s c g (u 1) (.or c g f) (res 1 d (a ||| b)) ∧ SlotRuns s c g (u 1) (.xor c g f) (res 1 d (a ^^^ b)) ∧
      SlotRuns s c g (u 1) (.shl c g f) (res 1 d (a <<< (b.toNat % 64))) ∧
      SlotRuns s c g (u 1) (.shr c g f) (res 1 d (a >>> (b.toNat % 64))) ∧
      SlotRuns s c g (u 1) (.sra c g f) (res 1 d (a.sshiftRight (b.toNat % 64))) ∧
      SlotRuns s c g (u 1) (.min c g f) (res 1 d (if a.toInt ≤ b.toInt then a else b)) ∧
      SlotRuns s c g (u 1) (.max c g f) (res 1 d (if b.toInt ≤ a.toInt then a else b)) ∧
      SlotRuns s c g (u 1) (.minu c g f) (res 1 d (if a.toNat ≤ b.toNat then a else b)) ∧
      SlotRuns s c g (u 1) (.maxu c g f) (res 1 d (if b.toNat ≤ a.toNat then a else b)) ∧
      SlotRuns s c g { bad := f.rsv != 0, ws := [(d, 1)] } (.li c g f) (res 1 d (f.imm.signExtend 64)) ∧
      SlotRuns s c g { bad := f.rsv != 0, s := [f.a.toNat], ws := [(d, 1)] } (.lih c g f)
        (res 1 d (BitVec.ofNat 64 (a.toNat % 2 ^ 32 + f.imm.toNat * 2 ^ 32)))) ∧
    (∀ f : SP,
      let a := x.sreg f.a.toNat
      let b := if f.i then f.imm.signExtend 64 else x.sreg f.b.toNat
      let u : Uses := { bad := f.rsv != 0, s := f.a.toNat :: (if f.i then [] else [f.b.toNat]), wp := [(f.pd.toNat, 1)] }
      let d := f.pd.toNat
      SlotRuns s c g u (.cmpEq c g f) (pres d (a == b)) ∧ SlotRuns s c g u (.cmpNe c g f) (pres d (a != b)) ∧
      SlotRuns s c g u (.cmpLt c g f) (pres d (decide (a.toInt < b.toInt))) ∧
      SlotRuns s c g u (.cmpGe c g f) (pres d (decide (b.toInt ≤ a.toInt))) ∧
      SlotRuns s c g u (.cmpLtu c g f) (pres d (decide (a.toNat < b.toNat))) ∧
      SlotRuns s c g u (.cmpGeu c g f) (pres d (decide (b.toNat ≤ a.toNat)))) ∧
    (∀ f : SL,
      let a := x.preg f.pa.toNat != f.na
      let b := x.preg f.pb.toNat != f.nb
      let u : Uses := { bad := f.rsv != 0, p := [f.pa.toNat, f.pb.toNat], wp := [(f.pd.toNat, 1)] }
      let d := f.pd.toNat
      SlotRuns s c g u (.pand c g f) (pres d (a && b)) ∧ SlotRuns s c g u (.por c g f) (pres d (a || b)) ∧
      SlotRuns s c g u (.pxor c g f) (pres d (a != b)))
  ) ∧
  (
  ∀ (s : State) (c : Nat) (g : Guard), Issues s c →
    let x := s.core c
    let now := s.cyc.toNat
    let res := fun (d : Nat) (v : W64) (y : Core) =>
      s.setCore c (if d = 0 then y else { y with pend := x.pend ++ [⟨now, now + 1, .s d v⟩] })
    let step := fun (v : W64) => s.setCore c { x with pend := x.pend ++ [⟨now, now + 1, .step v⟩] }
    (∀ f : SB,
      let v := x.sreg f.a.toNat - 1
      let jump : Core := { x with jumps := x.jumps ++ [(2, f.tgt.toNat)] }
      SlotRuns s c g { bad := f.rsv != 0 } (.br c g f) (s.setCore c jump) ∧
      SlotRuns s c g { bad := f.rsv != 0, s := [f.a.toNat], ws := [(f.a.toNat, 1)] } (.bdec c g f)
        (res f.a.toNat v (if v = 0 then x else jump))) ∧
    (∀ (f : NoFmt) (p : Prog), s.isl.progs = [p] → x.prog = some p.id → x.ended = none →
      SlotRuns s c g { bad := f != 0 } (.endProg c g f)
        (let t := s.setCore c { x with ended := some now, jumps := [] }
         { t with isl := { t.isl with progs := [{ p with ended := p.ended + 1, endCyc := now }] } })) ∧
    (∀ (f : SX) (p : Prog),
      let u : Uses := { bad := f.rsv != 0, ws := [(f.d.toNat, 1)] }
      let d := f.d.toNat
      (∀ t0, coreProg s c = some p → p.t0 = some t0 →
        SlotRuns s c g u (.rdcyc c g f) (res d (BitVec.ofNat 64 (now - t0)) x)) ∧
      SlotRuns s c g u (.rdstep c g f) (res d x.step x) ∧
      SlotRuns s c g u (.rdseed c g f)
        (res d (BitVec.ofNat 64 (if f.h then x.seed.toNat / 2 ^ 64 else x.seed.toNat % 2 ^ 64)) x) ∧
      SlotRuns s c g { bad := f.rsv != 0 } (.stepadd c g f) (step (BitVec.ofNat 64 (x.step.toNat + f.imm.toNat))) ∧
      SlotRuns s c g { bad := f.rsv != 0, s := [f.a.toNat] } (.stepset c g f) (step (x.sreg f.a.toNat)))
  )

/-- R313, R351, R352: a vector instruction on register pairs occupies its engine for two cycles and writes each lane of
its result pair, and nothing else, from its latency on; a reserved bit, an odd register of a pair and an engine in its
second cycle are reserved encodings. -/
def Obligations.VectorArithmetic : Prop :=
  ∀ (s : State) (c : Nat) (g : Guard) (f : VR), Issues s c →
    let x := s.core c
    let now := s.cyc.toNat
    let busy := decide (now < Tbl.get x.vBusy (b2n f.e) 0)
    let d := f.d.toNat
    let A := x.vreg f.a.toNat ++ x.vreg (f.a.toNat + 1)
    let B := x.vreg f.b.toNat ++ x.vreg (f.b.toNat + 1)
    let C := x.vreg f.c.toNat ++ x.vreg (f.c.toNat + 1)
    let done := fun (lat : Nat) (l : List W32) =>
      (s.count F.CTR_CORE_COUNT (8 * c + 3)).setCore c
        { x with vBusy := Tbl.set x.vBusy (b2n f.e) (now + 2),
                 pend := x.pend ++ [⟨now, now + lat, .v d (l.take 512)⟩, ⟨now, now + lat, .v (d + 1) (l.drop 512)⟩] }
    let w := fun (lat : Nat) => [(d, lat), (d + 1, lat)]
    let ra := [f.a.toNat, f.a.toNat + 1]
    let rb := [f.b.toNat, f.b.toNat + 1]
    let rc := [f.c.toNat, f.c.toNat + 1]
    let u1 := fun (lat : Nat) => ({ bad := f.rsv != 0 || odd f.d || odd f.a || busy, v := ra, wv := w lat } : Uses)
    let u2 := fun (lat : Nat) =>
      ({ bad := f.rsv != 0 || odd f.d || odd f.a || odd f.b || busy, v := ra ++ rb, wv := w lat } : Uses)
    let u3 : Uses := { bad := f.rsv != 0 || odd f.d || odd f.a || odd f.b || odd f.c || busy, v := ra ++ rb ++ rc,
                       wv := w 6 }
    let map1 := fun (op : Nat → Nat) => A.map fun a => BitVec.ofNat 32 (op a.toNat)
    let map2 := fun (op : Nat → Nat → Nat) => A.zipWith (fun a b => BitVec.ofNat 32 (op a.toNat b.toNat)) B
    let map3 := fun (op : Nat → Nat → Nat → Nat) =>
      (A.zip B).zipWith (fun a b => BitVec.ofNat 32 (op a.1.toNat a.2.toNat b.toNat)) C
    let bits := fun (op : W32 → W32 → W32) => A.zipWith op B
    SlotRuns s c g (u2 6) (.vaddF32 c g f) (done 6 (map2 add32)) ∧
    SlotRuns s c g (u2 6) (.vsubF32 c g f) (done 6 (map2 sub32)) ∧
    SlotRuns s c g (u2 6) (.vmulF32 c g f) (done 6 (map2 mul32)) ∧
    SlotRuns s c g u3 (.vfmaF32 c g f) (done 6 (map3 fma32)) ∧
    SlotRuns s c g (u2 6) (.vmaxF32 c g f) (done 6 (map2 max32)) ∧
    SlotRuns s c g (u2 6) (.vminF32 c g f) (done 6 (map2 min32)) ∧
    SlotRuns s c g (u2 6) (.vaddBf16 c g f) (done 6 (map2 fun a b => onHalves addBf a b 0)) ∧
    SlotRuns s c g (u2 6) (.vmulBf16 c g f) (done 6 (map2 fun a b => onHalves mulBf a b 0)) ∧
    SlotRuns s c g u3 (.vfmaBf16 c g f) (done 6 (map3 (onHalves fmaBf))) ∧
    SlotRuns s c g (u1 14) (.vsqrtF32 c g f) (done 14 (map1 sqrt32)) ∧
    SlotRuns s c g (u1 14) (.vrcpF32 c g f) (done 14 (map1 rcp32)) ∧
    SlotRuns s c g (u1 14) (.vrsqrtF32 c g f) (done 14 (map1 rsqrt32)) ∧
    SlotRuns s c g (u2 4) (.vaddI32 c g f) (done 4 (bits (· + ·))) ∧
    SlotRuns s c g (u2 4) (.vsubI32 c g f) (done 4 (bits (· - ·))) ∧
    SlotRuns s c g (u2 4) (.vand c g f) (done 4 (bits (· &&& ·))) ∧
    SlotRuns s c g (u2 4) (.vor c g f) (done 4 (bits (· ||| ·))) ∧
    SlotRuns s c g (u2 4) (.vxor c g f) (done 4 (bits (· ^^^ ·))) ∧
    SlotRuns s c g (u2 4) (.vshlI32 c g f) (done 4 (bits fun a b => a <<< (b.toNat % 32))) ∧
    SlotRuns s c g (u2 4) (.vshrI32 c g f) (done 4 (bits fun a b => a >>> (b.toNat % 32))) ∧
    SlotRuns s c g (u2 4) (.vsraI32 c g f) (done 4 (bits fun a b => a.sshiftRight (b.toNat % 32))) ∧
    SlotRuns s c g (u1 6) (.vcvtF32I32 c g f) (done 6 (map1 i32ToF32)) ∧
    SlotRuns s c g (u1 6) (.vcvtI32F32 c g f) (done 6 (map1 f32ToI32))

/-- R353, R351: vld and xld read lines of the scratchpad, which reach their register with their latency, vst and xst write
lines at once, and no other line changes; xset, vbcast and vmovs move an s register into an x register or every lane, and
two lanes into an s register; vtrd and vtrd.raw read elements of an accumulator. -/
def Obligations.VectorMoves : Prop :=
  ∀ (s : State) (c : Nat) (g : Guard), Issues s c →
    let x := s.core c
    let now := s.cyc.toNat
    let busy := fun (e : Bool) => decide (now < Tbl.get x.vBusy (b2n e) 0)
    let done := fun (e : Bool) (y : Core) (lines : List Nat) (ps : List Pend) =>
      (s.count F.CTR_CORE_COUNT (8 * c + 3)).setCore c
        { y with vBusy := Tbl.set x.vBusy (b2n e) (now + 1), banks := x.banks ++ lines.map (fun l => (now, l % 48)),
                 pend := x.pend ++ ps }
    (∀ f : NoFmt, SlotRuns s c g { bad := f != 0 } (.vnop c g f) (s.setCore c x)) ∧
    (∀ f : VM,
      let n := f.nm1.toNat + 1
      let at' := (x.sreg f.ar.toNat + BitVec.ofNat 64 f.loff.toNat).toNat
      let ls := (upto n).map fun i => (at' + i) % 2 ^ 64
      let bad := f.rsv != 0 || decide (31 < f.g.toNat + f.nm1.toNat)
      let badX := bad || decide (15 < f.d.toNat)
      SlotRuns s c g { bad := bad || busy f.e, s := [f.ar.toNat], wv := [(f.d.toNat, 6)], lines := ls } (.vld c g f)
        (done f.e x ls [⟨now, now + 6, .vGroups f.d.toNat (16 * f.g.toNat) (ls.flatMap fun l => wordsOf 16 (x.line l))⟩]) ∧
      SlotRuns s c g { bad := bad || busy f.e, s := [f.ar.toNat], v := [f.d.toNat], lines := ls } (.vst c g f)
        (done f.e (x.setLines at' ((upto n).map fun i => laneBytes (laneGroup (x.vreg f.d.toNat) (f.g.toNat + i)))) ls []) ∧
      SlotRuns s c g { bad := badX || busy f.e, s := [f.ar.toNat], wx := [(f.d.toNat, 6)], lines := [at'] } (.xld c g f)
        (done f.e x [at'] [⟨now, now + 6, .x f.d.toNat (BitVec.ofNat 320 (leVal ((x.line at').take 38)))⟩]) ∧
      SlotRuns s c g { bad := badX || busy f.e, s := [f.ar.toNat], x := [f.d.toNat], lines := [at'] } (.xst c g f)
        (done f.e (x.setLine at' (leBytes 64 (x.xreg f.d.toNat))) [at'] [])) ∧
    (∀ (l : List (List Byte)) (i : Nat), (∀ j, j < l.length → (x.setLines i l).line (i + j) = l.getD j []) ∧
      (∀ q, q < i ∨ i + l.length ≤ q → (x.setLines i l).line q = x.line q)) ∧
    (∀ f : VS,
      let v := x.sreg f.s.toNat
      SlotRuns s c g { bad := f.rsv != 0 || decide (1 < f.field.toNat) || busy f.e, s := [f.s.toNat],
                       wx := [(f.xd.toNat, 2)] } (.xset c g f)
        (done f.e x [] [⟨now, now + 2, if f.field = 0 then .xTscale f.xd.toNat (v.truncate 32)
          else .xEb f.xd.toNat (v.truncate 16)⟩]) ∧
      SlotRuns s c g { bad := f.rsv != 0 || busy f.e, s := [f.s.toNat], wv := [(f.v.toNat, 2)] } (.vbcast c g f)
        (done f.e x [] [⟨now, now + 2, .v f.v.toNat (List.replicate 512 (v.truncate 32))⟩]) ∧
      SlotRuns s c g { bad := f.rsv != 0 || f.lane.getLsbD 0 || f.lane.getLsbD 9 || busy f.e, v := [f.v.toNat],
                       ws := [(f.s.toNat, 3)] } (.vmovs c g f)
        (done f.e x [] (if f.s.toNat = 0 then [] else [⟨now, now + 3, .s f.s.toNat (BitVec.ofNat 64
          (((x.vreg f.v.toNat).getD f.lane.toNat 0).toNat +
            ((x.vreg f.v.toNat).getD (f.lane.toNat + 1) 0).toNat * 2 ^ 32))⟩]))) ∧
    (∀ f : VR,
      let a := f.a.toNat % 16
      let y := x.tileAt now a
      let scale := if f.f then some (num32 (xTscale (x.xreg f.x.toNat))) else none
      SlotRuns s c g
        { bad := f.rsv != 0 || decide (7 < f.part.toNat) || busy f.e, acc := [a],
          x := if f.f then [f.x.toNat] else [], wv := [(f.d.toNat, 6)],
          other := if x.takenPair a then some Cause'.accmode else none } (.vtrd c g f)
        (done f.e x [] [⟨now, now + 6, .v f.d.toNat ((upto 512).map fun i =>
          if y.lost then Config.lostElement y.n (512 * f.part.toNat + i)
          else BitVec.ofNat 32 (y.readOut (512 * f.part.toNat + i) scale))⟩]) ∧
      SlotRuns s c g
        { bad := f.rsv != 0 || busy f.e, acc := [a], wv := [(f.d.toNat, 6)],
          other := if !(x.tile a).free || x.takenPair a then some Cause'.accmode else none } (.vtrdRaw c g f)
        (done f.e x [] [⟨now, now + 6, .v f.d.toNat ((upto 128).flatMap fun i => y.raw (128 * f.part.toNat + i))⟩]))

/-- R354, R355: the conversions widen one register of 16-bit elements into a pair or round a pair into one; vqscale writes
the scale bytes of its format to an x register; vunpk decodes elements and multiplies them by their scales, NaN where the
scale is NaN; vpack rounds the lanes divided by their scales (a lane for which the spec states no result holds a free
value; log entry 26). -/
def Obligations.VectorFormats : Prop :=
  ∀ (s : State) (c : Nat) (g : Guard) (f : VR), Issues s c →
    let x := s.core c
    let now := s.cyc.toNat
    let busy := decide (now < Tbl.get x.vBusy (b2n f.e) 0)
    let d := f.d.toNat
    let A := x.vreg f.a.toNat
    let rnd := fun (k : Nat) => x.rounding f k
    let done := fun (n : Nat) (ps : List Pend) =>
      (s.count F.CTR_CORE_COUNT (8 * c + 3)).setCore c
        { x with vBusy := Tbl.set x.vBusy (b2n f.e) (now + n), pend := x.pend ++ ps }
    let sr := if f.f then [f.sr.toNat] else []
    (∀ (i : Instr) (m : Fmt), (i, m) ∈ [(Instr.vcvtF32Bf16 c g f, bf16), (.vcvtF32F16 c g f, f16)] →
      let l := (halves A).map fun h => (BitVec.ofNat 32 (to32 (m.decode h)) : W32)
      SlotRuns s c g { bad := f.rsv != 0 || odd f.d || busy, v := [f.a.toNat], wv := [(d, 8), (d + 1, 8)] } i
        (done 2 [⟨now, now + 8, .v d (l.take 512)⟩, ⟨now, now + 8, .v (d + 1) (l.drop 512)⟩])) ∧
    (∀ (i : Instr) (m : Fmt), (i, m) ∈ [(Instr.vpkBf16 c g f, bf16), (.vpkF16 c g f, f16)] →
      SlotRuns s c g { bad := f.rsv != 0 || odd f.a || busy, v := [f.a.toNat, f.a.toNat + 1], s := sr, wv := [(d, 8)] } i
        (done 2 [⟨now, now + 8, .v d (joinHalves (((A ++ x.vreg (f.a.toNat + 1)).zipIdx).map fun a =>
          m.encode (rnd a.2) (num32 a.1.toNat)))⟩])) ∧
    (∀ (i : Instr) (m : TFmt), (i, m) ∈ [(Instr.vqscaleF4 c g f, TFmt.f4), (.vqscaleLb4 c g f, .lb4),
        (.vqscaleE2m3 c g f, .e2m3), (.vqscaleE3m2 c g f, .e3m2), (.vqscaleE4m3 c g f, .e4m3),
        (.vqscaleE5m2 c g f, .e5m2)] →
      let l := laneScales m (xTscale (x.xreg f.x.toNat)) A
      SlotRuns s c g { bad := f.rsv != 0 || busy, v := [f.a.toNat], x := if m = .lb4 then [f.x.toNat] else [],
                       wx := [(f.x.toNat, 6)] } i
        (done 1 [⟨now, now + 6, .xScale f.x.toNat l.length (leVal (packElems 8 l.length l))⟩])) ∧
    (∀ (i : Instr) (m : TFmt), (i, m) ∈ [(Instr.vpackF4 c g f, TFmt.f4), (.vpackLb4 c g f, .lb4),
        (.vpackE2m3 c g f, .e2m3), (.vpackE3m2 c g f, .e3m2), (.vpackE4m3 c g f, .e4m3), (.vpackE5m2 c g f, .e5m2)] →
      let codes := (A.zipIdx).map fun a =>
        (packLane m (rnd a.2) (laneScale m (x.xreg f.x.toNat) a.2) (num32 a.1.toNat)).getD
          ((Config.openLane m.code (x.xreg f.x.toNat) a.1 a.2).toNat % 2 ^ m.width)
      SlotRuns s c g { bad := f.rsv != 0 || decide (2048 < 512 * f.part.toNat + 64 * m.width) || busy, v := [f.a.toNat],
                       x := [f.x.toNat], s := sr, wv := [(d, 6)] } i
        (done 1 [⟨now, now + 6, .vBytes d (512 * f.part.toNat)
          (packElems m.width (64 * m.width) codes)⟩])) ∧
    (∀ (i : Instr) (m : TFmt), (i, m) ∈ [(Instr.vunpkF4 c g f, TFmt.f4), (.vunpkLb4 c g f, .lb4),
        (.vunpkE2m3 c g f, .e2m3), (.vunpkE3m2 c g f, .e3m2), (.vunpkE4m3 c g f, .e4m3), (.vunpkE5m2 c g f, .e5m2)] →
      let bytes := (laneBytes A).drop (512 * f.part.toNat)
      SlotRuns s c g { bad := f.rsv != 0 || decide (2048 < 512 * f.part.toNat + 64 * m.width) || busy, v := [f.a.toNat],
                       x := [f.x.toNat], wv := [(d, 6)] } i
        (done 1 [⟨now, now + 6, .v d ((upto 512).map fun k =>
          match laneScale m (x.xreg f.x.toNat) k with
          | none => (BitVec.ofNat 32 f32.qnan : W32)
          | some sc => BitVec.ofNat 32 (to32 ((m.elem.decode (packedElem m.width bytes k)).mul sc)))⟩]))

/-- R307 to R312, R348, R349: tmma reads its operand from the scratchpad, in two cycles when it has more than 18 lines, and
adds the products of its rows and the latch's columns to the one accumulator named in each engine of EMASK, whatever set of
engines that is; it occupies those engines, and its B load writes a latch in cycle 7.  No other tile, register or line changes.  tclr sets a tile to zero in its mode two cycles later;
tadd adds 128 raw elements.  R326: what stood in the accumulator stays for the reads of the same cycle.
R310: in IEEE mode an element takes the contributions of a K-slice to its number and is rounded to f32 once.
R312: in order-free mode a finite contribution adds floor(c / 2^EB) to the 80-bit number modulo 2^80, whatever the order of
the contributions; a special one adds to the special state. -/
def Obligations.TensorSlot : Prop :=
  (
  ∀ (s : State) (c : Nat) (g : Guard), Issues s c →
    let x := s.core c
    let now := s.cyc.toNat
    (∀ f : NoFmt,
      let u : Uses := { bad := f != 0 }
      (checked s c g u = none → x.guard g = true → exec (.tnop c g f) s = .next (s.setCore c x)) ∧
      (checked s c g u = none → x.guard g = false → exec (.tnop c g f) s = .next s) ∧
      (∀ cause, checked s c g u = some cause → exec (.tnop c g f) s = .next (settle (hazardStop c cause s)))) ∧
    (∀ (m : TM) (i : Instr) (f : TFmt), (i, f) ∈ [(Instr.tmmaF4 c g m, TFmt.f4), (.tmmaLb4 c g m, .lb4),
        (.tmmaE2m3 c g m, .e2m3), (.tmmaE3m2 c g m, .e3m2), (.tmmaE4m3 c g m, .e4m3), (.tmmaE5m2 c g m, .e5m2),
        (.tmmaBf16 c g m, .bf16), (.tmmaF16 c g m, .f16)] →
      let u := usesTM f m now x
      let banks := x.banks ++ u.lines.map (fun l => (now, l % 48)) ++ u.lines1.map (fun l => (now + 1, l % 48))
      let la := operandLines f (x.lineAt m.ar.toNat (m.aoff.signExtend 64))
      let lb := operandLines f (x.lineAt m.br.toNat (m.boff.signExtend 64))
      let li := 2 * m.leng.toNat + b2n m.ll
      let occ := if m.of then 2 * f.occ else f.occ
      let es := (upto 4).filter fun e => bit m.emask.toNat e
      let ls := b2n m.ls
      let zeros := List.replicate (64 * f.lines) (0 : Byte)
      let pa : List Pend := if es = [] then []
        else if f.lines ≤ 18 then []
        else [⟨now, now + 1, .tmmaTail m.emask.toNat m.acc.toNat ls m.of ⟨f.code, la.drop 18, (la.take 18).flatMap x.line⟩⟩]
      let pb : List Pend := if m.le = false then []
        else if f.lines ≤ 18 then [⟨now, now + 8, .latch li ⟨f.code, [], lb.flatMap x.line⟩⟩]
        else [⟨now, now + 1, .tlbTail li ⟨f.code, lb.drop 18, (lb.take 18).flatMap x.line⟩⟩]
      (checked s c g u = none → x.guard g = true → ∃ t, exec i s = .next t ∧
        let y := t.core c
        t = { s.setCore c y with csr := t.csr, samp := t.samp, freeIdx := t.freeIdx } ∧
        y = { x with acc := y.acc, accWas := y.accWas, tBusy := y.tBusy, accNext := y.accNext, accReady := y.accReady,
                     lUse := y.lUse, banks := banks, pend := x.pend ++ pa ++ pb,
                     lWr := if m.le then (x.lWr.filter fun (w : Nat × Nat) => now ≤ w.2) ++ [(li, now + 7)] else x.lWr } ∧
        (∀ e, e < 4 →
          let a := 4 * e + m.acc.toNat
          (e ∈ es → Tbl.get y.tBusy e 0 = now + occ ∧ Tbl.get y.accNext a 0 = now + 4 ∧
            Tbl.get y.accReady a 0 = now + occ + 12 ∧ (18 < f.lines → y.tile a = x.tile a) ∧
            (∀ lt, f.lines ≤ 18 → (Tbl.find x.latch (2 * e + ls)).getD zeros = lt → 64 * f.lines ≤ lt.length →
              y.tile a = (x.tile a).mma ((upto 64).map (operandRow f (la.flatMap x.line)))
                ((upto 64).map (operandRow f lt)))) ∧
          (e ∉ es → Tbl.get y.tBusy e 0 = Tbl.get x.tBusy e 0) ∧
          (∀ b, b < 4 → (e ∉ es ∨ b ≠ m.acc.toNat) → y.tile (4 * e + b) = x.tile (4 * e + b) ∧
            Tbl.get y.accNext (4 * e + b) 0 = Tbl.get x.accNext (4 * e + b) 0 ∧
            Tbl.get y.accReady (4 * e + b) 0 = Tbl.get x.accReady (4 * e + b) 0))) ∧
      (checked s c g u = none → x.guard g = false → exec i s = .next s) ∧
      (∀ cause, checked s c g u = some cause → exec i s = .next (settle (hazardStop c cause s)))) ∧
    (∀ f : TC,
      let a := 4 * f.eng.toNat + f.acc.toNat
      let u := usesTC f now x
      let t := s.setCore c
        { x with tBusy := Tbl.set x.tBusy f.eng.toNat (max (Tbl.get x.tBusy f.eng.toNat 0) (now + 1)),
                 pend := x.pend ++ [⟨now, now + 2, .tile a f.mode (if f.mode then xEb (x.xreg f.x.toNat) else 0)⟩] }
      (checked s c g u = none → x.guard g = true → exec (.tclr c g f) s = .next t) ∧
      (checked s c g u = none → x.guard g = false → exec (.tclr c g f) s = .next s) ∧
      (∀ cause, checked s c g u = some cause → exec (.tclr c g f) s = .next (settle (hazardStop c cause s)))) ∧
    (∀ f : TA,
      let e := f.eng.toNat
      let a := 4 * e + f.acc.toNat
      let u := usesTA f now x
      let t := s.setCore c { (x.keepTile now a).setTile a ((x.tile a).addRaw (x.vreg f.vs.toNat) f.part.toNat) with
            tBusy := Tbl.set x.tBusy e (now + 1), accNext := Tbl.set x.accNext a (now + 4),
            accReady := Tbl.set x.accReady a (now + 13) }
      (checked s c g u = none → x.guard g = true → exec (.tadd c g f) s = .next t) ∧
      (checked s c g u = none → x.guard g = false → exec (.tadd c g f) s = .next s) ∧
      (∀ cause, checked s c g u = some cause → exec (.tadd c g f) s = .next (settle (hazardStop c cause s))))
  ) ∧
  (
  ∀ (x : Tile), x.lost = false →
    (∀ (rows cols : List (List (Option Machine.Num × List Machine.Num))) (i j : Nat), x.free = false → i < rows.length →
      j < cols.length → cols.length ≤ 64 →
      Tbl.get (x.mma rows cols).n (64 * i + j) 0 =
        to32 ((contributions (rows.getD i []) (cols.getD j [])).foldl Machine.Num.add (num32 (Tbl.get x.n (64 * i + j) 0)))) ∧
    (∀ (eb : Int) (n : Nat) (a b : List Machine.Num) (v : Bool), n < 2 ^ 80 →
      orderFreeAdd eb (a ++ b) n 0 v = orderFreeAdd eb (b ++ a) n 0 v) ∧
    (∀ (eb : Int) (m n sp : Nat) (v : Bool), m < 2 ^ 79 →
      orderFreeAdd eb [.fin false m eb] n sp v = ((n + m) % 2 ^ 80, sp, v)) ∧
    (∀ (l : List W32) (part q : Nat), l.length = 512 → q < 128 →
      Tbl.get (x.addRaw l part).n (128 * part + q) 0 =
        (Tbl.get x.n (128 * part + q) 0 + (rawElem l q).1) % 2 ^ 80)
  )

/-- R356 to R361: mld and mst give the move engine a transfer of 1 to 32,768 lines and matom an atomic, whs adds to a local
whistle; a count outside the range ends the program with BAD_DESCRIPTOR; a static post joins the
transfers of its core with the cycle its entry starts; msend puts the lanes on the core network, to land 20 cycles
later; a wait whose condition does not hold before this cycle's adds pauses the core; post sends a record. -/
def Obligations.MoveSlot : Prop :=
  ∀ (s : State) (c : Nat) (g : Guard) (p : Prog), Issues s c → coreProg s c = some p → (s.core c).prog = some p.id →
    let x := s.core c
    let now := s.cyc.toNat
    let next := fun (u : Uses) (i : Instr) (f : State → Prop) =>
      checked s c g u = none → x.guard g = true → ∃ t, exec i s = .next t ∧ f t
    let moved := fun (op : MoveOp) (ctr : Nat) =>
      startMoves c p.k (s.setCore c { x with
        moves := x.moves ++ [{ id := x.nextMove, ctr := ctr, op := op, issued := now }], nextMove := x.nextMove + 1 })
    (∀ f : NoFmt, SlotRuns s c g { bad := f != 0 } (.mnop c g f) (s.setCore c x)) ∧
    (∀ f : MD, x.waitingMoves < 1024 →
      let va := (x.sreg f.vr.toNat).toNat
      let line := (x.sreg f.lr.toNat).toNat
      let n := (x.sreg f.nr.toNat).toNat
      let u : Uses :=
        { bad := f.rsv != 0 || p.sealed_, s := [f.vr.toNat, f.lr.toNat, f.nr.toNat] ++ (if f.rem then [f.rr.toNat] else []),
          other := if 1 ≤ n ∧ n ≤ 32768 ∧ 393216 < line + n then some Cause'.addr else none }
      let rank := if f.rem then some ((x.sreg f.rr.toNat).toNat % 2 ^ 16) else none
      (1 ≤ n → n ≤ 32768 → rankStatus s c rank = 0 →
        SlotRuns s c g u (.mld c g f) (settle (moved (.load va line n rank) f.ctr.toNat)) ∧
        (f.twin = false ∨ (s.kennel p.k).feature 16 = true →
          SlotRuns s c g u (.mst c g f) (settle (moved (.store va line n rank f.twin) f.ctr.toNat)))) ∧
      (n = 0 ∨ 32768 < n → SlotRuns s c g u (.mld c g f) (settle (failProg p.id Code.badDescriptor (s.setCore c x))))) ∧
    (∀ f : MA, x.waitingMoves < 1024 →
      let rank := if f.rem then some ((x.sreg f.rr.toNat).toNat % 2 ^ 16) else none
      let u : Uses :=
        { bad := f.rsv != 0 || p.sealed_,
          s := [f.vr.toNat, f.opr.toNat] ++ (if f.aop = 3 then [f.cr.toNat] else []) ++ (if f.rem then [f.rr.toNat] else []),
          other := if 393216 ≤ f.line.toNat then some Cause'.addr else none }
      rankStatus s c rank = 0 →
      (f.aop ≠ 2 ∨ p.repro = false → SlotRuns s c g u (.matom c g f) (settle (moved (.atom (x.sreg f.vr.toNat).toNat
        f.aop.toNat (x.sreg f.opr.toNat) (x.sreg f.cr.toNat) rank f.line.toNat) f.ctr.toNat))) ∧
      (f.aop = 2 → p.repro = true → SlotRuns s c g u (.matom c g f)
        (settle (failProg p.id Code.notReproducible (s.setCore c x))))) ∧
    (∀ f : MW,
      let v := x.sreg f.sr.toNat
      let w := f.widx.toNat
      (x.waitingMoves < 1024 → f.rem = false → w < (s.kennel p.k).nWh →
        SlotRuns s c g { bad := f.rsv != 0 || p.sealed_, s := [f.sr.toNat] } (.whs c g f)
          (settle (moved (.whs w v none) f.ctr.toNat))) ∧
      ((s.kennel p.k).nWh ≤ w → SlotRuns s c g { bad := f.rsv != 0 || p.sealed_, s := [f.sr.toNat] } (.waitw c g f)
        (settle (failProg p.id Code.protection (s.setCore c x)))) ∧
      (x.resumeAt ≠ now → w < (s.kennel p.k).nWh →
        SlotRuns s c g { bad := f.rsv != 0 || p.sealed_, s := [f.sr.toNat] } (.waitw c g f) (s.setCore c
          (if v.toNat ≤ (seenWhistle s p.k w).toNat then x else { x with waiting := some (.whistle w v) }))) ∧
      (x.resumeAt ≠ now → SlotRuns s c g { bad := f.rsv != 0, s := [f.sr.toNat] } (.waitm c g f) (s.setCore c
        (if v.toNat ≤ (x.mreg f.ctr.toNat).toNat then x else { x with waiting := some (.counter f.ctr.toNat v) })))) ∧
    (∀ f : MP, x.waitingMoves < 1024 →
      SlotRuns s c g { bad := f.rsv != 0 || p.sealed_, s := [f.a.toNat, f.b.toNat] } (.post c g f)
        (settle (moved (.post (x.sreg f.a.toNat) (x.sreg f.b.toNat)) f.ctr.toNat))) ∧
    (∀ f : MS,
      let n := f.nm1.toNat + 1
      let st := now / 23040 * 23040 + (if f.wrap then 23040 else 0) + 18 * f.entry.toNat
      (slotEntry s f.entry.toNat).dir = 0 → next (usesMS s c f x) (.msp c g f) fun t =>
        t = s.setCore c { x with
          moves := x.moves ++ [{ id := x.nextMove, ctr := f.ctr.toNat, issued := now,
                                 op := .postRead st (x.sreg f.vr.toNat).toNat f.line.toNat n }],
          nextMove := x.nextMove + 1 }) ∧
    (∀ (f : MN) (d : Nat), p.cores[f.dst.toNat]? = some d → d ≠ c →
      next (usesMN s c f x) (.msend c g f) fun t =>
        (t.core d).net = (s.core d).net ++
          [⟨now + 20, c, (x.sreg f.lr.toNat + BitVec.ofNat 64 f.loff.toNat).toNat,
            laneBytes (laneGroup (x.vreg f.vs.toNat) f.li.toNat)⟩] ∧
        (∀ e, e ≠ d → t.core e = s.core e) ∧ t = { s with isl := t.isl, csr := t.csr, samp := t.samp, freeIdx := t.freeIdx })


/-! ## Time, determinism and the Scent log (spec/11) -/
/-- R379, R380: a TIME message is answered and its times are recorded for its port; one from the parent port gives the
delay and the offset once the four times are known; an offset beyond 1 µs steps the time base, one below trims its rate, and
16 offsets in a row within 0.1 ns set LOCKED.  A locked module's message carries its times (the instant at which
it crosses the pins is recorded when it does), and 1 ms without the parent's sets HOLDOVER.  R371, R383: NOADAPT and NOFAST hold what was
written, and ALIGN takes effect when locked with no core in LOAD or RUN and Dynamic mode. -/
def Obligations.TimeBase : Prop :=
  ∀ (s : State) (a : Arrival), Runs s →
    let p := a.pkt
    let u := takeArrival a s
    let x := timeRec s a.port
    let nseq : W32 := BitVec.ofNat 32 (field p.payload 16 4)
    (isFunction p 0xFFFFFFFFFF00 = false → exec (.time a) s = .next s) ∧
    (isFunction p 0xFFFFFFFFFF00 = true → p.len ≠ 2 → exec (.time a) s = .next (sendErr p Code.badDescriptor u)) ∧
    (isFunction p 0xFFFFFFFFFF00 = true → p.len = 2 → a.port < 144 →
      (parentPort s ≠ some a.port → exec (.time a) s = .next (sendAck p
        (setTimeRec a.port { x with rxLast := a.timePs, rxSeq := nseq } u))) ∧
      (∀ r t3, parentPort s = some a.port →
        (x.sent.find? fun y => y.1 == BitVec.ofNat 32 (field p.payload 20 4)) = some (r, t3) → x.rxLast ≠ 0 →
        x.rxSeq + 1 = nseq → field p.payload 8 8 ≠ 0 →
        let fwd : Int := (x.rxLast : Int) - field p.payload 0 8
        let back : Int := (field p.payload 8 8 : Int) - t3
        exec (.time a) s = .next (sendAck p (setTimeRec a.port { x with rxLast := a.timePs, rxSeq := nseq }
          (applyOffset (fwd - back) (((u.wr F.DET_TSTS_HOLDOVER 0).wr F.DET_LINKDLY_DELAY
            (min (Int.fdiv (fwd + back) 2).toNat (2 ^ 24 - 1)) a.port).wr F.DET_LINKDLY_VALID 1 a.port)))))) ∧
    (∀ h : Int,
      (2000000 < h.natAbs → ∃ t, some (applyOffset h s) = some t ∧
        t.time = ((s.time : Int) - Int.fdiv (9 * h) 2).toNat ∧ t.rd F.DET_TSTS_STEPPED = 1 ∧
        t.rd F.DET_TSTS_LOCKED = 0 ∧ t.rd F.DET_TSTS_ALIGNED = 0 ∧ t.cyc = s.cyc) ∧
      (h.natAbs ≤ 200 → 15 ≤ s.det.good → (applyOffset h s).rd F.DET_TSTS_LOCKED = 1 ∧
        (applyOffset h s).det.trim = -(Int.fdiv h 2) ∧ (applyOffset h s).time = s.time) ∧
      (200 < h.natAbs → h.natAbs ≤ 2000000 → (applyOffset h s).det.good = 0 ∧
        (applyOffset h s).rd F.DET_TSTS_LOCKED = s.rd F.DET_TSTS_LOCKED)) ∧
    (∀ q f, q < 144 → s.portUp q = true → parentPort s ≠ some q → (s.port q).ident = some f →
      s.rd F.DET_TSTS_LOCKED = 1 →
      let y := timeRec s q
      ∃ t, exec (.timeSend q) s = .next t ∧
        (∃ g, t.ni.queue = s.ni.queue ++ [g] ∧ g.port = some q ∧ g.pkt.dst = f.eid ∧ g.pkt.vc = 6 ∧
          g.pkt.addr = 0xFFFFFFFFFF00 ∧ g.pkt.payload = leBytes 8 y.txLast ++ leBytes 8 y.rxLast ++
            leBytes 4 y.txSeq.toNat ++ leBytes 4 y.rxSeq.toNat ++ leBytes 8 0) ∧
        (timeRec t q).txSeq = y.txSeq + 1 ∧ (∀ j, j ≠ q → timeRec t j = timeRec s j) ∧
        t = { s with ni := t.ni, det := t.det, freeIdx := t.freeIdx }) ∧
    (∀ q, q < 144 → s.portUp q = false → exec (.timeSend q) s = .next s) ∧
    ((parentPort s).isSome = true → exec .timeHoldover s = .next (s.wr F.DET_TSTS_HOLDOVER 1)) ∧
    (parentPort s = none → exec .timeHoldover s = .next s) ∧
    (∀ v : Bool, exec (.noadapt v) s = .next (s.wr F.DET_CTL_NOADAPT (if v then 1 else 0)) ∧
      exec (.nofast v) s = .next (s.wr F.DET_CTL_NOFAST (if v then 1 else 0))) ∧
    exec .align s = .next { s with det := { s.det with alignWait := true } } ∧
    (s.det.alignWait = true → s.rd F.DET_TSTS_LOCKED = 1 → s.rd F.POL_STS_CUR = 0 →
      (∀ c, c < 32 → (s.core c).st ≠ .load ∧ (s.core c).st ≠ .run) → exec .alignEffect s = .next
        { s.wr F.DET_TSTS_ALIGNED 1 with cyc := BitVec.ofNat 64 (s.time / 5000),
                                         det := { s.det with alignWait := false } }) ∧
    (s.rd F.DET_TSTS_LOCKED = 0 → exec .alignEffect s = .next s)

/-- R384: a START arms the barrier of its queue's command at the cycle ceil(TS × 9 / 5) and is acknowledged; one behind
HEAD is acknowledged and counted as missed; a malformed one is BAD_DESCRIPTOR, one for a kennel that is not OPEN
PROTECTION.  R387 to R390: KSCENT sets a kennel's log or ends it; when space returns what was lost is recorded,
and until then hold mode leaves a fabric access unanswered;
the end of a program writes the digest of each region of the table. -/
def Obligations.StartAndScent : Prop :=
  ∀ (s : State), Runs s →
    (∀ (a : Arrival) (k : Nat), a.pkt.ktag ≠ 0 → servedKennel s a.pkt.ktag = some k →
      let p := a.pkt
      let u := takeArrival a s
      let q := field p.payload 8 1
      let whs := field p.payload 10 2
      let seq : W32 := BitVec.ofNat 32 (field p.payload 12 4)
      let ok := p.len = 1 ∧ q < 16 ∧ field p.payload 9 1 = 0 ∧ bits whs 14 12 = 0
      (p.opc ≠ 0x21 → exec (.start a) s = .next s) ∧
      (p.opc = 0x21 → ¬ ok → exec (.start a) s = .next (sendErr p Code.badDescriptor u)) ∧
      (p.opc = 0x21 → ok → (s.kennel k).st ≠ .open → exec (.start a) s = .next (sendErr p Code.protection u)) ∧
      (∀ x, p.opc = 0x21 → ok → (s.kennel k).st = .open → bit whs 15 = false → s.queue k q = some x →
        s.det.barriers = [] → s.scent k = none →
        (canStart s k q x seq = true → exec (.start a) s = .next (sendAck p { u with det := { s.det with
          barriers := [⟨k, q, seq, (field p.payload 0 8 * 9 + 4) / 5⟩] } })) ∧
        (canStart s k q x seq = false → exec (.start a) s = .next (sendAck p (u.count F.DET_MISS_CNT_COUNT))))) ∧
    (∀ k ring n mode mask dig cnt : W64, servesCalls s = true → k.toNat < 4096 → s.hasPool = true → (s.kennel k.toNat).feature 15 = true →
      10 ≤ n.toNat → n.toNat ≤ 24 → mode.toNat ≤ 2 → cnt.toNat ≤ 64 → ring.toNat % 2 ^ 21 = 0 → dig.toNat % 2 ^ 21 = 0 →
      ring.toNat < 2 ^ 46 → dig.toNat < 2 ^ 46 →
      let st := (s.kennel k.toNat).st
      (mask.toNat &&& scentTypes ≠ mask.toNat →
        exec (.kscent k ring n mode mask dig cnt) s = .next (refuse Code.badDescriptor s)) ∧
      (mask.toNat &&& scentTypes = mask.toNat →
      (st ≠ .created → st ≠ .open → exec (.kscent k ring n mode mask dig cnt) s = .next (refuse Code.protection s)) ∧
      (st = .created ∨ st = .open → writable s k.toNat ring.toNat (128 + 128 * 2 ^ n.toNat) = true →
        mapped s k.toNat dig.toNat (16 * cnt.toNat) = true ∨ cnt = 0 →
        exec (.kscent k ring n mode mask dig cnt) s = .next (okWith 0 (setScent k.toNat
          (if mode = 0 then none else some { va := ring.toNat, log2 := n.toNat, mode := mode.toNat, mask := mask.toNat,
                                             dig := dig.toNat, nDig := cnt.toNat }) s))))) ∧
    (∀ k x, k < 4096 → s.scent k = some x → x.lost ≠ 0 → x.written - x.consumed < 2 ^ x.log2 →
      let slot := x.va + 128 + 128 * (x.written % 2 ^ x.log2)
      let lost := scentRecord 0x0F 0 0 0 x.eno s.nowNs x.lost [] []
      let w := leBytes 8 (x.written + 1)
      let t := writeVa k slot lost s
      let u := writeVa k x.va w t
      s.pool.accs = [] → RangeOk s k slot (.write lost) → RangeOk t k x.va (.write w) →
      mirrorPages t k slot 128 = [] → mirrorPages u k x.va 8 = [] →
      let r := reread k { x with lost := 0, written := x.written + 1, eno := x.eno + 1 }
        { u with pool := { u.pool with nextAcc := s.pool.nextAcc + 2 } }
      exec (.scentSpaceReturn k) s = .next (settle (setScent k (some r.1) r.2))) ∧
    (∀ k, k < 4096 → s.scent k = none → exec (.scentSpaceReturn k) s = .next s) ∧
    (∀ a pkt port x, s.pool.accs = [a] → a.asker = .fabric pkt port → s.scent a.k = some x → x.mode = 2 →
      2 ^ x.log2 ≤ x.written - x.consumed →
      exec (.hbmAccessDone a.id []) s = .next s) ∧
    (∀ p x, s.isl.progs = [p] → s.scent p.k = some x → allEnded s p = true → p.digested = false → x.nDig = 1 → x.lost = 0 →
      x.written + 1 - x.consumed < 2 ^ x.log2 →
      let slot := x.va + 128 + 128 * (x.written % 2 ^ x.log2)
      let ent := readVa s p.k x.dig 16
      let va := field ent 0 8
      let n := field ent 8 8
      let rec' := scentRecord 7 0 0 p.seq x.eno s.nowNs (((p.cores.head?).map fun c => (s.core c).step.toNat).getD 0) ent
        (digestOf (readVa s p.k va n))
      let w := leBytes 8 (x.written + 1)
      let b := writeVa p.k x.va w (writeVa p.k slot rec' s)
      let zeros (n : Nat) : PoolOp := .write (List.replicate n 0)
      let apart (v n q : Nat) : Prop :=
        let pa := (physAddr s p.k v).getD 0
        let r := (s.kennel p.k).root.getD 0 + 8 * (q / 4096)
        let e := (entryAddr s p.k q).getD 0
        (r + 8 ≤ pa ∨ pa + n ≤ r) ∧ (e + 8 ≤ pa ∨ pa + n ≤ e)
      s.pool.accs = [] → x.va % 128 = 0 → RangeOk s p.k slot (zeros 128) → RangeOk s p.k x.va (zeros 8) →
      mirrorPages s p.k slot 128 = [] → mirrorPages s p.k x.va 8 = [] → apart slot 128 (slot / 2 ^ 21) →
      apart slot 128 (x.va / 2 ^ 21) → apart x.va 8 (x.va / 2 ^ 21) →
      refusedEarly s p.k x.dig (.read 16) = none → RangeOk s p.k x.dig (.read 16) →
      refusedEarly s p.k va (.read n) = none → RangeOk s p.k va (.read n) → va % 64 = 0 → n % 64 = 0 → ∃ t, exec (.tensorDigestDone p.id) s = .next t ∧
        t.isl.progs = [{ p with digested := true }] ∧
        t.scent p.k = some { x with written := x.written + 1, eno := x.eno + 1 } ∧
        t.pool = { b.pool with nextAcc := s.pool.nextAcc + 2 } ∧
        t = { s.count F.CTR_KNL_COUNT (16 * p.k + 6) n with isl := t.isl, scents := t.scents, pool := t.pool }) ∧
    (∀ p, s.isl.progs = [p] → allEnded s p = false → exec (.tensorDigestDone p.id) s = .next s)


/-! ## Sprig (spec/12) -/
/-- R395, R396: STAGE takes the bytes that SPG_SRC names, and is refused with BUSY while a stage runs or a flip is
armed; its end reports the first check that fails in VERR and leaves every bank, or fills the STAGED bank.  A range that
is empty or leaves Kelpie SRAM fails as format.  R403: the drain ends 101 µs after a flip.  R406: FEA_LOCK locks.
R398 to R400: COMMIT and ROLLBACK arm a flip at SPG_TF and send an EPOCH on the lowest ACTIVE port of each direction
and of the tray; they are refused with BUSY, EMPTY or TFLATE.  An EPOCH is answered with ACK and arms, re-arms or is
rejected by the table.  R401: at the later of TF and the drain end the banks change, EPB inverts, a port whose
role changed leaves ACTIVE; before it nothing happens. -/
def Obligations.RoutingImages : Prop :=
  (
  ∀ (s : State), Quiet s →
    (∀ img : List Byte,
      (s.spg.staging = none → s.spg.armed = none → ∃ t, exec (.stage img) s = .next t ∧
        t = { s with spg := { s.spg with staging := t.spg.staging } } ∧
        (s.rd F.SPG_SRC_LEN = 0 ∨ 2 ^ 21 < s.rd F.SPG_SRC_ADDR + s.rd F.SPG_SRC_LEN → t.spg.staging = some []) ∧
        (s.rd F.SPG_SRC_LEN ≠ 0 → s.rd F.SPG_SRC_ADDR + s.rd F.SPG_SRC_LEN ≤ 2 ^ 21 →
          s.rd F.SPG_SRC_LEN = img.length → t.spg.staging = some img)) ∧
      (s.spg.staging ≠ none ∨ s.spg.armed ≠ none → exec (.stage img) s = .next (s.wr F.SPG_STS_BUSY 1)) ∧
      (s.spg.staging = some img →
        let n := spgLength img
        let u := { s with spg := { s.spg with staging := none } }
        let code :=
          if headerOk img = false ∨ reservedOk img = false then 1
          else if s.cryptoErr = true ∨ (sigBlock img n).keysAre (policyHashes s) = false then 2
          else if ecdsaValid img n = false ∨ mldsaValid img n = false then 3
          else if field img 8 4 ≤ s.rd F.SPG_FLOOR_VERSION ∨ field img 8 4 ≤ s.rd F.SPG_HIVER_VERSION then 4
          else contentCode s img (bankOf img)
        exec .stageDone s = .next (if code = 0 then
          { u.wr F.SPG_STS_VERR 0 with spg := { u.spg with staged := some (bankOf img) } }
          else u.wr F.SPG_STS_VERR code))) ∧
    (s.spg.staging = none → exec .stageDone s = .next s) ∧
    (s.spg.drainEnd ≤ s.nowNs → s.spg.drain = true →
      exec .epochDrainEnd s = .next { s with spg := { s.spg with drain := false } }) ∧
    (s.nowNs < s.spg.drainEnd → exec .epochDrainEnd s = .next s) ∧
    exec .feaLock s = .next (s.wr F.FEA_LOCK_LOCK 1)
  ) ∧
  (
  ∀ (s : State), Quiet s →
    (∀ op, op = 1 ∨ op = 2 →
      let tf := s.rd F.SPG_TF_TF
      let o := if op = 1 then exec .commit s else exec .rollback s
      (s.spg.armed ≠ none ∨ s.spg.staging ≠ none → o = .next (s.wr F.SPG_STS_BUSY 1)) ∧
      (s.spg.armed = none → s.spg.staging = none →
        (nextBank s op = none → o = .next (s.wr F.SPG_STS_EMPTY 1)) ∧
        (∀ b, nextBank s op = some b →
          let a : Armed := ⟨tf, s.self, op, b.version, !s.spg.epb⟩
          (tf < s.nowNs + 10000 → o = .next (s.wr F.SPG_STS_TFLATE 1)) ∧
          (s.nowNs + 10000 ≤ tf → (epochPorts s = [] → o = .next (armFlip a s)) ∧
            (∀ p, epochPorts s = [p] → ∃ t, o = .next t ∧ (∃ g, t.ni.queue = s.ni.queue ++ [g] ∧
                g.port = some p ∧ g.pkt.opc = 0x22 ∧ g.pkt.ktag = 0 ∧ g.pkt.vc = 6 ∧ g.pkt.addr = 0 ∧
                g.pkt.payload = leBytes 8 tf ++ leBytes 4 b.version ++ leBytes 2 s.self ++ leBytes 1 op ++
                  leBytes 1 (if s.spg.epb then 0 else 1)) ∧
              t.spg = { s.spg with armed := some a } ∧ t.rd F.SPG_TF_TF = tf % 2 ^ 64 ∧
              t = { s with spg := t.spg, csr := t.csr, ni := t.ni }))))) ∧
    (nextBank s 1 = s.spg.staged ∧ (s.spg.rbok = true → nextBank s 2 = s.spg.previous) ∧
      (s.spg.rbok = false → nextBank s 2 = none)) ∧
    (∀ (a : Arrival), a.pkt.opc = 0x22 → a.port < 144 →
      let u := takeArrival a s
      let far := (1 ≤ s.role a.port ∧ s.role a.port ≤ 4) ∨ s.role a.port = 5
      let bad := sendAck a.pkt ((u.count F.SPG_EPREJ_CNT_COUNT).wr F.SPG_STS_EPMIS 1)
      (¬ far → exec (.epoch a) s = .next (sendAck a.pkt u)) ∧
      (far → epochOf (a.pkt.payload.take 16) = none → exec (.epoch a) s = .next bad) ∧
      (∀ e, epochOf (a.pkt.payload.take 16) = some e → far →
        (epochMatches s e = false → exec (.epoch a) s = .next bad) ∧
        (epochMatches s e = true →
          let again := sendAck a.pkt (sendEpoch (a.pkt.payload.take 16) a.port (armFlip e u))
          (s.spg.armed = none → exec (.epoch a) s = .next again) ∧
          (∀ x, s.spg.armed = some x →
            (¬ (e.op = x.op ∧ e.version = x.version ∧ e.newEpb = x.newEpb) → exec (.epoch a) s = .next bad) ∧
            (e.op = x.op → e.version = x.version → e.newEpb = x.newEpb →
              (e.tf = x.tf ∨ x.master ≤ e.master → exec (.epoch a) s = .next (sendAck a.pkt u)) ∧
              (e.tf ≠ x.tf → e.master < x.master → exec (.epoch a) s = .next again)))))) ∧
    (∀ a, a.pkt.opc ≠ 0x22 → exec (.epoch a) s = .next s) ∧
    (∀ a b, s.spg.armed = some a → nextBank s a.op = some b → a.tf ≤ s.nowNs →
      s.spg.drain = false ∨ s.spg.drainEnd ≤ s.nowNs → ∃ t, epochFlip s = t ∧ exec .epochFlip s = .next (settle t) ∧
        t.spg = ⟨if a.op = 1 then none else s.spg.staged, b, some s.spg.active, true, !s.spg.epb, a.op == 1, none,
          s.spg.staging, true, s.nowNs + 101000⟩ ∧
        t.rd F.SPG_HIVER_VERSION = (if a.op = 1 then b.version % 2 ^ 32 else s.rd F.SPG_HIVER_VERSION) ∧
        (b.power ≠ [] → t.rd F.PWR_GOV_RATE = field b.power 0 2 % 2 ^ F.PWR_GOV_RATE.w ∧
          t.rd F.PWR_GOV_UNIT = field b.power 2 2 % 2 ^ F.PWR_GOV_UNIT.w ∧
          t.rd F.PWR_GOV_HOLD = field b.power 6 2 % 2 ^ F.PWR_GOV_HOLD.w) ∧
        (∀ p, p < 144 → s.portUp p = true → b.role p ≠ s.role p → (s.port p).forced = false → t.portUp p = false ∧
          (t.port p).rung = (s.port p).rung ∧ (t.port p).climbing = false) ∧
        (bit b.flags 2 = true → ∀ i, i < 576 → t.rd F.OUB_QMAX_CELLS i = 0) ∧
        t.pool.mem = s.pool.mem ∧ t.binds = s.binds ∧ t.klp = { s.klp with certLost := t.klp.certLost } ∧
        (s.xbr.flows = [] → s.isl.progs = [] → t.knl = s.knl ∧ t.cmds = s.cmds)) ∧
    (s.spg.armed = none ∨ (∃ a, s.spg.armed = some a ∧ (s.nowNs < a.tf ∨ (s.spg.drain = true ∧ s.nowNs < s.spg.drainEnd)))
      → exec .epochFlip s = .next s)
  )


/-! ## Kelpie (spec/13) -/
/-- R414 to R417, R425, R426: the ROM boots the first slot whose image passes every check, hides the UDS and hands the
monitor its measurements; when neither passes, the boot source 730 asserts, the reporter runs and no port stays up.  RESTART
reboots warm and unlocks MON_LOCK.  R410, R424: hart 0 enters the monitor in M mode, and the firmware starts in S mode on
every hart.  R419, R438: MON_LOCK is an operand of a locked sequence, whose operands GO applies within 1 ms and which is
aborted otherwise; the lock is set once, by the monitor.  R416, R420, R439, R476: the monitor that locks enters the firmware
with its identity, writes the signed policy, and sets CERTIFIED where its conditions hold. -/
def Obligations.BootAndLock : Prop :=
  ∀ (s : State), Quiet s →
    (∀ (a b : FlashSlot), s.klp.mode = .rom → inReset s = false →
      let off := (upto 144).foldl (fun s p => enterOff p s) s
      exec (.romBoot a b) s = .next
        (if slotCode s a = 0 then boot 0 a.bytes s
         else if slotCode s b = 0 then boot 1 b.bytes s
         else settle (raise 730 ({ off with klp := { off.klp with mode := .reporter } }.wr F.KLP_BOOTSTS_CODE (slotCode s a)))) ∧
      (slotCode s a ≠ 0 → slotCode s b ≠ 0 → stickyBit s 730 = false → ∃ t, exec (.romBoot a b) s = .next t ∧
        stickyBit t 730 = true ∧ t.klp.mode = .reporter ∧ t.rd F.KLP_BOOTSTS_CODE = slotCode s a % 2 ^ F.KLP_BOOTSTS_CODE.w ∧
        (∀ p, p < 144 → (s.port p).forced = false → t.portUp p = false))) ∧
    (∀ n b, ∃ t, some (boot n b s) = some t ∧ t.rd F.KLP_BOOTSTS_SLOT = n % 2 ∧ t.rd F.KLP_BOOTSTS_CODE = 0 ∧
      t.klp.mode = .monitor ∧ t.klp.hidden = true ∧ t.klp.bootSvn = field b 8 4 ∧ t.klp.monSize = field b 16 4 ∧
      t.klp.sentry = field b 24 4 ∧ t.klp.imageDig = digestOf (b.take (field b 12 4)) ∧ t.klp.bootState = layer0Inputs s ∧
      (let c0 := Config.hmac (udsOf s) (layer0Inputs s)
       t.klp.ids = [idSlot c0, idSlot (Config.hmac c0 (digestOf (b.take (field b 12 4))))]) ∧
      t.klp.sram = sramStore 0 (b.take (field b 12 4)) s.klp.sram ∧
      t.klp.harts = ListOps.modify resetHarts 0 (Hart.enter .m (field b 20 4)) ∧
      (s.rd F.KLP_BOOTSTS_WARM = 1 → t.klp.keys = s.klp.keys ∧ t.klp.regionKey = s.klp.regionKey) ∧
      (s.rd F.KLP_BOOTSTS_WARM = 0 → t.klp.keys = [] ∧ t.klp.regionKey.length = 64) ∧
      t = { s with klp := t.klp, csr := t.csr, freeIdx := t.freeIdx }) ∧
    (∀ a b, s.klp.mode ≠ .rom ∨ inReset s = true → exec (.romBoot a b) s = .next s) ∧
    (inReset s = false → ∃ t, exec .kelpieRestart s = .next t ∧ t.klp =
        { s.klp with mode := .rom, hidden := false, spdm := 0, transcript := [], answer := none, seqAt := none,
                     harts := resetHarts, seqOps :=
            if s.klp.seqAt = none then s.klp.seqOps else [] } ∧
      t.rd F.MON_LOCK_LOCKED = 0 ∧ t.rd F.MON_LOCK_SIZE = 0 ∧ t.rd F.KLP_BOOTSTS_WARM = 1 ∧
      t = { s with klp := t.klp, csr := t.csr }) ∧
    (inReset s = true → exec .kelpieRestart s = .next s) ∧
    (∀ (v : Byte),
      (s.rd F.MON_LOCK_LOCKED = 1 ∨ s.klp.seqAt = none → exec (.monLock .monitor v) s = .next s) ∧
      (s.rd F.MON_LOCK_LOCKED = 0 → s.klp.seqAt ≠ none → exec (.monLock .monitor v) s = .next
        { s with klp := { s.klp with seqOps := s.klp.seqOps ++ [.monLock v.toNat] } }) ∧
      (∀ by_, by_ ≠ .monitor → quietSource s 720 = false → stickyBit s 720 = false → effSev s 720 ≤ 1 →
        ∃ t, exec (.monLock by_ v) s = .next t ∧ stickyBit t 720 = true ∧ t.klp = s.klp ∧
          t.rd F.MON_LOCK_LOCKED = s.rd F.MON_LOCK_LOCKED ∧ t.rd F.MON_LOCK_SIZE = s.rd F.MON_LOCK_SIZE)) ∧
    (s.klp.seqAt = none → ∃ t, exec .seqOpen s = .next t ∧ t.klp = { s.klp with seqAt := some s.clock, seqOps := [] } ∧
      t.rd F.KLP_SEQ_OPEN = 1 ∧ t = { s with klp := t.klp, csr := t.csr }) ∧
    (s.klp.seqAt ≠ none → exec .seqOpen s = .next (s.wr F.KLP_SEQ_BUSY 1)) ∧
    (∀ at_ n, s.klp.seqAt = some at_ →
      let closed := { s with klp := { s.klp with seqAt := none, seqOps := [] } }.wr F.KLP_SEQ_OPEN 0
      exec .seqTimeout s = .next (closed.wr F.KLP_SEQ_ABORT 1) ∧
      (at_ + 9000000000 ≤ s.clock → exec .seqGo s = .next (closed.wr F.KLP_SEQ_ABORT 1)) ∧
      (s.clock < at_ + 9000000000 →
        (s.klp.seqOps = [] → exec .seqGo s = .next closed) ∧
        (s.klp.seqOps = [.lifecycle n] → exec .seqGo s = .next
          { closed with klp := { closed.klp with lcsNext := some n } }) ∧
        (s.klp.seqOps = [.monLock n] → s.rd F.MON_LOCK_LOCKED = 1 → exec .seqGo s = .next closed) ∧
        (s.klp.seqOps = [.monLock n] → s.rd F.MON_LOCK_LOCKED = 0 → s.klp.mode ≠ .monitor →
          exec .seqGo s = .next ((closed.wr F.MON_LOCK_LOCKED 1).wr F.MON_LOCK_SIZE n)) ∧
        (s.klp.seqOps = [.monLock n] → s.rd F.MON_LOCK_LOCKED = 0 → s.klp.mode = .monitor → s.klp.links = [] →
          ∃ t, exec .seqGo s = .next t ∧ t.rd F.MON_LOCK_LOCKED = 1 ∧ t.rd F.MON_LOCK_SIZE = n % 256 ∧
            t.rd F.KLP_SEQ_OPEN = 0 ∧ t.klp = { s.klp with
              mode := .running, seqAt := none, seqOps := [], policyIn := true, spdm := 0, transcript := [],
              answer := none, harts := s.klp.harts.map (Hart.enter .s s.klp.sentry),
              ids := s.klp.ids.take 2 ++ (if s.cryptoErr then []
                else [idSlot (Config.hmac (idOf s 1).secret s.klp.fwDig)]) } ∧
            t.rd F.KLP_CERT_CERTIFIED = (if s.klp.lcs = 2 ∧ s.rd F.KLP_DBGSTS_EVER = 0 ∧ s.cryptoErr = false ∧
              certRoutes s = true ∧ s.klp.certLost = false then 1 else s.rd F.KLP_CERT_CERTIFIED) ∧
            (s.klp.policyIn = false →
              (∀ i, i < 24 → t.rd F.SPG_POLICY_HASH i = (Config.policyHash s.klp.imageDig i).toNat) ∧
              (∀ i, i < 742 → t.rd (sevField i) (i / 8) = max (Config.policySev s.klp.imageDig i).toNat (houndFloor i))) ∧
            t = { s with klp := t.klp, csr := t.csr }))) ∧
    (s.klp.seqAt = none → exec .seqTimeout s = .next s ∧ exec .seqGo s = .next s)

/-- R435, R436: a challenge is 32 bytes from the DRBG; a token that answers it, for this UID and signed by the
debug authority, unlocks with its SCOPE, uses the challenge up and ends the certified configuration.  R411, R412, R424: a
lifecycle transition goes one state on, through a locked sequence (R438), firmware loads after its checks and gets a new
identity (R416), and floors only rise and stay at or below what runs.  R421: an argument that is out of range is BAD_DESCRIPTOR, an address in
the monitor region PROTECTION.  Whether a token for RMA is Zelholt's is a free value (log entry 44).
R421, R423, R428, R429: the remaining monitor calls refuse an argument outside its range with BAD_DESCRIPTOR, then what
protects other state with PROTECTION; otherwise each has its one effect and returns OK.  R147: no mirror on a port that is
bound or routed; R164: route sets of different owners are disjoint; R465: a severity keeps its floor; R476: a forced
source asserts. -/
def Obligations.DebugAndMonitor : Prop :=
  (
  ∀ (s : State), Quiet s →
    (s.cryptoErr = false → exec .authdataChallenge s = .next { s with
      freeIdx := s.freeIdx + 32,
      klp := { s.klp with challenge := some ((List.range 32).map fun i => Config.freeByte (s.freeIdx + i)) } }) ∧
    (s.cryptoErr = true → exec .authdataChallenge s = .next s) ∧
    (∀ (t : List Byte) (x : W64),
      let open_ := (((({ s with klp := { s.klp with challenge := none, certLost := true } }.wr F.KLP_DBGSTS_UNLOCKED 1).wr
        F.KLP_DBGSTS_SCOPE (field t 44 4)).wr F.KLP_DBGSTS_EVER 1).wr F.KLP_CERT_CERTIFIED 0)
      let good := tokenOk s t
      exec (.authdataToken t) s = .next (if good then open_ else s) ∧
      (servesCalls s = true →
      (x.toNat < 2 ^ 40 → s.rd F.MON_LOCK_LOCKED = 0 ∨ 4096 * s.rd F.MON_LOCK_SIZE ≤ x.toNat →
        exec (.dbgunlock x t) s = .next (if good then okWith 0 open_ else refuse Code.protection s) ∧
        exec (.fwload x t) s = .next (
          if imageCode true s.klp.svnFw s t = 0 then okWith 0 { s with klp := { s.klp with
            fwSvn := field t 8 4, sentry := field t 24 4, fwDig := digestOf (t.take (field t 12 4)),
            ids := s.klp.ids.take 2 ++ [idSlot (Config.hmac (idOf s 1).secret (digestOf (t.take (field t 12 4))))],
            sram := sramStore s.klp.monSize (t.take (field t 12 4)) s.klp.sram,
            harts := s.klp.harts.map (Hart.enter .s (s.klp.monSize + field t 24 4)),
            spdm := 0, transcript := [], answer := none } }
          else refuse Code.protection s) ∧
        (∀ n : W64, n.toNat ≤ 4 →
          (n.toNat = s.klp.lcs + 1 → n ≠ 3 → exec (.lcstrans n x t) s = .next
            (okWith 0 (locked (.lifecycle n.toNat) { s with freeIdx := s.freeIdx + 1 }))) ∧
          (n.toNat = s.klp.lcs + 1 → n = 3 → exec (.lcstrans n x t) s = .next
            (if s.cryptoErr = false ∧ Config.freeBool s.freeIdx = true then
              okWith 0 (locked (.lifecycle 3) { s with freeIdx := s.freeIdx + 1 })
             else refuse Code.protection s)) ∧
          (n.toNat ≠ s.klp.lcs + 1 → exec (.lcstrans n x t) s = .next (refuse Code.protection s)))) ∧
      (2 ^ 40 ≤ x.toNat → exec (.dbgunlock x t) s = .next (refuse Code.badDescriptor s) ∧
        exec (.fwload x t) s = .next (refuse Code.badDescriptor s)) ∧
      (s.rd F.MON_LOCK_LOCKED = 1 → t ≠ [] → x.toNat < 4096 * s.rd F.MON_LOCK_SIZE → x.toNat < 2 ^ 40 →
        exec (.dbgunlock x t) s = .next (refuse Code.protection s) ∧
        exec (.fwload x t) s = .next (refuse Code.protection s)) ∧
      (∀ n : W64, 4 < n.toNat → exec (.lcstrans n x t) s = .next (refuse Code.badDescriptor s)))) ∧
    (∀ n, s.klp.seqAt = none → locked (.lifecycle n) s =
      { s with klp := { s.klp with seqOps := [], lcsNext := some n } }.wr F.KLP_SEQ_OPEN 0) ∧
    (∀ b f, s.klp.seqAt = none → locked (.svn b f) s =
      { s with klp := { s.klp with seqOps := [], svnBoot := b, svnFw := f } }.wr F.KLP_SEQ_OPEN 0) ∧
    (∀ (b f : W64), servesCalls s = true → b.toNat < 2 ^ 32 → f.toNat < 2 ^ 32 →
      (s.klp.svnBoot ≤ b.toNat → s.klp.svnFw ≤ f.toNat → b.toNat ≤ s.klp.bootSvn → f.toNat ≤ s.klp.fwSvn →
        exec (.svnfloor b f) s = .next (okWith 0 (locked (.svn b.toNat f.toNat) s))) ∧
      (b.toNat < s.klp.svnBoot ∨ f.toNat < s.klp.svnFw ∨ s.klp.bootSvn < b.toNat ∨ s.klp.fwSvn < f.toNat →
        exec (.svnfloor b f) s = .next (refuse Code.protection s)))
  ) ∧
  (
  ∀ (s : State) (a b c : W64), Served s →
    let protection := refuse Code.protection s
    let invalid := refuse Code.badDescriptor s
    let key := (List.range 64).map fun i => Config.freeByte (s.freeIdx + i)
    exec (.keygen a) s = .next (
      if 4096 ≤ a.toNat then invalid
      else if slotFull s a.toNat then protection
      else if s.cryptoErr then refuse Code.checkFail s
      else okWith 0 { s with freeIdx := s.freeIdx + 64, klp := { s.klp with keys := Tbl.set s.klp.keys a.toNat key } }) ∧
    exec (.keyzero a) s = .next (
      if 4096 ≤ a.toNat then invalid
      else if slotBound s a.toNat then protection
      else okWith 0 { s with klp := { s.klp with keys := Tbl.erase s.klp.keys a.toNat } }) ∧
    exec (.mirset a b c) s = .next (
      if 8 ≤ a.toNat ∨ 2 ^ 32 ≤ b.toNat ∨ 2 ^ 24 ≤ c.toNat then invalid
      else if apBad s (b.toNat / 2 ^ 11 % 2 ^ 8) then protection
      else okWith 0 ((s.wrAll .OUB_MIRCTL a.toNat b.toNat).wrAll .OUB_MIRMATCH a.toNat c.toNat)) ∧
    exec (.rsetown a b c) s = .next (
      if 64 ≤ a.toNat ∨ 2 ^ 16 ≤ b.toNat ∨ 2 ≤ c.toNat then invalid
      else if c = 1 ∧ ownRefused s a.toNat b.toNat = true then protection
      else okWith 0 ((s.wr F.RTE_RSET_OWN_KTAG b.toNat a.toNat).wr F.RTE_RSET_OWN_VALID c.toNat a.toNat)) ∧
    exec (.rtvquota a b) s = .next (
      if 4096 ≤ a.toNat ∨ 256 < b.toNat then invalid else okWith 0 (s.wr F.RTV_QUOTA_QUOTA b.toNat a.toNat)) ∧
    exec (.spgfloor a) s = .next (
      if 2 ^ 32 ≤ a.toNat then invalid
      else if a.toNat < s.rd F.SPG_FLOOR_VERSION then protection
      else okWith 0 (s.wr F.SPG_FLOOR_VERSION a.toNat)) ∧
    exec (.hndsev a b) s = .next (
      if 742 ≤ a.toNat ∨ 8 ≤ b.toNat then invalid
      else if b.toNat < houndFloor a.toNat then protection
      else okWith 0 (s.wr (sevField a.toNat) b.toNat (a.toNat / 8))) ∧
    (742 ≤ a.toNat ∨ 2 ≤ b.toNat → exec (.hndforce a b) s = .next invalid) ∧
    (a.toNat < 742 → exec (.hndforce a 0) s = .next (okWith 0 (s.wr F.HND_FORCE_FORCE
      (clearBits (s.rd F.HND_FORCE_FORCE (a.toNat / 32)) (2 ^ (a.toNat % 32))) (a.toNat / 32)))) ∧
    (a.toNat < 742 → 5 ≤ effSev s a.toNat → (s.knl.any fun x => x.2.st != .free) = true →
      exec (.hndforce a 1) s = .next protection) ∧
    (a.toNat < 712 → quietSource s a.toNat = false → stickyBit s a.toNat = false → effSev s a.toNat ≤ 1 →
      ∃ t, exec (.hndforce a 1) s = .next t ∧ stickyBit t a.toNat = true ∧ t.host.status = 0 ∧
        bit (t.rd F.HND_FORCE_FORCE (a.toNat / 32)) (a.toNat % 32) = true ∧ 
        t = { s with csr := t.csr, host := t.host, samp := t.samp, freeIdx := t.freeIdx }) ∧
    (∀ (n : W64),
      exec (.ctrsamp n a b c) s = .next (
        if 16 ≤ n.toNat ∨ isSelector a.toNat = false ∨ b.toNat < 8 ∨ 47 < b.toNat ∨ 2 ≤ c.toNat then invalid
        else okWith 0 (((s.wr F.CTR_SCTL_EN c.toNat n.toNat).wr F.CTR_SCTL_WIDTH b.toNat n.toNat).wr
          F.CTR_SCTL_SEL a.toNat n.toNat))) ∧
    (144 ≤ a.toNat ∨ 2 ≤ b.toNat → exec (.linksec a b) s = .next invalid) ∧
    (a.toNat < 144 → b.toNat < 2 → isHall (s.role a.toNat) = false → exec (.linksec a b) s = .next protection) ∧
    (a.toNat < 144 → b.toNat < 2 → isHall (s.role a.toNat) = true →
      (s.rd F.MON_LINKSEC_EN a.toNat = b.toNat → exec (.linksec a b) s = .next (okWith 0 s)) ∧
      (s.rd F.MON_LINKSEC_EN a.toNat ≠ b.toNat → ∃ t, exec (.linksec a b) s = .next t ∧
        t.rd F.MON_LINKSEC_EN a.toNat = b.toNat ∧ t.portUp a.toNat = (s.portUp a.toNat && (s.port a.toNat).forced) ∧
        (b = 0 → s.portUp a.toNat = false → t.rd F.MON_LINKSEC_STATE a.toNat = 0 ∧ t.linkSec a.toNat = none) ∧
        t.host.status = 0))
  )


/-! ## Link keys and attestation (spec/13) -/
/-- R430, R432: only the far end of the link is heard, and each of its messages is answered.  A message arrives in fragments
of 4,080 bytes; the responder answers message 1 with message 2, the initiator message 2 with message 3, and both then hold, in
the link slot, the two keys and salts that HKDF gives from both secrets, with each end's start at least 65,536 units ahead.
An answer passes when its chain ends at a Zelholt root, its UID is the wiring plan's and both signatures verify over the
exchange so far; a failed check leaves the port at MGMT only, counts and raises source 432 + port.  R432: rekeying opens a
new exchange.  How the bytes of a message and of HKDF's output are laid out is log entry 51.
R431: a record closes with a LINKTAG of its number, its units and the XOR of their AES-256-GCM tags, each over one unit
under the salt and the unit's number; it closes at its 256th unit.  The receiver checks it against the next record.  A tag
that does not agree, or that is missing 10 µs after its last unit, takes the port out of ACTIVE, zeroises its link slot and
counts.  A rejected tag's effect is stated for a source 432 + port that only records. -/
def Obligations.LinkSecurity : Prop :=
  (
  ∀ (s : State), Quiet s →
    (∀ (n : Nat) (a : Arrival), n = 0 ∨ n = 1 →
      let addr := if n = 0 then 0xFFFFFFFFFD00 else 0xFFFFFFFFFE00
      let o := if n = 0 then exec (.linkKeyMessage a) s else exec (.linktag a) s
      (isFunction a.pkt addr = false → o = .next s) ∧
      (isFunction a.pkt addr = true → fromFar s a = false →
        o = .next (sendErr a.pkt Code.protection (takeArrival a s))) ∧
      (isFunction a.pkt addr = true → fromFar s a = true → a.pkt.len = 0 →
        o = .next (sendErr a.pkt Code.badDescriptor (takeArrival a s)))) ∧
    (∀ (a : Arrival) (k : LinkSec), isFunction a.pkt 0xFFFFFFFFFD00 = true → fromFar s a = true → 1 ≤ a.pkt.len.toNat →
      monitorRuns s = true → s.linkSec a.port = some k → s.rd F.MON_LINKSEC_STATE a.port ≠ 3 →
      k.inTotal = 0 → k.inFrags = [] →
      let b := a.pkt.payload
      let total := field b 4 4
      let d := (b.drop 16).take total
      let m := d.take (d.length - (96 + 4627))
      let sig := d.drop (d.length - (96 + 4627))
      let free (i n : Nat) := (List.range n).map fun j => Config.freeByte (s.freeIdx + i + j)
      let start := k.txSent + 65536 + (Config.freeWord s.freeIdx).toNat % 2 ^ 32
      let verified (chain script : List Byte) : Bool := decide (96 + 4627 ≤ d.length) && Config.chainRooted chain &&
        Config.chainUid chain == (Tbl.get s.spg.active.wiring a.port {}).uid &&
        Config.ecdsaOk (Config.chainKeys chain).1 (digestOf script) (sig.take 96) &&
        Config.mldsaOk (Config.chainKeys chain).2 (digestOf script) (sig.drop 96)
      field b 8 4 = 0 → field b 12 4 = 0 → 0 < total →
      (field b 0 4 = k.awaits → k.awaits ≠ 0 → 4080 < total → ∃ t, exec (.linkKeyMessage a) s = .next t ∧
        t.linkSec a.port = some { k with inTotal := total, inFrags := [(0, d.take 4080)] }) ∧
      (field b 0 4 ≠ k.awaits → ∃ t, exec (.linkKeyMessage a) s = .next t ∧ t.linkSec a.port = some k) ∧
      (s.cryptoErr = false → total ≤ 4080 → d.length = total → k.awaits = 1 → field b 0 4 = 1 →
        let kem := Config.kemEncaps ((d.drop 48).take 1568) (free 49 32)
        ∃ t, exec (.linkKeyMessage a) s = .next t ∧ k.txSent + 65536 ≤ start ∧
          t.linkSec a.port = some { k with
            msgs := 2, txNext := some start,
            secret := kem.2 ++ Config.ecdhSecret (free 81 48) ((d.drop 1616).take 97),
            script := d.take 1713 ++
              (free 1 48 ++ kem.1 ++ Config.ecdhShare (free 81 48) ++ leBytes 8 start ++ aliasChain s) } ∧
          t.rd F.MON_LINKSEC_STATE a.port = s.rd F.MON_LINKSEC_STATE a.port) ∧
      (s.cryptoErr = false → s.klp.seqAt = none → total ≤ 4080 → d.length = total → k.awaits = 3 → field b 0 4 = 3 →
        stickyBit s (432 + a.port) = false → effSev s (432 + a.port) ≤ 1 → ∃ t, exec (.linkKeyMessage a) s = .next t ∧
          let passes := verified (m.drop 8) (k.script ++ m)
          let o := Config.hkdf (k.script.take 48 ++ (k.script.drop 1713).take 48) k.secret (digestOf (k.script ++ m))
          t.linkSec a.port = some (if passes then { k with
              msgs := 3, secret := [], rxNext := some (field d 0 8),
              slot := some { tx := (o.drop 36).take 32, txSalt := (o.drop 68).take 4,
                             rx := o.take 32, rxSalt := (o.drop 32).take 4 } }
            else { k with msgs := 4 }) ∧
          t.rd F.MON_LINKSEC_STATE a.port = (if passes then s.rd F.MON_LINKSEC_STATE a.port else 3) ∧
          stickyBit t (432 + a.port) = !passes) ∧
      (s.cryptoErr = true → total ≤ 4080 → d.length = total → k.awaits ≠ 0 → field b 0 4 = k.awaits →
        ∃ t, exec (.linkKeyMessage a) s = .next t ∧ t.linkSec a.port = some { k with msgs := 4 } ∧
          (a.port < 144 → t.rd F.MON_LINKSEC_STATE a.port = 3)) ∧
      (s.cryptoErr = false → s.klp.seqAt = none → total ≤ 4080 → d.length = total → k.awaits = 2 → field b 0 4 = 2 →
        stickyBit s (432 + a.port) = false → effSev s (432 + a.port) ≤ 1 → ∃ t, exec (.linkKeyMessage a) s = .next t ∧
          let passes := verified (m.drop 1721) (k.script ++ m)
          let o := Config.hkdf (k.script.take 48 ++ d.take 48)
            (Config.kemDecaps (k.secret.take 64) ((d.drop 48).take 1568) ++
              Config.ecdhSecret (k.secret.drop 64) ((d.drop 1616).take 97))
            (digestOf (k.script ++ m ++ (leBytes 8 start ++ aliasChain s)))
          t.linkSec a.port = some (if passes then { k with
              msgs := 3, secret := [], txNext := some start, rxNext := some (field d 1713 8),
              slot := some { tx := o.take 32, txSalt := (o.drop 32).take 4,
                             rx := (o.drop 36).take 32, rxSalt := (o.drop 68).take 4 } }
            else { k with msgs := 4 }) ∧
          t.rd F.MON_LINKSEC_STATE a.port = (if passes then s.rd F.MON_LINKSEC_STATE a.port else 3) ∧
          stickyBit t (432 + a.port) = !passes)) ∧
    (∀ p k, p < 144 → s.linkSec p = some k →
      (s.portUp p = true → s.rd F.MON_LINKSEC_STATE p = 2 → k.initiator = true → monitorRuns s = true → s.cryptoErr = false →
        let free (i n : Nat) := (List.range n).map fun j => Config.freeByte (s.freeIdx + i + j)
        ∃ t, exec (.linkRekey p) s = .next t ∧ t.linkSec p = some { k with
            msgs := 1, inTotal := 0, inFrags := [], secret := free 48 112,
            script := free 0 48 ++ Config.kemKey (free 48 64) ++ Config.ecdhShare (free 112 48) } ∧
          t = { s with klp := t.klp, ni := t.ni, freeIdx := s.freeIdx + 160 }) ∧
      (s.portUp p = false ∨ s.rd F.MON_LINKSEC_STATE p ≠ 2 ∨ k.initiator = false → exec (.linkRekey p) s = .next s))
  ) ∧
  (
  ∀ (s : State) (p : Nat) (k : LinkSec), Quiet s → p < 144 → s.linkSec p = some k →
    (∀ f, (s.port p).ident = some f → s.portUp p = true → k.txCount ≠ 0 →
      ∃ t, exec (.recordClose p) s = .next t ∧
        t.linkSec p = some { k with txRec := k.txRec + 1, txCount := 0, txXor := List.replicate 16 0 } ∧
        (∃ g, t.ni.queue = s.ni.queue ++ [g] ∧ g.port = some p ∧ g.pkt.dst = f.eid ∧ g.pkt.addr = 0xFFFFFFFFFE00 ∧
          g.pkt.payload = leBytes 8 k.txRec ++ leBytes 8 k.txCount ++ k.txXor) ∧
        t = { s with klp := t.klp, ni := t.ni }) ∧
    (s.portUp p = false ∨ k.txCount = 0 → exec (.recordClose p) s = .next s) ∧
    (∀ (slot : List Byte) (x : List Byte × List Byte × Nat), k.initiator = false →
      (k.txKeys = some x → k.txNext = none →
        let mac := Config.gcmTag x.1 (x.2.1 ++ leBytes 8 (k.txSent - x.2.2)) (slot.take 3) (slot.drop 3)
        let sum := k.txXor.zipWith (· ^^^ ·) mac
        (k.txCount < 255 → (countTxUnit p slot s).linkSec p =
          some { k with txSent := k.txSent + 1, txCount := k.txCount + 1, txXor := sum }) ∧
        (255 ≤ k.txCount → (countTxUnit p slot s).linkSec p =
          some { k with txSent := k.txSent + 1, txRec := k.txRec + 1, txCount := 0, txXor := List.replicate 16 0 })) ∧
      (k.rxKeys = some x → k.rxNext = none →
        let mac := Config.gcmTag x.1 (x.2.1 ++ leBytes 8 (k.rxGot - x.2.2)) (slot.take 3) (slot.drop 3)
        (countRxUnit p slot s).linkSec p = some { k with rxGot := k.rxGot + 1, rxTags := k.rxTags ++ [mac] })) ∧
    (s.portUp p = false ∨ k.keyed = false ∨ k.unchecked.2 = [] → exec (.linktagTimeout p) s = .next s) ∧
    (s.portUp p = true → k.keyed = true → k.unchecked.2 ≠ [] → (s.port p).forced = false → stickyBit s (432 + p) = false →
      effSev s (432 + p) ≤ 1 → ∃ t, exec (.linktagTimeout p) s = .next t ∧ t.portUp p = false ∧
        t.linkSec p = some { k with secret := [], slot := none, txKeys := none, rxKeys := none } ∧
        stickyBit t (432 + p) = true ∧
        t.rd F.MON_LINKAUTH_CNT_COUNT p = min (s.rd F.MON_LINKAUTH_CNT_COUNT p + 1) (2 ^ F.MON_LINKAUTH_CNT_COUNT.w - 1)) ∧
    (∀ a, a.port = p → isFunction a.pkt 0xFFFFFFFFFE00 = true → fromFar s a = true → a.pkt.len = 2 →
      let n := field a.pkt.payload 8 8
      let r := k.unchecked.1
      let tags := k.unchecked.2
      let agrees := field a.pkt.payload 0 8 = r ∧ 1 ≤ n ∧ n ≤ tags.length ∧
        (tags.take n).foldl (fun x y => x.zipWith (· ^^^ ·) y) (List.replicate 16 0) = (a.pkt.payload.drop 16).take 16
      (k.rxOld = none → r = k.rxRec ∧ tags = k.rxTags) ∧
      (k.keyed = false → ∃ t, exec (.linktag a) s = .next t ∧ t.linkSec p = some k) ∧
      (k.keyed = true → agrees → ∃ t, exec (.linktag a) s = .next t ∧ t.portUp p = s.portUp p ∧
        (k.rxOld = none → t.linkSec p = some { k with rxRec := r + 1, rxTags := tags.drop n }) ∧
        (k.rxOld ≠ none → n < tags.length → t.linkSec p = some { k with rxOld := some (r + 1, tags.drop n) }) ∧
        (k.rxOld ≠ none → n = tags.length → t.linkSec p = some { k with rxOld := none })) ∧
      (k.keyed = true → ¬ agrees → stickyBit s (432 + p) = false → effSev s (432 + p) ≤ 1 →
        ∃ t, exec (.linktag a) s = .next t ∧ t.portUp p = (s.portUp p && (s.port p).forced) ∧
          t.linkSec p = some { k with secret := [], slot := none, txKeys := none, rxKeys := none } ∧
          stickyBit t (432 + p) = true))
  )

/-- R433, R434: the responder answers each request while the firmware runs and in its order of exchange; a request out of
order gets an ERROR, each answer joins the transcript, and CHALLENGE_AUTH and MEASUREMENTS are signed by
the FW key over it (nonces are free, log entry 5; the algorithms' results are log entry 50).  The request and response codes
are those of DSP0274, log entry 49. -/
def Obligations.AttestationMessages : Prop :=
  ∀ (s : State), Quiet s →
    let k := s.klp
    let block (i : Nat) : List Byte := leBytes 1 i ++ [1] ++ leBytes 2 51 ++
      [if i = 2 ∨ i = 3 then 1 else if i = 1 then 2 else 3] ++ leBytes 2 48 ++ measurement s i
    let refused (e : Nat) : State := { s with klp := { k with answer := some ⟨0x7F, leBytes 1 e⟩ } }
    (k.mode ≠ .running → ∀ (b : Byte) (nonce : List Byte), exec .getVersion s = .next s ∧ exec .getCapabilities s = .next s ∧
      exec .negotiateAlgorithms s = .next s ∧ exec .getDigests s = .next s ∧ exec (.getCertificate b) s = .next s ∧
      exec (.challenge b nonce) s = .next s ∧ exec (.getMeasurements b nonce) s = .next s ∧
      exec .vendorMlDsaSignature s = .next s) ∧
    (k.mode = .running →
      exec .getVersion s = .next { s with klp := { k with spdm := 1, transcript := [0x84, 0x04] ++ leBytes 2 0x1300,
                                                          answer := some ⟨4, leBytes 2 0x1300⟩ } } ∧
      (k.spdm < 1 → exec .getCapabilities s = .next (refused 4)) ∧
      (1 ≤ k.spdm →
        let free (i n : Nat) := (List.range n).map fun j => Config.freeByte (s.freeIdx + i + j)
        let body := leBytes 3 0 ++ free 0 1 ++ leBytes 2 0 ++ leBytes 4 0x36 ++ free 1 8
        exec .getCapabilities s = .next { s with freeIdx := s.freeIdx + 9, klp := { k with
          spdm := max 2 k.spdm, answer := some ⟨0x61, body⟩, transcript := k.transcript ++ [0xE1] ++ [0x61] ++ body } }) ∧
      (k.spdm < 2 → exec .negotiateAlgorithms s = .next (refused 4)) ∧
      (2 ≤ k.spdm →
        let body := leBytes 2 0 ++ leBytes 2 36 ++ leBytes 2 1 ++ leBytes 4 4 ++ leBytes 4 0x80 ++ leBytes 4 2 ++ leBytes 16 0
        exec .negotiateAlgorithms s = .next { s with klp := { k with
          spdm := 3, answer := some ⟨0x63, body⟩, transcript := k.transcript ++ [0xE3] ++ [0x63] ++ body } }) ∧
      (∀ (b : Byte) (nonce : List Byte),
        (k.spdm < 3 → exec .getDigests s = .next (refused 4) ∧ exec (.getCertificate b) s = .next (refused 4) ∧
          exec (.challenge b nonce) s = .next (refused 4) ∧ exec (.getMeasurements b nonce) s = .next (refused 4) ∧
          exec .vendorMlDsaSignature s = .next (refused 4)) ∧
        (3 ≤ k.spdm → b ≠ 0 → exec (.getCertificate b) s = .next (refused 1) ∧
          (s.cryptoErr = false → exec (.challenge b nonce) s = .next (refused 1))) ∧
        (3 ≤ k.spdm → s.cryptoErr = true → exec .getDigests s = .next (refused 5) ∧
          exec (.challenge b nonce) s = .next (refused 5) ∧ exec (.getMeasurements b nonce) s = .next (refused 5) ∧
          exec .vendorMlDsaSignature s = .next (refused 5)) ∧
        (3 ≤ k.spdm → s.cryptoErr = false → 8 ≤ b.toNat → b ≠ 255 → exec (.getMeasurements b nonce) s = .next (refused 1)) ∧
        (3 ≤ k.spdm → s.cryptoErr = false → b.toNat < 8 ∨ b = 255 → ∃ t, exec (.getMeasurements b nonce) s = .next t ∧
          (∃ r, t.klp.answer = some r ∧ r.code = 0x60 ∧ ∃ n, some ((List.range 32).map fun i => Config.freeByte
              (s.freeIdx + i)) = some n ∧
            (b = 0 → t.klp.transcript = k.transcript ++ ([0xE0, b] ++ nonce) ++ [0x60] ++ ([7] ++ n)) ∧
            (1 ≤ b.toNat → b.toNat < 8 → t.klp.transcript = k.transcript ++ ([0xE0, b] ++ nonce) ++ [0x60] ++
              (block b.toNat ++ n)) ∧
            (b = 255 → t.klp.transcript = k.transcript ++ ([0xE0, b] ++ nonce) ++ [0x60] ++
              ([1, 2, 3, 4, 5, 6, 7].flatMap block ++ n)) ∧
            k.transcript ++ ([0xE0, b] ++ nonce) ++ [0x60] ++ r.body =
              t.klp.transcript ++ Config.ecdsaSign (idOf s 2).ecdsa.1 t.klp.transcript) ∧
          t = { s with klp := { k with transcript := t.klp.transcript, answer := t.klp.answer }, freeIdx := s.freeIdx + 32 })) ∧
      (3 ≤ k.spdm →
        let chain := certChain s
        let joined := k.transcript ++ [0x82, 0, 0x02] ++ chain
        exec (.getCertificate 0) s = .next { s with klp := { k with spdm := 3, answer := some ⟨2, chain⟩, transcript := joined } }) ∧
      (3 ≤ k.spdm → s.cryptoErr = false → ∀ nonce : List Byte,
        let dig := digestOf (certChain s)
        let sig := Config.mldsaSign (idOf s 2).mldsa.1 k.transcript
        let answered (h b : List Byte) (c : Nat) : State :=
          { s with klp := { k with spdm := 3, answer := some ⟨c, b⟩, transcript := k.transcript ++ h ++ leBytes 1 c ++ b } }
        exec .getDigests s = .next (answered [0x81] dig 1) ∧
        exec .vendorMlDsaSignature s = .next { s with klp := { k with answer := some ⟨0x7E, sig⟩ } } ∧
        (∃ t, exec (.challenge 0 nonce) s = .next t ∧
          t.klp.transcript = k.transcript ++ ([0x83, 0] ++ nonce) ++ [0x03] ++ (digestOf (certChain s) ++
            ((List.range 32).map fun i => Config.freeByte (s.freeIdx + i)) ++
            digestOf ([1, 2, 3, 4, 5, 6, 7].flatMap (measurement s))) ∧
          (∃ r, t.klp.answer = some r ∧ r.code = 3 ∧ k.transcript ++ ([0x83, 0] ++ nonce) ++ [0x03] ++ r.body =
            t.klp.transcript ++ Config.ecdsaSign (idOf s 2).ecdsa.1 t.klp.transcript) ∧
          t = { s with klp := { k with transcript := t.klp.transcript, answer := t.klp.answer }, freeIdx := s.freeIdx + 32 })))


/-! ## The tray (spec/14, spec/17) -/
/-- R447: a twin entry lapses.  R450 to R452: every 10 ms the holder sends RENEW with LSER one higher and a claimant CLAIM;
50 ms without a heartbeat start a claim, which ends in holding with the next claim number; in claim mode the holder
sends KEEPALIVE and the wait ends in holding at once.  A good RENEW withdraws a claim, and a higher claim number ends
holding (LOST); a good CLAIM withdraws that of the module that acts as B.  A frame that fails its CRC or has
another type does nothing. -/
def Obligations.LeashAndClaims : Prop :=
  ∀ (s : State), Quiet s →
    let y := s.tray
    (∀ src win, exec (.twinEntryExpiry src win) s = .next { s with ni := { s.ni with
      twins := s.ni.twins.filter fun e => !(e.src == src && e.win == win) } }) ∧
    (∀ f : LeashFrame,
      (leashGood f = false ∨ f.typ ≠ 1 → exec (.renew f) s = .next s) ∧
      (leashGood f = false ∨ f.typ ≠ 2 → exec (.claim f) s = .next s) ∧
      (leashGood f = true → f.mode = claimMode s → f.posa ≠ y.strapA →
        let noted := noteClaim f.claim s
        (f.typ = 1 → claimMode s = true → exec (.renew f) s = .next noted) ∧
        (f.typ = 1 → claimMode s = false → y.holder = false → exec (.renew f) s =
          .next { noted with tray := { noted.tray with claiming := false } }) ∧
        (f.typ = 1 → claimMode s = false → y.holder = true → y.mate = none → above f.claim y.claim = true →
          ∃ t, exec (.renew f) s = .next t ∧ t.tray = { noted.tray with claiming := false, holder := false } ∧
            t.rd F.TWN_LSTS_LOST = 1 ∧ t.tcl = { s.tcl with queue := [] } ∧
            t = { s with tray := t.tray, tcl := t.tcl, csr := t.csr }) ∧
        (f.typ = 1 → claimMode s = false → y.holder = true → above f.claim y.claim = false → exec (.renew f) s =
          .next { noted with tray := { noted.tray with claiming := false } }) ∧
        (f.typ = 2 → claimMode s = false → y.claiming = true → exec (.claim f) s = .next
          (if actsA s then noted else { noted with tray := { noted.tray with claiming := false } })) ∧
        (f.typ = 2 → claimMode s = true ∨ y.claiming = false → exec (.claim f) s = .next noted)) ∧
      (leashGood f = true → f.typ = 1 → f.mode ≠ claimMode s → f.posa ≠ y.strapA → claimMode s = true →
        stickyBit s 726 = false → effSev s 726 ≤ 1 → ∃ t, exec (.renew f) s = .next t ∧ t.rd F.TWN_LSTS_MODEMIS = 1 ∧
          stickyBit t 726 = true ∧ t.tray.holder = y.holder)) ∧
    (∀ v : W16, (noteClaim v s).tray = { y with highC := some (match y.highC with
        | some h => if 1 ≤ (v - h).toNat ∧ (v - h).toNat ≤ 32767 then v else h
        | none => v) }) ∧
    (claimMode s = false →
      (y.holder = true → ∃ t, exec .heartbeatSend s = .next t ∧ t.tray.lser = y.lser + 1 ∧
        (∃ f, t.tray.leashOut = some f ∧ f.typ = 1 ∧ f.lser = y.lser + 1 ∧ f.claim = y.claim ∧ f.posa = y.strapA ∧
          f.mode = false ∧ leashGood f = true) ∧ t = { s with tray := t.tray }) ∧
      (y.holder = false → y.claiming = true → ∃ t, exec .heartbeatSend s = .next t ∧
        (∃ f, t.tray.leashOut = some f ∧ f.typ = 2 ∧ f.claim = y.claim ∧ f.lser = y.lser ∧ leashGood f = true) ∧
        t = { s with tray := { y with leashOut := t.tray.leashOut } }) ∧
      (y.holder = false → y.claiming = false → exec .heartbeatSend s = .next s)) ∧
    (claimMode s = true → y.holder = true → s.tcl.phase = .idle → s.tcl.queue = [] → ∃ t,
      exec .heartbeatSend s = .next t ∧
      t.tcl = ⟨.start, [127, 3, if y.strapA then 1 else 0, 0, 0, s.tcl.tseq, 0, 0, 0], 0, true, s.tcl.out, [], s.tcl.tseq + 1⟩ ∧
      t = { s with tcl := t.tcl }) ∧
    (claimMode s = true → y.holder = false ∨ s.tcl.phase ≠ .idle → exec .heartbeatSend s = .next s) ∧
    (y.holder = true ∨ y.claiming = true ∨ s.rd F.TWN_LCTL_ENABLE = 0 → exec .heartbeatTimeout s = .next s) ∧
    (y.holder = false → y.claiming = false → s.rd F.TWN_LCTL_ENABLE = 1 →
      let c := newClaim s
      (claimMode s = false → ∃ t, exec .heartbeatTimeout s = .next t ∧ t.tray.claiming = true ∧ t.tray.claim = c ∧
        (∃ f, t.tray.leashOut = some f ∧ f.typ = 2 ∧ f.claim = c) ∧
        t = { s with tray := { y with claiming := true, claim := c, leashOut := t.tray.leashOut } }) ∧
      (claimMode s = true → ∃ t, exec .heartbeatTimeout s = .next t ∧ t.tray = { y with holder := true, claim := c } ∧
        t.rd F.TWN_LSTS_TOOK = 1)) ∧
    newClaim s = BitVec.ofNat 16 (2 * ((y.highC.getD 0).toNat / 2 + 1) + if actsA s then 1 else 0) ∧
    (y.claiming = true → ∃ t, exec .claimComplete s = .next t ∧ t.tray = { y with holder := true, claiming := false } ∧
      t.rd F.TWN_LSTS_TOOK = 1 ∧
      t.rd F.TWN_TAKE_CNT_COUNT = min (s.rd F.TWN_TAKE_CNT_COUNT + 1) (2 ^ F.TWN_TAKE_CNT_COUNT.w - 1) ∧
      t = { s with tray := t.tray, csr := t.csr, samp := t.samp, freeIdx := t.freeIdx }) ∧
    (y.claiming = false → exec .claimComplete s = .next s)

/-- R453, R454, R456, R457: a MATE message of the tray-mate is acknowledged, kept as the shadow whose outputs a module that
does not hold shows, and with YIELD hands the tray over.  YIELD needs a tray-mate that is seen and a holder.  ENABLE off
withdraws a claim; MODE locks at the first epoch flip.  A resynchronisation starts for a mirrored page that is not stale, and
a resync complete of the tray-mate stores its generation in the page's entry. -/
def Obligations.MateAndResync : Prop :=
  ∀ (s : State), Quiet s →
    let y := s.tray
    (∀ a : Arrival,
      let u := takeArrival a s
      let b := a.pkt.payload
      (isFunction a.pkt 0xFFFFFFFFFB00 = false → exec (.mate a) s = .next s) ∧
      (isFunction a.pkt 0xFFFFFFFFFC00 = false → exec (.resyncComplete a) s = .next s) ∧
      (isFunction a.pkt 0xFFFFFFFFFB00 = true →
        (fromTrayMate s a = false → exec (.mate a) s = .next (sendErr a.pkt Code.protection u)) ∧
        (fromTrayMate s a = true → a.pkt.len ≠ 4 → exec (.mate a) s = .next (sendErr a.pkt Code.badDescriptor u)) ∧
        (fromTrayMate s a = true → a.pkt.len = 4 → ∃ t, exec (.mate a) s = .next t ∧ t.rd F.TWN_LSTS_MATESEEN = 1 ∧
          t.tray.mate = some ⟨field b 0 2, BitVec.ofNat 16 (field b 2 2), field b 4 4, BitVec.ofNat 32 (field b 8 4),
            BitVec.ofNat 32 (field b 12 4), BitVec.ofNat 64 (field b 16 8)⟩ ∧
          (y.holder = false → t.rd F.PWR_GPIO_VAL = field b 8 4 % 2 ^ F.PWR_GPIO_VAL.w ∧
            t.rd F.PWR_TRAYRAIL_EN = field b 12 4 % 2 ^ F.PWR_TRAYRAIL_EN.w) ∧
          (y.holder = true → t.rd F.PWR_GPIO_VAL = s.rd F.PWR_GPIO_VAL) ∧
          t.tray.holder = (y.holder || bit (field b 0 2) 1) ∧
          t.tray.claim = (if y.holder = false ∧ bit (field b 0 2) 1 = true then newClaim s else y.claim) ∧
          (s.spg.active.version < field b 4 4 → t.rd F.TWN_LSTS_SPGSTALE = 1) ∧
          (s.spg.active.version = field b 4 4 → t.rd F.TWN_LSTS_SPGSTALE = 0))) ∧
      (isFunction a.pkt 0xFFFFFFFFFC00 = true →
        (fromTrayMate s a = false → exec (.resyncComplete a) s = .next (sendErr a.pkt Code.protection u)) ∧
        (fromTrayMate s a = true → a.pkt.len ≠ 2 → exec (.resyncComplete a) s = .next (sendErr a.pkt Code.badDescriptor u)) ∧
        (fromTrayMate s a = true → a.pkt.len = 2 →
          (resyncPage s b = none → exec (.resyncComplete a) s = .next (sendErr a.pkt Code.protection u)) ∧
          (∀ k page e, resyncPage s b = some (k, page, e) → exec (.resyncComplete a) s =
            .next (sendAck a.pkt (setEntry k page (e % 2 ^ 32 + field b 16 4 * 2 ^ 32) u)))))) ∧
    (∀ p, trayPort s = some p → s.self ≠ 0xFFFF → ∃ t, exec .mateSend s = .next t ∧ t.tray = { y with mseq := y.mseq + 1 } ∧
      (∃ g, t.ni.queue = s.ni.queue ++ [g] ∧ g.port = some p ∧ g.pkt.addr = 0xFFFFFFFFFB00 ∧
        g.pkt.dst = BitVec.ofNat 16 (mateEid s) ∧ g.pkt.len = 4 ∧ field g.pkt.payload 0 2 % 4 = (if y.holder then 1 else 0) ∧
        field g.pkt.payload 4 4 = s.spg.active.version % 2 ^ 32 ∧ field g.pkt.payload 16 8 = y.mseq.toNat) ∧
      t = { s with tray := t.tray, ni := t.ni }) ∧
    (trayPort s = none → exec .mateSend s = .next s) ∧
    exec .mateseenExpiry s = .next (s.wr F.TWN_LSTS_MATESEEN 0) ∧
    (trayPort s = none ∨ s.rd F.TWN_LSTS_MATESEEN = 0 ∨ y.holder = false →
      exec .yield s = .next (s.wr F.TWN_LSTS_YIELDFAIL 1)) ∧
    (∀ p, trayPort s = some p → s.self ≠ 0xFFFF → s.rd F.TWN_LSTS_MATESEEN = 1 → y.holder = true →
      ∃ t, exec .yield s = .next t ∧ t.tray = { y with holder := false, mseq := y.mseq + 1 } ∧
        (∃ g, t.ni.queue = s.ni.queue ++ [g] ∧ g.port = some p ∧ field g.pkt.payload 0 2 % 4 = 3) ∧
        t.tcl = { s.tcl with queue := [] }) ∧
    exec (.claimEnable true) s = .next (s.wr F.TWN_LCTL_ENABLE 1) ∧
    exec (.claimEnable false) s = .next { s.wr F.TWN_LCTL_ENABLE 0 with tray := { y with claiming := false } } ∧
    (∀ v, s.spg.plan = true → exec (.leashMode v) s = .next s) ∧
    (s.spg.plan = false → exec (.leashMode false) s = .next (s.wr F.TWN_LCTL_MODE 0) ∧ exec (.leashMode true) s =
      .next { s.wr F.TWN_LCTL_MODE 1 with tray := { y with leashOut := none, claiming := false } }) ∧
    (y.resync ≠ none → exec .resyncGo s = .next s) ∧
    (y.resync = none →
      let k := s.rd F.TWN_RSYNC_KENNEL
      let page := s.rd F.TWN_RSYNC_VA_PAGE
      let e := (pageEntry s k page).getD 0
      let able := (s.kennel k).live = true ∧ Pte.v e = true ∧ Pte.m e = true ∧ Pte.stale e = false
      (¬ able → exec .resyncGo s = .next (s.wr F.TWN_RSYNC_FAIL 1)) ∧
      (able → ∃ t, exec .resyncGo s = .next t ∧ t.tray.resyncs = y.resyncs + 1 ∧
        (∃ r, t.tray.resync = some r ∧ r.k = k ∧ r.page = page ∧ r.id = y.resyncs) ∧ t.knl = s.knl ∧
        t.pool.mem = s.pool.mem))


/-! ## The Tray Control Link and the tray outputs (spec/17) -/
/-- R497 to R499: GO takes the frame of TCL_TXBUF when no transaction is in progress, its length is 9 to 73 bytes and, for a
command frame, this module holds.  The frame leaves with this module's claim number and CRC, or collides; without an
answer in time it is sent at most three times; a broadcast takes none.  A good answer to the frame under way
goes into TCL_RXBUF and ends the transaction, one that fails its CRC is counted, any other is ignored; a REJECT ends
holding.  R449: a command frame of the tray-mate with a higher claim number ends holding.
R501, R502: the holder's writes of PWR_GPIO and PWR_TRAYRAIL take effect and a module that does not hold keeps
what it has; the output enables are always written.  R453: a change of the holder's tray outputs sends the tray-mate a MATE
message.  A changed enable sends a WRITE to the power switch that the power map gives it. -/
def Obligations.TrayControl : Prop :=
  (
  ∀ (s : State), Quiet s →
    let y := s.tcl
    let n := s.rd F.TCL_CMD_BYTES
    let b := ((List.range 19).flatMap fun w => leBytes 4 (s.rd F.TCL_TXBUF_WORD w)).take n
    let count (t : State) : Prop := t.rd F.TCL_ERR_CNT_COUNT = min (s.rd F.TCL_ERR_CNT_COUNT + 1) (2 ^ F.TCL_ERR_CNT_COUNT.w - 1)
    let command (l : List Byte) := l.getD 1 0 = 1 ∨ l.getD 1 0 = 3
    (∀ v, exec (.tclBytes v) s = .next (s.wr F.TCL_CMD_BYTES v.toNat)) ∧
    (y.phase = .idle → 9 ≤ n → n ≤ 73 → (command b → s.tray.holder = true) → exec .tclGo s = .next
      { s with tcl := { y with phase := .start, bytes := b, sends := 0, auto := false } }) ∧
    (y.phase ≠ .idle ∨ n < 9 ∨ 73 < n ∨ (command b ∧ s.tray.holder = false) → exec .tclGo s = .next s) ∧
    (∀ coll, y.phase ≠ .start → exec (.tclFrameStart coll) s = .next s) ∧
    (y.phase = .start → (command y.bytes → s.tray.holder = true) → 5 ≤ y.bytes.length →
      let f := y.bytes.take 3 ++ leBytes 2 s.tray.claim.toNat ++ y.bytes.drop 5
      let out := [0xA5] ++ f ++ leBytes 2 (tclCrc f)
      (∃ t, exec (.tclFrameStart true) s = .next t ∧ t.tcl = { y with bytes := f, out := out, phase := .backoff } ∧
        t.rd F.TCL_STS_COLL = 1 ∧ count t) ∧
      (field y.bytes 0 1 % 128 ≠ 127 → exec (.tclFrameStart false) s = .next
        { s with tcl := { y with bytes := f, out := out, phase := .answer, sends := y.sends + 1 } }) ∧
      (field y.bytes 0 1 % 128 = 127 → y.queue = [] → exec (.tclFrameStart false) s = .next
        { s with tcl := { y with bytes := [], out := out, phase := .idle, auto := false } })) ∧
    (y.phase = .start → command y.bytes → s.tray.holder = false → y.queue = [] → ∀ coll,
      exec (.tclFrameStart coll) s = .next { s with tcl := { y with bytes := [], phase := .idle, auto := false } }) ∧
    (y.phase = .backoff → exec .tclBackoffEnd s = .next { s with tcl := { y with phase := .start } }) ∧
    (y.phase ≠ .backoff → exec .tclBackoffEnd s = .next s) ∧
    (y.phase = .answer → y.sends < 3 → exec .tclAnswerTimeout s = .next { s with tcl := { y with phase := .start } }) ∧
    (y.phase = .answer → 3 ≤ y.sends → y.queue = [] → ∃ t, exec .tclAnswerTimeout s = .next t ∧ t.rd F.TCL_STS_TMO = 1 ∧
      count t ∧ t.tcl = { y with phase := .idle, bytes := [], auto := false }) ∧
    (∀ (m : Nat) (f : TclFrame), m < 4 →
      let o := if m = 0 then exec (.tclAck f) s else if m = 1 then exec (.tclData f) s
        else if m = 2 then exec (.tclReject f) s else exec (.tclError f) s
      let ours := f.typ.toNat = 0x11 + m ∧ f.addr.toNat = 128 + field y.bytes 0 1 % 128 ∧ f.tseq.toNat = field y.bytes 5 1
      (y.phase ≠ .answer → exec .tclAnswerTimeout s = .next s ∧ o = .next s) ∧
      (y.phase = .answer → tclGood f = false → ∃ t, o = .next t ∧ count t ∧ t.tcl = y) ∧
      (y.phase = .answer → tclGood f = true → ¬ ours → o = .next s) ∧
      (y.phase = .answer → tclGood f = true → ours → y.queue = [] → ∃ t, o = .next t ∧ t.rd F.TCL_STS_DONE = 1 ∧
        t.tcl = { y with phase := .idle, bytes := [], auto := false } ∧
        (∀ w, w < 19 → t.rd F.TCL_RXBUF_WORD w = field (tclBody f) (4 * w) 4) ∧
        (m ≠ 2 → t.tray = s.tray) ∧
        (m = 2 → t.rd F.TCL_STS_REJ = 1 ∧ t.tray.holder = false ∧ (s.tray.holder = true → t.rd F.TWN_LSTS_LOST = 1) ∧
          t.rd F.TCL_REJ_CNT_COUNT = min (s.rd F.TCL_REJ_CNT_COUNT + 1) (2 ^ F.TCL_REJ_CNT_COUNT.w - 1)))) ∧
    (∀ f : TclFrame,
      (tclGood f = false → ∃ t, exec (.traymateTclFrame f) s = .next t ∧ count t ∧ t.tray = s.tray) ∧
      (tclGood f = true → 128 ≤ f.addr.toNat ∨ (f.typ ≠ 1 ∧ f.typ ≠ 3) → exec (.traymateTclFrame f) s = .next s) ∧
      (tclGood f = true → f.addr.toNat < 128 → f.typ = 1 ∨ f.typ = 3 → f.src.getLsbD 0 ≠ s.tray.strapA →
        (s.tray.holder = false ∨ above f.claim s.tray.claim = false →
          exec (.traymateTclFrame f) s = .next (noteClaim f.claim s)) ∧
        (s.tray.holder = true → above f.claim s.tray.claim = true → ∃ t, exec (.traymateTclFrame f) s = .next t ∧
          t.tray = { (noteClaim f.claim s).tray with holder := false } ∧ t.rd F.TWN_LSTS_LOST = 1)))
  ) ∧
  (
  ∀ (s : State), Quiet s →
    let told (p : Nat) (t : State) : Prop := t.tray = { s.tray with mseq := s.tray.mseq + 1 } ∧
      ∃ g, t.ni.queue = s.ni.queue ++ [g] ∧ g.port = some p ∧ g.pkt.addr = 0xFFFFFFFFFB00 ∧
        field g.pkt.payload 8 4 = t.rd F.PWR_GPIO_VAL % 2 ^ 32 ∧ field g.pkt.payload 12 4 = t.rd F.PWR_TRAYRAIL_EN % 2 ^ 32
    (∀ (oe : Bool) (v : W32), oe = true ∨ s.tray.holder = true →
      let f := if oe then F.PWR_GPIOOE_OE else F.PWR_GPIO_VAL
      (s.rd f = v.toNat ∨ s.tray.holder = false ∨ trayPort s = none ∨ s.self = 0xFFFF →
        exec (.pwrGpioWrite oe v) s = .next (s.wr f v.toNat)) ∧
      (∀ p, s.rd f ≠ v.toNat → s.tray.holder = true → trayPort s = some p → s.self ≠ 0xFFFF →
        ∃ t, exec (.pwrGpioWrite oe v) s = .next t ∧ t.rd f = v.toNat ∧ told p t ∧
          t = { s with csr := t.csr, tray := t.tray, ni := t.ni })) ∧
    (∀ v, s.tray.holder = false → exec (.pwrGpioWrite false v) s = .next s ∧ exec (.trayrailWrite (v.setWidth 16)) s = .next s) ∧
    (∀ v : W16, s.tray.holder = true →
      ((∀ k, k < 16 → bit (s.rd F.PWR_TRAYRAIL_EN) k ≠ bit v.toNat k → (powerMap s k).1 = 0) →
        (s.rd F.PWR_TRAYRAIL_EN = v.toNat ∨ trayPort s = none ∨ s.self = 0xFFFF →
          exec (.trayrailWrite v) s = .next (s.wr F.PWR_TRAYRAIL_EN v.toNat)) ∧
        (∀ p, s.rd F.PWR_TRAYRAIL_EN ≠ v.toNat → trayPort s = some p → s.self ≠ 0xFFFF →
          ∃ t, exec (.trayrailWrite v) s = .next t ∧ t.rd F.PWR_TRAYRAIL_EN = v.toNat ∧ told p t ∧
            t = { s with csr := t.csr, tray := t.tray, ni := t.ni })) ∧
      (∀ k, k < 16 → bit (s.rd F.PWR_TRAYRAIL_EN) k ≠ bit v.toNat k → 1 ≤ (powerMap s k).1 → (powerMap s k).1 ≤ 8 →
        (powerMap s k).2 < 16 → (∀ j, j < 16 → j ≠ k → (powerMap s j).1 = 0) → s.tcl.phase = .idle → s.tcl.queue = [] →
        let w := if bit v.toNat k then 2 ^ (powerMap s k).2 else 0
        ∃ t, exec (.trayrailWrite v) s = .next t ∧ t.rd F.PWR_TRAYRAIL_EN = v.toNat ∧ t.tcl.phase = .start ∧
          t.tcl.bytes = [BitVec.ofNat 8 (powerMap s k).1, 1, if s.tray.strapA then 1 else 0, 0, 0, s.tcl.tseq, 2, 0, 1] ++
            leBytes 2 w ∧
          (trayPort s = none ∨ s.self = 0xFFFF → t.tray = s.tray ∧ t.ni = s.ni) ∧
          (∀ p, trayPort s = some p → s.self ≠ 0xFFFF → told p t) ∧
          t = { s with csr := t.csr, tcl := t.tcl, tray := t.tray, ni := t.ni }))
  )


/-! ## Power (spec/16) -/
/-- R481, R482, R485: when SUPPLY_OK rises in the off state the straps are sampled and the IO rail is enabled; a rail that
becomes good enables the next in order, the KLP rail releases the reset, the last of the late sequence leads to the
training of the stacks, and a stack that does not train raises its source.  The fabric die's reset is released once SDS and
SDH are good and the compute die's once the HBM rails are; until then a command of that die does nothing.  UP starts the late
sequence, or waits for the 50 ms; in another state it is refused. -/
def Obligations.PowerUp : Prop :=
  ∀ (s : State), s.hnd.todo = [] →
    let q := s.pwr
    let good (r : Nat) : State := { s with pwr := { q with wasGood := setBit q.wasGood r } }.wr F.PWR_RAILSTS_GOOD
      (setBit (s.rd F.PWR_RAILSTS_GOOD) r)
    (∀ p t_ : Bool,
      (q.supply = true → exec (.supplyOkRise p t_) s = .next s) ∧
      (q.supply = false → q.seq = .wait → exec (.supplyOkRise p t_) s = .next
        { s with pwr := { q with supply := true, posaPin := p, testPin := t_, wait50 := true } }) ∧
      (q.supply = false → q.seq = .off → ∃ t, exec (.supplyOkRise p t_) s = .next t ∧ t.pwr.seq = .early ∧
        t.pwr.enabled = setBit q.enabled 2 ∧ t.tray.strapA = p ∧ t.tray.strapTest = (t_ && decide (s.klp.lcs ≤ 1)) ∧
        t = { s with pwr := t.pwr, tray := t.tray })) ∧
    (∀ r, r < 13 →
      (bit q.enabled r = false → exec (.railGood r) s = .next s) ∧
      (bit q.enabled r = true → topRail s ≠ r → exec (.railGood r) s = .next (good r)) ∧
      (bit q.enabled r = true → topRail s = r →
        (q.seq = .early → r = 2 → exec (.railGood r) s = .next (enableRail 3 (good r))) ∧
        (q.seq = .early → r = 3 → exec (.railGood r) s = .next (releaseReset (good r))) ∧
        (q.seq = .late →
          let u := if r = 6 then { good r with pwr := { (good r).pwr with fabReset := false } } else good r
          (r < lastRail s → exec (.railGood r) s = .next (enableRail (r + 1) u)) ∧
          (lastRail s ≤ r → s.part ≠ .s → exec (.railGood r) s = .next
            { u with pwr := { u.pwr with seq := .train, cmpReset := false } }) ∧
          (lastRail s ≤ r → s.part = .s → exec (.railGood r) s = .next
            ({ u with pwr := { u.pwr with seq := .run } }.wr F.PWR_STS_STATE 2))))) ∧
    (q.fabReset = true → (∀ p, p < 144 → exec (.portBringup p) s = .next s) ∧
      (∀ k n, k < 4096 → exec (.bcast k n) s = .next s ∧ exec (.commandComplete k n 0) s = .next s) ∧
      ∀ a, exec (.poolRead a) s = .next s ∧ exec (.tailWrite a) s = .next s) ∧
    (q.cmpReset = true → s.part ≠ .s → (∀ c, c < 32 → exec (.programLoadDone c) s = .next s) ∧ (∀ n, exec (.programStart n) s = .next s) ∧
      ∀ l, exec (.patrolScrubStep l) s = .next s) ∧
    ((lastRail s = if s.part = .s then 6 else 12) ∧ (∀ r, (enableRail r s).pwr.enabled = setBit q.enabled r)) ∧
    (∀ m : Byte, q.seq ≠ .train → exec (.stacksTrained m) s = .next s) ∧
    (q.seq = .train → (∃ t, exec (.stacksTrained 0xFF) s = .next t ∧ t.pwr.seq = .run ∧ t.rd F.PWR_STS_STATE = 2 ∧
        t.rd F.POL_STS_STKUP = 0xFF ∧ t = { s with pwr := t.pwr, csr := t.csr }) ∧
      (stickyBit s 713 = false → effSev s 713 ≤ 4 → s.part ≠ .s → ∃ t, exec (.stacksTrained 0xFD) s = .next t ∧
        t.rd F.POL_STS_STKUP = 0xFD ∧ stickyBit t 713 = true ∧ t.pwr.seq = .run)) ∧
    (s.sealed' = false →
      (q.seq = .off ∨ q.seq = .wait ∨ q.seq = .early → exec .powerUp s = .next s) ∧
      (q.seq = .run → s.rd F.PWR_STS_STATE ≠ 0 → exec .powerUp s = .next (s.wr F.PWR_STS_UPREF 1)) ∧
      (q.seq = .run → s.rd F.PWR_STS_STATE = 0 → q.wait50 = true →
        exec .powerUp s = .next { s with pwr := { q with upWaits := true } }) ∧
      (q.seq = .run → s.rd F.PWR_STS_STATE = 0 → q.wait50 = false → ∃ t, exec .powerUp s = .next t ∧ t.pwr.seq = .late ∧
        t.pwr.enabled = setBit q.enabled 4 ∧ t.rd F.PWR_STS_STATE = 1 ∧ t = { s with pwr := t.pwr, csr := t.csr })) ∧
    (q.wait50 = false → exec .supplyWaitEnd s = .next s) ∧
    (q.wait50 = true →
      (q.seq = .wait → q.supply = false → exec .supplyWaitEnd s = .next
        { s with pwr := { q with wait50 := false, seq := .off } }) ∧
      (q.seq = .wait → q.supply = true → ∃ t, exec .supplyWaitEnd s = .next t ∧ t.pwr.seq = .early ∧
        t.pwr.wait50 = false ∧ t.pwr.enabled = setBit q.enabled 2) ∧
      (q.seq = .run → q.upWaits = true → ∃ t, exec .supplyWaitEnd s = .next t ∧ t.pwr.seq = .late ∧
        t.pwr.wait50 = false ∧ t.pwr.upWaits = false ∧ t.pwr.enabled = setBit q.enabled 4) ∧
      (q.seq = .run → q.upWaits = false → exec .supplyWaitEnd s = .next { s with pwr := { q with wait50 := false } }))

/-- R480, R483, R485, R486: DOWN and the fall of SUPPLY_OK put every port OFF, stop programs and collectives and take the rails
off in reverse order, each when the one before has discharged.  The compute die's reset is asserted as its HBM rails fall and
the fabric die's as SDH does, and what a die held is lost (log entry 62); a full power-down resets the module and begins the
50 ms.  With the data-plane rails off DOWN only drops an UP that waits.  A rail that is not good in time, or that leaves its window, raises
source 737 with the rail recorded; EPO raises 738 with the ports off and the power-off request. -/
def Obligations.PowerDown : Prop :=
  ∀ (s : State), s.hnd.todo = [] →
    let q := s.pwr
    (∀ (n : Nat), n < 2 →
      let o := if n = 0 then exec .powerDown s else exec .supplyOkFall s
      (n = 0 → s.sealed' = false) → (n = 1 → q.supply = true) →
      q.seq = .late ∨ q.seq = .train ∨ q.seq = .run ∨ (n = 1 ∧ q.seq = .early) →
      (n = 0 → q.seq = .run → s.rd F.PWR_STS_STATE ≠ 0) →
        let u := startDown (decide (n = 1)) { s with pwr := { q with supply := q.supply && decide (n = 0) } }
        o = .next (settle u) ∧ u.pwr = { q with seq := .down, full := decide (n = 1), upWaits := false, supply := q.supply && decide (n = 0) } ∧
        u.rd F.PWR_STS_STATE = 3 ∧ (∀ p, p < 144 → (s.port p).forced = false → u.portUp p = false) ∧ u.isl = {} ∧
        u.rtv.colls = [] ∧ (s.ni.outst = [] → u.hnd = s.hnd ∧ u.pool.mem = s.pool.mem ∧ u.knl = s.knl ∧ u.klp = s.klp)) ∧
    (s.sealed' = false → q.seq = .run → s.rd F.PWR_STS_STATE = 0 →
      exec .powerDown s = .next { s with pwr := { q with upWaits := false } }) ∧
    (s.sealed' = false → q.seq = .off ∨ q.seq = .wait ∨ q.seq = .early ∨ q.seq = .down → exec .powerDown s = .next s) ∧
    (q.supply = false → exec .supplyOkFall s = .next s) ∧
    (q.supply = true → (q.seq = .off → exec .supplyOkFall s = .next { s with pwr := { q with supply := false } }) ∧
      (q.seq = .wait → exec .supplyOkFall s = .next { s with pwr := { q with supply := false, wait50 := false } }) ∧
      (q.seq = .down → exec .supplyOkFall s = .next { s with pwr := { q with supply := false, full := true } })) ∧
    (∀ r, r < 13 →
      let stop := if q.full then 2 else 4
      (q.seq ≠ .down ∨ topRail s ≠ r ∨ r < stop → exec (.railDischarged r) s = .next s) ∧
      (q.seq = .down → topRail s = r → stop ≤ r →
        let u := notGood r { s with pwr := { q with enabled := clearBits q.enabled (2 ^ r) } }
        let v := if 7 ≤ r then holdCompute u else if 4 ≤ r then holdFabric u else u
        (stop ≤ topRail u → exec (.railDischarged r) s = .next v) ∧
        (q.full = false → topRail u < 4 → exec (.railDischarged r) s = .next
          ({ v with pwr := { v.pwr with seq := .run, wait50 := true } }.wr F.PWR_STS_STATE 0)) ∧
        (q.full = true → topRail u < 2 → ∃ t, exec (.railDischarged r) s = .next t ∧
          t.pwr = { v.pwr with seq := .wait, wait50 := true, full := false } ∧ t.rd F.PWR_STS_STATE = 4 ∧
          t.klp.svnFw = s.klp.svnFw ∧ t.knl = [] ∧ t.ports = [] ∧ t.isl = {} ∧ t.pool = {} ∧ t.cmds = [] ∧
          t.klp.mode = (if s.sealed' then .reporter else .rom) ∧ t.klp.lcs = s.klp.lcsNext.getD s.klp.lcs)) ∧
      (watched s r = true → stickyBit s 737 = false → effSev s 737 ≤ 4 →
        (bit q.wasGood r = false → ∃ t, exec (.railEnableTimeout r) s = .next t ∧ stickyBit t 737 = true ∧
          bit (t.rd F.PWR_RAILSTS_FAULT) r = true) ∧
        (bit q.wasGood r = true → ∃ t, exec (.railWindowFault r) s = .next t ∧ stickyBit t 737 = true ∧
          bit (t.rd F.PWR_RAILSTS_FAULT) r = true ∧ bit (t.rd F.PWR_RAILSTS_GOOD) r = false)) ∧
      (watched s r = false ∨ bit q.wasGood r = true → exec (.railEnableTimeout r) s = .next s) ∧
      (watched s r = false ∨ bit q.wasGood r = false → exec (.railWindowFault r) s = .next s)) ∧
    (q.cmpReset = true → holdCompute s = s) ∧
    (q.cmpReset = false → ∃ t, some (holdCompute s) = some t ∧ t.rd F.POL_STS_STKUP = 0xFF ∧
      (∀ p, p < 144 → t.rd F.LNE_PCTL_MODE p = s.rd F.LNE_PCTL_MODE p) ∧
      t = { s with csr := t.csr, pool := {}, isl := {}, pwr := { q with cmpReset := true } }) ∧
    (q.fabReset = true → holdFabric s = s) ∧
    (q.fabReset = false → ∃ t, some (holdFabric s) = some t ∧ (∀ p, p < 144 → t.rd F.LNE_PCTL_MODE p = 0) ∧
      t.rd F.PWR_RAILSTS_GOOD = s.rd F.PWR_RAILSTS_GOOD ∧ t.rd F.POL_STS_STKUP = s.rd F.POL_STS_STKUP ∧
      t = { s with
        csr := t.csr, ports := [], lanes := [], phy := [], links := [], sweep := {}, activeCount := 0,
        xbr := { resets := s.xbr.resets + 1 }, ni := {}, knl := [], binds := [], quarTags := [], lastGen := [], cmds := [],
        rtv := {}, det := {}, scents := [], pwr := { q with fabReset := true } }) ∧
    (∃ t, exec .epo s = .next t ∧ t.pwr.offReq = true ∧ t.rd F.PWR_STS_EPO = 1 ∧ stickyBit t 738 = true ∧
      (∀ p, p < 144 → t.portUp p = false)) ∧
    (s.sealed' = false → effSev s 738 = 6 → stickyBit s 738 = false → ∃ t, exec .epo s = .next t ∧ t.sealed' = true ∧
      t.klp.keys = [] ∧ t.klp.mode = .reporter)

/-- The completion of the five commands of the governor, the estimator and the thermal limits, with their results.
R488 to R491, GOVERNOR_INSTANT: the credit is one unit at most of the old and 100 times the rate, and each present core's
level moves toward its goal as far as the credit goes, lower cores first.
HOLD_EXPIRY ends the hold of a core.  R493, ESTIMATOR_REFRESH and ESTIMATOR_CALIBRATE: estimates are stored, VALID once
calibrated, and a total above 1,650 W for a millisecond counts.  R496, THERMAL_THRESHOLD with any readings: those of
present sensors are stored; with one at 100 °C HOLD ends and THROT is set with source 735, at 110 °C source 736 asserts
too, with all below 97 °C THROT clears, and otherwise it stays. -/
def Obligations.GovernorAndLimits : Prop :=
  ∀ (s : State), s.hnd.todo = [] →
    (s.sealed' = false →
      (let credit := min s.pwr.credit (govUnit s) + 100 * s.rd F.PWR_GOV_RATE
       let low (u g : Nat) := if u < g then g - u else u - g
       ∃ t, exec .governorInstant s = .next t ∧
        (∀ c, c < 32 → bit s.part.cores c = true →
          (if (s.core c).level < coreGoal s c then (s.core c).level ≤ (t.core c).level ∧ (t.core c).level ≤ coreGoal s c
           else coreGoal s c ≤ (t.core c).level ∧ (t.core c).level ≤ (s.core c).level)) ∧
        (∀ c, c < 32 → bit s.part.cores c = false → t.core c = s.core c) ∧
        t.pwr.credit + govUnit s * ((presentCores s).map fun c => low (s.core c).level (t.core c).level).sum = credit ∧
        (∀ c d, c < d → d < 32 → bit s.part.cores c = true → 0 < govUnit s → (t.core c).level ≠ coreGoal s c →
          t.pwr.credit < govUnit s ∧ (t.core d).level = (s.core d).level) ∧
        (govUnit s = 0 → ∀ c, c < 32 → bit s.part.cores c = true → (t.core c).level = coreGoal s c) ∧
        t = { s with isl := t.isl, pwr := { s.pwr with credit := t.pwr.credit } }) ∧
      (presentCores s = [] → exec .governorInstant s = .next
        { s with pwr := { s.pwr with credit := min s.pwr.credit (govUnit s) + 100 * s.rd F.PWR_GOV_RATE } }) ∧
      (∀ c, c < 32 → bit s.part.cores c = true →
        (∀ j, j < 32 → j ≠ c → (s.core j).level = coreGoal s j) → 0 < govUnit s →
        let credit := min s.pwr.credit (govUnit s) + 100 * s.rd F.PWR_GOV_RATE
        let steps := credit / govUnit s
        let u := (s.core c).level
        let g := coreGoal s c
        ∃ t, exec .governorInstant s = .next t ∧
          (t.core c).level = (if u < g then min g (u + steps) else max g (u - steps)) ∧
          t.pwr.credit = credit - govUnit s * min steps (if u < g then g - u else u - g) ∧
          (∀ j, j < 32 → j ≠ c → (t.core j).level = (s.core j).level) ∧
          t = { s with isl := t.isl, pwr := { s.pwr with credit := t.pwr.credit } }) ∧
      (∀ c, c < 32 → exec (.holdExpiry c) s = .next (s.setCore c { s.core c with held := false }))) ∧
    (∀ (l : List W16) (total : W16), l.length = lastRail s + 1 → ∃ t, exec (.estimatorRefresh l total false) s = .next t ∧
      t.rd F.PWR_EST_TOT_POWER = total.toNat ∧ t.rd F.PWR_EST_TOT_VALID = (if s.pwr.calib then 1 else 0) ∧
      (∀ r, r ≤ lastRail s → t.rd F.PWR_EST_POWER r = (l.getD r 0).toNat ∧
        t.rd F.PWR_EST_VALID r = if s.pwr.calib then 1 else 0) ∧
      t = { s with csr := t.csr }) ∧
    (∀ (l : List W16) (total : W16), 16500 < total.toNat → ∃ t, exec (.estimatorRefresh l total true) s = .next t ∧
      t.rd F.PWR_STS_OVER = 1 ∧ t.rd F.PWR_OVER_CNT_COUNT = min (s.rd F.PWR_OVER_CNT_COUNT + 1) (2 ^ F.PWR_OVER_CNT_COUNT.w - 1)) ∧
    exec .estimatorCalibrate s = .next { s with pwr := { s.pwr with calib := true } } ∧
    (∀ l : List (BitVec 10), let read := l.zipIdx.filter fun x => sensorPresent s x.2
      ∃ t, exec (.thermalThreshold l) s = .next t ∧
      (∀ i, i < l.length → sensorPresent s i = true → t.rd F.PWR_TEMP_TEMP i = (l.getD i 0).toNat ∧
        t.rd F.PWR_TEMP_VALID i = 1) ∧
      ((∃ x ∈ read, 400 ≤ x.1.toInt) → t.rd F.PWR_STS_THROT = 1 ∧ stickyBit t 735 = true ∧
        (effSev s 735 ≤ 4 → effSev s 736 ≤ 4 → ∀ c, c < 32 → (t.core c).held = false)) ∧
      ((∃ x ∈ read, 440 ≤ x.1.toInt) → stickyBit t 736 = true) ∧
      (read ≠ [] → (∀ x ∈ read, x.1.toInt < 388) → s.rd F.PWR_STS_THROT ≤ 1 → t.rd F.PWR_STS_THROT = 0) ∧
      ((∀ x ∈ read, x.1.toInt < 400) → (∃ x ∈ read, 388 ≤ x.1.toInt) →
        t.rd F.PWR_STS_THROT = s.rd F.PWR_STS_THROT) ∧
      (read = [] → t = s)) ∧
    (exec (.thermalThreshold []) s = .next s)


/-! ## Hound (spec/15) -/
/-- R463 to R473: a source that asserts sets its sticky bit and counts once until it is cleared, and its effective severity
acts: 2 resets its kennel, 3 puts its port OFF and has its MODE writes ignored, 4 marks the module degraded, 5 is fatal with
every port OFF and the open kennels reset, 6 seals the module, zeroises its keys and leaves the reporter; 5 and 6 assert
FAULT_N.  Of sources that rise together the higher of these classes supersedes (R469).  R467: a source of severity 1 raises
the level of interrupt source 16.  R462: a path fault also sets the path bit and raises source 731.  R470: a reserved source does nothing.  R475: a parity error seals whatever
HND_SEV says. -/
def Obligations.FaultSources : Prop :=
  ∀ (s : State), s.hnd.todo = [] →
    (∀ i, i < 1024 → quietSource s i = true → ∀ p, exec (.houndSourceAssert i p) s = .next s) ∧
    (∀ i, i < 742 → quietSource s i = false → i < 712 ∨ (720 ≤ i ∧ i ≠ 727 ∧ i ≠ 728 ∧ i ≠ 733) →
      (stickyBit s i = true → exec (.houndSourceAssert i false) s = .next s) ∧
      (stickyBit s i = false →
        let e := effSev s i
        (e ≤ 6 → ∃ t, exec (.houndSourceAssert i false) s = .next t ∧ stickyBit t i = true ∧
          (e = 1 → plicLevel t 16 = true) ∧
          (e ≤ 1 ∨ e = 4 ∨ s.sealed' = true ∨ (s.ni.outst = [] ∧ (e = 3 ∨ e = 6)) → t.rd F.HND_EVT_CNT_COUNT e = min (s.rd F.HND_EVT_CNT_COUNT e + 1) (2 ^ 48 - 1)) ∧
          (e ≤ 1 ∨ s.sealed' = true → t = { s with csr := t.csr, samp := t.samp, freeIdx := t.freeIdx }) ∧
          (s.sealed' = false → e = 3 → ∀ p, p ∈ sourcePorts i → modeBlocked t p = true ∧
            ((s.port p).forced = false → t.portUp p = false)) ∧
          (s.sealed' = false → e = 4 → t.rd F.HND_STS_DEGRADED = 1 ∧ t = { s with csr := t.csr, samp := t.samp,
                                                                                      freeIdx := t.freeIdx }) ∧
          (s.sealed' = false → e = 5 → t.rd F.HND_STS_FATAL = 1 ∧ faultN t = true ∧ (∀ p, p < 144 → t.portUp p = false) ∧
            (∀ k, (s.kennel k).st = .open → (t.kennel k).st = .resetting)) ∧
          (s.sealed' = false → e = 6 → t.sealed' = true ∧ faultN t = true ∧ t.klp.keys = [] ∧ t.klp.mode = .reporter ∧
            t.rd F.KLP_CERT_CERTIFIED = 0 ∧ (∀ p, p < 144 → t.portUp p = false))) ∧
        (∀ k, e = 2 → s.sealed' = false → namedKennel s i = some k → (s.kennel k).st = .open →
          ∃ t, exec (.houndSourceAssert i false) s = .next t ∧ (t.kennel k).st = .resetting ∧ (t.kennel k).fatal = true ∧
            (effSev s 721 ≤ 4 → effSev s 722 ≤ 4 → effSev s 723 ≤ 4 → ∀ j, j ≠ k → t.kennel j = s.kennel j)))) ∧
    (∀ a b : HAct, s.sealed' = false → a.src < 712 → b.src < 712 →
      (a.sev ≤ 4 → b.sev = 5 → actTogether [a, b] s = moduleFatal s ∧ actTogether [b, a] s = moduleFatal s) ∧
      (a.sev ≤ 5 → b.sev = 6 → actTogether [a, b] s = enterSafe b.src s ∧ actTogether [b, a] s = enterSafe b.src s)) ∧
    (∀ i, i < 576 → stickyBit s 731 = false → stickyBit s i = false → effSev s 731 ≤ 1 → effSev s i ≤ 1 →
      ∃ t, exec (.houndSourceAssert i true) s = .next t ∧ stickyBit t i = true ∧ stickyBit t 731 = true ∧
        bit (t.rd F.HND_PATH_PATH (i / 32)) (i % 32) = true) ∧
    (∀ x, x < 8 → s.part ≠ .s → s.sealed' = false → stickyBit s (712 + x) = false → effSev s (712 + x) = 4 →
      ∃ t, exec (.houndSourceAssert (712 + x) false) s = .next t ∧ bit (t.rd F.POL_STS_STKUP) x = false ∧
        t.rd F.HND_STS_DEGRADED = 1 ∧ t.pool = s.pool) ∧
    (∀ x, x < 8 → s.part ≠ .s → s.sealed' = false → stickyBit s (712 + x) = true →
      exec (.houndSourceAssert (712 + x) false) s = .next (s.wr F.POL_STS_STKUP
        (clearBits (s.rd F.POL_STS_STKUP) (2 ^ x)))) ∧
    (s.cryptoErr = false → ∃ t, exec (.houndSourceAssert 733 false) s = .next t ∧ t.cryptoErr = true ∧
      t.rd F.KLP_CERT_CERTIFIED = 0 ∧ stickyBit t 733 = true) ∧
    (∃ t, exec .houndParityError s = .next t ∧ t.rd F.HND_STS_PARITY = 1 ∧ t.sealed' = true ∧ stickyBit t 739 = true ∧
      (s.sealed' = false → t.klp.keys = [] ∧ t.klp.mode = .reporter ∧ (s.ni.outst = [] → t.cmds = s.cmds ∧ t.knl = s.knl))) ∧
    (∀ (w : Nat) (m : W32), w < 32 → s.sealed' = false →
      (s.rd F.HND_FORCE_FORCE w = 0 → exec (.stickyClear w m) s = .next ({ s with hnd := { s.hnd with
        portFatal := s.hnd.portFatal.filter fun i => !(i / 32 == w && bit m.toNat (i % 32)) } }.wr F.HND_STICKY_STICKY
        (clearBits (s.rd F.HND_STICKY_STICKY w) m.toNat) w)) ∧
      (∀ b, b < 32 → s.rd F.HND_FORCE_FORCE w = 2 ^ b → quietSource s (32 * w + b) = false → effSev s (32 * w + b) ≤ 1 →
        ∃ t, exec (.stickyClear w m) s = .next t ∧ stickyBit t (32 * w + b) = true))

/-- R5 to R10: a write that its accessor may make stores each field as its access code says; one of a MON field by
another accessor raises source 720 and stores nothing, and one of an absent unit, of a die held in reset (log entry 62) or
by the debug module without reach is ignored.  A read returns the word, MON fields as 0 to all but the monitor, and a normal read clears ROC fields.  R414, R473:
the reporter answers what it may.  An address that no register occupies reads 0 and ignores writes (R522); a quiet read,
as all of the debug module's are (R437), changes nothing.
R8, R255, R259, R395, R406, R465: registers whose writes do more.  The FLOOR only rises, POL_MONRGN is written once,
FEA_ACCEPT keeps offered bits until the lock, a severity keeps its floor, and the command registers run the command their
bits name, STAGE with the bytes of Kelpie's SRAM.  R7: OPEN written beside GO ends set.  R439: a write of SPG_POLICY after the
policy block's ends the certified configuration.  R483: UP and DOWN in one write are a DOWN. -/
def Obligations.RegisterAccesses : Prop :=
  (
  ∀ (s : State) (r : CsrRef), Quiet s →
    (elementOf r = none → ∀ by_ v q, exec (.registerWrite by_ r v) s = .next s ∧
      (reaches by_ s = true →
        exec (.nonMonitorMonRead by_ ⟨q, r⟩) s = .next { s with host := { s.host with lastRead := 0 } } ∧
        exec (.counterClearingRead ⟨by_, q, r⟩) s = .next { s with host := { s.host with lastRead := 0 } }) ∧
      (reaches by_ s = false → exec (.nonMonitorMonRead by_ ⟨q, r⟩) s = .next s ∧
        exec (.counterClearingRead ⟨by_, q, r⟩) s = .next s) ∧
      exec (.reporterRequest r) s = .next s) ∧
    (∀ i, elementOf r = some i →
      let word (v : W64) := if Reg.wide r.reg then v.toNat else v.toNat % 2 ^ 32
      (∀ by_ v,
        (reaches by_ s = false ∨ absentReg s r.reg i = true ∨ dieHeld s r.reg = true → exec (.registerWrite by_ r v) s = .next s) ∧
        (reaches by_ s = true → absentReg s r.reg i = false → dieHeld s r.reg = false →
          (monFields r.reg ≠ [] → by_ ≠ .monitor → stickyBit s 720 = false → effSev s 720 ≤ 1 →
            ∃ t, exec (.registerWrite by_ r v) s = .next t ∧ stickyBit t 720 = true ∧
              t = { s with csr := t.csr, samp := t.samp, freeIdx := t.freeIdx }) ∧
          (monFields r.reg = [] ∨ by_ = .monitor →
            (exec (.registerWrite by_ r v) s = .next (settle (writeElem r.reg i (word v) s))) ∧
            (r.reg ∈ [Reg.CTR_SCTL, .DET_TSRC, .DET_TSTS, .FEA_LOCK, .HND_PATH, .LNE_EVT, .LNK_CTL, .LNK_EVT, .OUB_MIRCTL,
                .OUB_MIRMATCH, .POL_ECCLOG, .POL_SCRUB, .POL_STS, .PWR_STS, .RTE_CCTL, .RTE_STS, .RTV_CTL, .RTV_QUOTA,
                .SPG_SRC, .SPG_STS, .TCL_STS, .TCL_TXBUF, .TWN_LSTS, .TWN_RSYNC_VA] →
              ∃ t, exec (.registerWrite by_ r v) s = .next t ∧ t = { s with csr := t.csr } ∧
                (∀ f, f ∈ Reg.fields r.reg →
                  let x := word v / 2 ^ f.lo % 2 ^ f.w
                  t.rd f i = match f.acc with
                    | .RW | .MON => x
                    | .RWL => if s.spg.plan then s.rd f i else x
                    | .W1C => clearBits (s.rd f i) x % 2 ^ f.w
                    | .W1S => (s.rd f i ||| x) % 2 ^ f.w
                    | .RO | .WO | .ROC => s.rd f i)))) ∧
        (∀ q, (reaches by_ s = false → exec (.nonMonitorMonRead by_ ⟨q, r⟩) s = .next s ∧
            exec (.counterClearingRead ⟨by_, q, r⟩) s = .next s) ∧
          (reaches by_ s = true → q = true ∨ by_ = .debug ∨ by_ = .monitor ∨ monFields r.reg = [] ∨
              absentReg s r.reg i = true → exec (.nonMonitorMonRead by_ ⟨q, r⟩) s = .next
                { s with host := { s.host with lastRead := BitVec.ofNat 64 (readAs by_ s r.reg i) } }) ∧
          (by_ = .firmware → q = false → monFields r.reg ≠ [] → absentReg s r.reg i = false →
            stickyBit s 720 = false → effSev s 720 ≤ 1 → ∃ t, exec (.nonMonitorMonRead by_ ⟨q, r⟩) s = .next t ∧
              t.host.lastRead = BitVec.ofNat 64 (readAs by_ s r.reg i) ∧ stickyBit t 720 = true) ∧
          (r.reg ≠ .CTR_SREC → reaches by_ s = true → ∃ t, exec (.counterClearingRead ⟨by_, q, r⟩) s = .next t ∧
            t.host.lastRead = BitVec.ofNat 64 (readAs by_ s r.reg i) ∧ t = { s with csr := t.csr, host := t.host } ∧
            (q = true ∨ by_ = .debug → t.csr = s.csr) ∧
            (q = false → by_ ≠ .debug → absentReg s r.reg i = false →
              ∀ f, f ∈ Reg.fields r.reg → t.rd f i = if r.reg = .OUB_QMAX then queueDepth s (i / 4) (i % 4) % 2 ^ f.w
                else if f.acc = .ROC then 0 else s.rd f i)))) ∧
      (s.klp.mode ≠ .reporter → exec (.reporterRequest r) s = .next s) ∧
      (s.klp.mode = .reporter → exec (.reporterRequest r) s = .next { s with klp := { s.klp with
        report := some (Reg.base .KLP_BOOTSTS, csrWord s .KLP_BOOTSTS 0) } })) ∧
    (exec (.srecPop true) s = .next { s with host := { s.host with lastRead := BitVec.ofNat 64 (srecWord s) } }) ∧
    (exec (.srecPop false) s = .next
      { s with host := { s.host with lastRead := BitVec.ofNat 64 (srecWord s) }, samp := s.samp.drop 1 })
  ) ∧
  (
  ∀ (s : State) (v : Nat), Quiet s →
    writeElem .SPG_FLOOR 0 v s = s.wr F.SPG_FLOOR_VERSION (max v (s.rd F.SPG_FLOOR_VERSION)) ∧
    (s.pool.rgnSet = true → writeElem .POL_MONRGN 0 v s = s) ∧
    (s.pool.rgnSet = false → (writeElem .POL_MONRGN 0 v s).rd F.POL_MONRGN_FIRST = v % 2 ^ F.POL_MONRGN_FIRST.w ∧
      (writeElem .POL_MONRGN 0 v s).pool.rgnSet = true) ∧
    (∀ i, i < 8 →
      (s.rd F.FEA_LOCK_LOCK = 0 → (writeElem .FEA_ACCEPT i v s).rd F.FEA_ACCEPT_BITS i =
        (v &&& (s.part.offer / 2 ^ (32 * i))) % 2 ^ 32) ∧
      (s.rd F.FEA_LOCK_LOCK ≠ 0 → writeElem .FEA_ACCEPT i v s = s)) ∧
    (∀ n, n < 92 → ∀ j, j < 8 → (writeElem .HND_SEV n v s).sev (8 * n + j) =
      max (v / 2 ^ (4 * j) % 8) (houndFloor (8 * n + j))) ∧
    (∀ e, e < 1280 → s.rd F.POL_MODE_MODE = 0 → s.rd F.POL_MODE_PEND = 0 → writeElem .POL_SLOT e v s =
      { s with pool := { s.pool with slots := Tbl.put s.pool.slots e (v % 512) (resetSlot e).word } }) ∧
    (∀ e, s.rd F.POL_MODE_MODE ≠ 0 ∨ s.rd F.POL_MODE_PEND ≠ 0 → writeElem .POL_SLOT e v s = s) ∧
    writeElem .SPG_CMD 0 2 s = commit s ∧ writeElem .SPG_CMD 0 3 s = rollback s ∧
    writeElem .KLP_CTL 0 1 s = kelpieRestart s ∧ writeElem .PWR_CTL 0 1 s = powerUp s ∧
    writeElem .PWR_CTL 0 2 s = powerDown s ∧ writeElem .PWR_CTL 0 3 s = powerDown s ∧
    (s.rd F.SPG_SRC_LEN ≤ 2 ^ 21 → writeElem .SPG_CMD 0 1 s =
      stage ((List.range (s.rd F.SPG_SRC_LEN)).map fun i => Tbl.get s.klp.sram (s.rd F.SPG_SRC_ADDR + i) 0) s) ∧
    (writeElem .KLP_SEQ 0 3 s).rd F.KLP_SEQ_OPEN = 1 ∧
    (∀ i, i < 24 → (writeElem .SPG_POLICY i v s).rd F.SPG_POLICY_HASH i = v % 2 ^ 32 ∧
      (s.klp.policyIn = false → (writeElem .SPG_POLICY i v s).klp = s.klp) ∧
      (s.klp.policyIn = true → (writeElem .SPG_POLICY i v s).klp = { s.klp with certLost := true } ∧
        (writeElem .SPG_POLICY i v s).rd F.KLP_CERT_CERTIFIED = 0)) ∧
    (∀ i, i < 32 → writeElem .HND_STICKY i v s = stickyClear i v s) ∧
    (∀ p, p < 144 → writeElem .MON_LINKSEC p v s = linksecWrite p (v % 2) s) ∧
    (s.spg.armed ≠ none → writeElem .SPG_TF 0 v s = s) ∧
    (∀ p, 16 < ((List.range 8).map fun c => v / 2 ^ (4 * c) % 16).foldl (· + ·) 0 → writeElem .LNK_CRED p v s = s)
  )


/-! ## Rules of the spec, each stated whole -/
/-- R200: a TAIL write is accepted when the new TAIL lies ahead of the current TAIL by at most 2^n − (TAIL − HEAD), counted
modulo 2^32, and otherwise answered BAD_DESCRIPTOR with the queue unchanged; one that equals the current TAIL is accepted
and does nothing.  On the part whose rings stand in queue SRAM every TAIL write is BAD_DESCRIPTOR (R201). -/
def Obligations.TailWriteRule : Prop :=
  ∀ (s : State) (a : Arrival) (k : Nat) (x : Queue), Runs s → isTail a.pkt = true → a.pkt.ktag ≠ 0 →
    servedKennel s a.pkt.ktag = some k → (s.kennel k).st = .open →
    let q := offOf a.pkt / 4096
    q < 16 → s.queue k q = some x → pageOffOf a.pkt = 0 → a.pkt.len = 1 → field a.pkt.payload 4 12 = 0 →
    let new : W32 := BitVec.ofNat 32 (field a.pkt.payload 0 4)
    let ahead := (new.toNat + 2 ^ 32 - x.tail.toNat) % 2 ^ 32
    let room := 2 ^ x.log2 - (x.tail - x.head).toNat
    let u := modQueue k q (fun y => { y with tail := new }) (takeArrival a s)
    (s.part ≠ .s →
      (ahead ≤ room → exec (.tailWrite a) s = .next (sendAck a.pkt u) ∧ u.queue k q = some { x with tail := new } ∧
        (∀ j r, j ≠ k ∨ r ≠ q → u.queue j r = s.queue j r)) ∧
      (new = x.tail → exec (.tailWrite a) s = .next (sendAck a.pkt u) ∧ u.queue k q = some x) ∧
      (room < ahead → exec (.tailWrite a) s = .next (sendErr a.pkt Code.badDescriptor (takeArrival a s)))) ∧
    (s.part = .s → exec (.tailWrite a) s = .next (sendErr a.pkt Code.badDescriptor (takeArrival a s))) ∧
    (∀ c, (sendErr a.pkt c (takeArrival a s)).knl = s.knl)

/-- R465: each source has a floor, and a severity written below the floor is stored as the floor.  The monitor's write of one
HND_SEV word sets the severities of its eight sources and of no other. -/
def Obligations.SeverityFloor : Prop :=
  ∀ (s : State) (i : Nat) (v : W64), Quiet s → s.sealed' = false → i < 742 → ∃ t,
    exec (.registerWrite .monitor ⟨.HND_SEV, i / 8, 0, 0⟩ v) s = .next t ∧
    t.sev i = max (v.toNat / 2 ^ (4 * (i % 8)) % 8) (houndFloor i) ∧
    (v.toNat / 2 ^ (4 * (i % 8)) % 8 < houndFloor i → t.sev i = houndFloor i) ∧
    (∀ j, j / 8 ≠ i / 8 → t.sev j = s.sev j)

/-- R4: on the LT9600-S a fabric load, store or atomic addressed to the pool window is answered FEATURE_NOT_ACCEPTED (0x10),
and no memory is written. -/
def Obligations.NoPoolOnTheSwitchPart : Prop :=
  ∀ (s : State) (a : Arrival) (k : Nat), Runs s → s.part = .s → a.pkt.ktag ≠ 0 → servedKennel s a.pkt.ktag = some k →
    s.scent k = none →
    ∀ r ∈ [(Instr.poolRead a, 2), (.poolWrite a, 1), (.poolFaddI32 a, 3), (.poolFaddI64 a, 4), (.poolFaddF32 a, 5),
      (.poolCas64 a, 6)], isPool a.pkt r.2 = true →
      exec r.1 s = .next (sendErr a.pkt 0x10 (takeArrival a s)) ∧
      (sendErr a.pkt 0x10 (takeArrival a s)).pool = s.pool


/-! ## Every step (the block's queue, the safe state, the memory, words of slots) -/
/-- A step with a command at the front of the queue is that command's meaning on the state with the queue's rest; with an
empty queue one compute cycle of 5/9 ns passes (the model's choice, log entry 2), in which the references move on by what the
time base's trim gives (R377, log entry 36), and in the safe state nothing else happens (R473). -/
def Obligations.StepRunsFront : Prop :=
  ∀ (s : State),
    (∀ (c : Instr) (rest : List Instr), s.pending = c :: rest → step s = exec c { s with pending := rest }) ∧
    (s.pending = [] → s.sealed' = true → step s = .next { s with time := s.time + 5000, ref := s.ref + s.cycleRef, cyc := s.cyc + 1 }) ∧
    (s.pending = [] → s.sealed' = false → s.hnd.todo = [] → s.ports = [] → s.isl.cores = [] → s.isl.progs = [] →
      s.det.alignWait = false → s.rd F.POL_MODE_PEND = 0 → s.rd F.POL_STS_CUR = 0 →
      step s = .next { s with time := s.time + 5000, ref := s.ref + s.cycleRef, cyc := s.cyc + 1 }) ∧
    s.cycleRef = (5000 * (10 ^ 9 - s.det.trim)).toNat

/-- Every well-formed command completes, whatever the state; one that does not stops because it names a unit that the module
does not have, and no command is refused. -/
def Obligations.WellFormedCommandsComplete : Prop :=
  ∀ (i : Instr) (s : State),
    (wellFormed i = true → ∃ t, exec i s = .next t) ∧
    ((∃ t, exec i s = .next t) ∨ exec i s = .fault .noSuchUnit)

/-- R473, R474: a module in the safe state stays in it over every step, Hound takes no further action, and every command but
those of Hound, its reporter, the power manager and Kelpie's restart and boot leaves the whole state as it is. -/
def Obligations.SafeStateHolds : Prop :=
  ∀ (s : State), s.sealed' = true → s.hnd.todo = [] →
    (∀ (i : Instr) (t : State), actsSealed i = false → exec i s = .next t → t = s) ∧
    (∀ t, step s = .next t → t.sealed' = true ∧ t.hnd.todo = [] ∧ t.part = s.part)

/-- R340, R341, R344, R348, R351, R356: the word of a slot command decodes to that command, with every operand at every value
of its fields, and a word that decodes to a command is that command's word; so no bit of a word is
dropped and no two commands share one. -/
def Obligations.SlotWordsRoundTrip : Prop :=
  ∀ (sl : SlotOf) (c : Nat) (w : SlotWord) (i : Instr), decodeSlot sl c w = some i ↔ encodeSlot i = some (sl, c, w)

/-- The pool's memory and Kelpie's SRAM keep their canonical form, with strictly rising addresses and no byte equal to what an unlisted one reads as,
over every step of every command and over every idle cycle. -/
def Obligations.MemoryStaysCanonical : Prop := ∀ (s t : State), MemOk s → step s = .next t → MemOk t

/-- R478, R148, R185, R406, R411, R442, R449, R463, R473: what reset leaves, where the tables give a value: the default
severities, no sticky bit, not sealed, the features not locked, every port OFF in role and state, every kennel FREE,
the routing tables at their template, the module not certified, and no command waiting; the memory is canonical.  R482: both
dies are held in reset.  R410,
R521: hart 0 runs the boot ROM from its reset vector in M mode, and the other harts are held. -/
def Obligations.ResetValues : Prop :=
  let s := State.reset
  (∀ i, i < 742 → s.sev i = houndClass i ∧ stickyBit s i = false ∧ houndFloor i ≤ s.sev i) ∧
  (∀ i, 742 ≤ i → quietSource s i = true) ∧
  Quiet s ∧ MemOk s ∧ s.pending = [] ∧ s.time = 0 ∧ s.rd F.FEA_LOCK_LOCK = 0 ∧ s.rd F.KLP_CERT_CERTIFIED = 0 ∧
  s.rd F.MON_LOCK_LOCKED = 0 ∧ s.tray.holder = false ∧ s.rd F.POL_STS_CUR = 0 ∧ s.rd F.LNK_SWEEP_DONE = 0 ∧
  (∀ p, p < 144 → (s.port p).st = .off ∧ s.rd F.LNE_PCTL_MODE p = 0 ∧ s.role p = defaultRole p) ∧
  s.klp.harts.map (·.run) = [true, false, false, false] ∧ (∀ h ∈ s.klp.harts, h.priv = .m ∧ h.pc = 0x01000000) ∧
  s.fabRuns = false ∧ s.cmpRuns = false ∧ s.klp.ids = [] ∧ s.klp.policyIn = false ∧
  (∀ k, k < 4096 → (s.kennel k).st = .free) ∧ (∀ c, c < 32 → (s.core c).st = .free) ∧
  (∀ d, d < 4 → s.act F.RTE_DIRP_FIRST d = 72 + 16 * d) ∧
  (∀ c, c < 32 → s.act F.OUB_WRED_MIN (3 * c + 1) = 256 ∧ s.act F.OUB_WRED_MAX (3 * c + 1) = 384)
end

