-- ==== Sys2Proof/Laws/Table.lean ====
section
/-! SUPPORT. Reading after writing one entry of a sparse table, and the canonical form that writing keeps. -/

namespace Sys2Proof.Tbl

theorem find_erase_same {α : Type} (t : Tbl α) (k : Nat) : find (erase t k) k = none := by
  induction t with
  | nil => rfl
  | cons e t ih =>
    obtain ⟨j, v⟩ := e
    by_cases h : j = k <;> simp [erase, find, h, ih]

theorem find_erase_ne {α : Type} (t : Tbl α) {k q : Nat} (h : q ≠ k) : find (erase t k) q = find t q := by
  induction t with
  | nil => rfl
  | cons e t ih =>
    obtain ⟨j, v⟩ := e
    by_cases hj : j = k
    · have : j ≠ q := fun e => h (e.symm.trans hj)
      simp [erase, find, hj, ih, show ¬ k = q from fun e => h e.symm]
    · simp [erase, find, hj, ih]

theorem find_insert_same {α : Type} (t : Tbl α) (k : Nat) (v : α) (h : find t k = none) :
    find (insert t k v) k = some v := by
  induction t with
  | nil => simp [insert, find]
  | cons e t ih =>
    obtain ⟨j, w⟩ := e
    by_cases hj : j = k
    · simp [find, hj] at h
    · simp [find, hj] at h
      by_cases hk : k < j <;> simp [insert, find, hk, hj, ih h]

theorem find_insert_ne {α : Type} (t : Tbl α) {k q : Nat} (v : α) (h : q ≠ k) :
    find (insert t k v) q = find t q := by
  induction t with
  | nil => simp [insert, find, Ne.symm h]
  | cons e t ih =>
    obtain ⟨j, w⟩ := e
    by_cases hk : k < j <;> simp [insert, find, hk, ih, Ne.symm h]

@[simp] theorem get_put_same {α : Type} [DecidableEq α] (t : Tbl α) (k : Nat) (v d : α) :
    get (put t k v d) k d = v := by
  by_cases h : v = d
  · simp [put, h, get, find_erase_same]
  · simp [put, h, get, set, find_insert_same _ _ _ (find_erase_same t k)]

theorem get_put_ne {α : Type} [DecidableEq α] (t : Tbl α) {k q : Nat} (v d d' : α) (h : q ≠ k) :
    get (put t k v d) q d' = get t q d' := by
  by_cases hv : v = d
  · simp [put, hv, get, find_erase_ne t h]
  · simp [put, hv, get, set, find_insert_ne _ _ h, find_erase_ne t h]

@[simp] theorem get_nil {α : Type} (k : Nat) (d : α) : get ([] : Tbl α) k d = d := rfl

/-! ## The canonical form -/

/-- Every index is above `b`. -/
def above {α : Type} (b : Nat) : Tbl α → Prop
  | [] => True
  | (j, _) :: t => b < j ∧ above b t

theorem sorted_cons {α : Type} (j : Nat) (v : α) (t : Tbl α) :
    sorted ((j, v) :: t) = true ↔ above j t ∧ sorted t = true := by
  induction t generalizing j v with
  | nil => simp [sorted, above]
  | cons e t ih =>
    obtain ⟨i, w⟩ := e
    simp only [sorted, Bool.and_eq_true, decide_eq_true_eq, above, ih]
    constructor
    · rintro ⟨h, ha, hs⟩
      refine ⟨⟨h, ?_⟩, ha, hs⟩
      clear ih hs
      induction t with
      | nil => trivial
      | cons e t iht => exact ⟨Nat.lt_trans h ha.1, iht ha.2⟩
    · rintro ⟨⟨h, _⟩, ha, hs⟩
      exact ⟨h, ha, hs⟩

theorem above_erase {α : Type} {b : Nat} (t : Tbl α) (k : Nat) (h : above b t) : above b (erase t k) := by
  induction t with
  | nil => trivial
  | cons e t ih =>
    obtain ⟨j, v⟩ := e
    by_cases hj : j = k <;> simp [erase, hj]
    · exact ih h.2
    · exact ⟨h.1, ih h.2⟩

theorem above_insert {α : Type} {b : Nat} (t : Tbl α) (k : Nat) (v : α) (hk : b < k) (h : above b t) :
    above b (insert t k v) := by
  induction t with
  | nil => exact ⟨hk, trivial⟩
  | cons e t ih =>
    obtain ⟨j, w⟩ := e
    by_cases hj : k < j <;> simp [insert, hj]
    · exact ⟨hk, h⟩
    · exact ⟨h.1, ih h.2⟩

theorem above_of_lt {α : Type} {a b : Nat} (t : Tbl α) (hab : a < b) (h : above b t) : above a t := by
  induction t with
  | nil => trivial
  | cons e t ih => exact ⟨Nat.lt_trans hab h.1, ih h.2⟩

theorem sorted_erase {α : Type} (t : Tbl α) (k : Nat) (h : sorted t = true) : sorted (erase t k) = true := by
  induction t with
  | nil => rfl
  | cons e t ih =>
    obtain ⟨j, v⟩ := e
    rw [sorted_cons] at h
    by_cases hj : j = k
    · simpa [erase, hj] using ih h.2
    · simp only [erase, hj, ↓reduceIte]
      rw [sorted_cons]
      exact ⟨above_erase t k h.1, ih h.2⟩

theorem sorted_insert {α : Type} (t : Tbl α) (k : Nat) (v : α) (h : sorted t = true) (hk : find t k = none) :
    sorted (insert t k v) = true := by
  induction t with
  | nil => rfl
  | cons e t ih =>
    obtain ⟨j, w⟩ := e
    rw [sorted_cons] at h
    by_cases hj : j = k
    · simp [find, hj] at hk
    · simp [find, hj] at hk
      by_cases hlt : k < j
      · simp only [insert, hlt, ↓reduceIte]
        rw [sorted_cons, sorted_cons]
        exact ⟨⟨hlt, above_of_lt t hlt h.1⟩, h⟩
      · simp only [insert, hlt, ↓reduceIte]
        rw [sorted_cons]
        exact ⟨above_insert t k v (by omega) h.1, ih h.2 hk⟩

/-- Writing an entry keeps the indices rising. -/
theorem sorted_put {α : Type} [DecidableEq α] (t : Tbl α) (k : Nat) (v d : α) (h : sorted t = true) :
    sorted (put t k v d) = true := by
  by_cases hv : v = d
  · simpa [put, hv] using sorted_erase t k h
  · simpa [put, hv, set] using sorted_insert _ k v (sorted_erase t k h) (find_erase_same t k)

/-- Writing an entry lists no default. -/
theorem all_put {α : Type} [DecidableEq α] (t : Tbl α) (k : Nat) (v d : α)
    (h : (t.all fun e => decide (e.2 ≠ d)) = true) : ((put t k v d).all fun e => decide (e.2 ≠ d)) = true := by
  have he : ((erase t k).all fun e => decide (e.2 ≠ d)) = true := by
    induction t with
    | nil => rfl
    | cons e t ih =>
      obtain ⟨j, w⟩ := e
      simp only [List.all_cons, Bool.and_eq_true] at h
      by_cases hj : j = k
      · simpa [erase, hj] using ih h.2
      · simp only [erase, hj, ↓reduceIte, List.all_cons, Bool.and_eq_true]
        exact ⟨h.1, ih h.2⟩
  by_cases hv : v = d
  · simpa [put, hv] using he
  · simp only [put, hv, ↓reduceIte, set]
    generalize erase t k = u at he
    induction u with
    | nil => simp [insert, hv]
    | cons e u ih =>
      obtain ⟨j, w⟩ := e
      simp only [List.all_cons, Bool.and_eq_true] at he
      by_cases hlt : k < j
      · simpa [insert, hlt, hv] using he
      · simp only [insert, hlt, ↓reduceIte, List.all_cons, Bool.and_eq_true]
        exact ⟨he.1, ih he.2⟩

end Sys2Proof.Tbl
end

