-- ==== Sys2Proof/Laws/State.lean ====
section
/-! SUPPORT. The fields of State under the updates of Machine/Ops.lean: every other field stays, and what was written is
read back. -/

namespace Sys2Proof.Machine

/-! ## wr -/

@[simp] theorem State.wr_pending (s : State) (f : Fld) (v i : Nat) : (s.wr f v i).pending = s.pending := rfl
@[simp] theorem State.wr_part (s : State) (f : Fld) (v i : Nat) : (s.wr f v i).part = s.part := rfl
@[simp] theorem State.wr_time (s : State) (f : Fld) (v i : Nat) : (s.wr f v i).time = s.time := rfl
@[simp] theorem State.wr_ref (s : State) (f : Fld) (v i : Nat) : (s.wr f v i).ref = s.ref := rfl
@[simp] theorem State.wr_cyc (s : State) (f : Fld) (v i : Nat) : (s.wr f v i).cyc = s.cyc := rfl
@[simp] theorem State.wr_freeIdx (s : State) (f : Fld) (v i : Nat) : (s.wr f v i).freeIdx = s.freeIdx := rfl
@[simp] theorem State.wr_host (s : State) (f : Fld) (v i : Nat) : (s.wr f v i).host = s.host := rfl
@[simp] theorem State.wr_ports (s : State) (f : Fld) (v i : Nat) : (s.wr f v i).ports = s.ports := rfl
@[simp] theorem State.wr_lanes (s : State) (f : Fld) (v i : Nat) : (s.wr f v i).lanes = s.lanes := rfl
@[simp] theorem State.wr_phy (s : State) (f : Fld) (v i : Nat) : (s.wr f v i).phy = s.phy := rfl
@[simp] theorem State.wr_links (s : State) (f : Fld) (v i : Nat) : (s.wr f v i).links = s.links := rfl
@[simp] theorem State.wr_sweep (s : State) (f : Fld) (v i : Nat) : (s.wr f v i).sweep = s.sweep := rfl
@[simp] theorem State.wr_activeCount (s : State) (f : Fld) (v i : Nat) : (s.wr f v i).activeCount = s.activeCount := rfl
@[simp] theorem State.wr_xbr (s : State) (f : Fld) (v i : Nat) : (s.wr f v i).xbr = s.xbr := rfl
@[simp] theorem State.wr_ni (s : State) (f : Fld) (v i : Nat) : (s.wr f v i).ni = s.ni := rfl
@[simp] theorem State.wr_knl (s : State) (f : Fld) (v i : Nat) : (s.wr f v i).knl = s.knl := rfl
@[simp] theorem State.wr_binds (s : State) (f : Fld) (v i : Nat) : (s.wr f v i).binds = s.binds := rfl
@[simp] theorem State.wr_quarTags (s : State) (f : Fld) (v i : Nat) : (s.wr f v i).quarTags = s.quarTags := rfl
@[simp] theorem State.wr_lastGen (s : State) (f : Fld) (v i : Nat) : (s.wr f v i).lastGen = s.lastGen := rfl
@[simp] theorem State.wr_cmds (s : State) (f : Fld) (v i : Nat) : (s.wr f v i).cmds = s.cmds := rfl
@[simp] theorem State.wr_pool (s : State) (f : Fld) (v i : Nat) : (s.wr f v i).pool = s.pool := rfl
@[simp] theorem State.wr_cryptoErr (s : State) (f : Fld) (v i : Nat) : (s.wr f v i).cryptoErr = s.cryptoErr := rfl
@[simp] theorem State.wr_rtv (s : State) (f : Fld) (v i : Nat) : (s.wr f v i).rtv = s.rtv := rfl
@[simp] theorem State.wr_isl (s : State) (f : Fld) (v i : Nat) : (s.wr f v i).isl = s.isl := rfl
@[simp] theorem State.wr_tray (s : State) (f : Fld) (v i : Nat) : (s.wr f v i).tray = s.tray := rfl
@[simp] theorem State.wr_spg (s : State) (f : Fld) (v i : Nat) : (s.wr f v i).spg = s.spg := rfl
@[simp] theorem State.wr_det (s : State) (f : Fld) (v i : Nat) : (s.wr f v i).det = s.det := rfl
@[simp] theorem State.wr_scents (s : State) (f : Fld) (v i : Nat) : (s.wr f v i).scents = s.scents := rfl
@[simp] theorem State.wr_hnd (s : State) (f : Fld) (v i : Nat) : (s.wr f v i).hnd = s.hnd := rfl
@[simp] theorem State.wr_klp (s : State) (f : Fld) (v i : Nat) : (s.wr f v i).klp = s.klp := rfl
@[simp] theorem State.wr_pwr (s : State) (f : Fld) (v i : Nat) : (s.wr f v i).pwr = s.pwr := rfl
@[simp] theorem State.wr_tcl (s : State) (f : Fld) (v i : Nat) : (s.wr f v i).tcl = s.tcl := rfl
@[simp] theorem State.wr_samp (s : State) (f : Fld) (v i : Nat) : (s.wr f v i).samp = s.samp := rfl

/-! ## setPort -/

@[simp] theorem State.setPort_pending (s : State) (p : Nat) (x : Port) : (s.setPort p x).pending = s.pending := rfl
@[simp] theorem State.setPort_part (s : State) (p : Nat) (x : Port) : (s.setPort p x).part = s.part := rfl
@[simp] theorem State.setPort_time (s : State) (p : Nat) (x : Port) : (s.setPort p x).time = s.time := rfl
@[simp] theorem State.setPort_ref (s : State) (p : Nat) (x : Port) : (s.setPort p x).ref = s.ref := rfl
@[simp] theorem State.setPort_cyc (s : State) (p : Nat) (x : Port) : (s.setPort p x).cyc = s.cyc := rfl
@[simp] theorem State.setPort_freeIdx (s : State) (p : Nat) (x : Port) : (s.setPort p x).freeIdx = s.freeIdx := rfl
@[simp] theorem State.setPort_host (s : State) (p : Nat) (x : Port) : (s.setPort p x).host = s.host := rfl
@[simp] theorem State.setPort_csr (s : State) (p : Nat) (x : Port) : (s.setPort p x).csr = s.csr := rfl
@[simp] theorem State.setPort_lanes (s : State) (p : Nat) (x : Port) : (s.setPort p x).lanes = s.lanes := rfl
@[simp] theorem State.setPort_phy (s : State) (p : Nat) (x : Port) : (s.setPort p x).phy = s.phy := rfl
@[simp] theorem State.setPort_links (s : State) (p : Nat) (x : Port) : (s.setPort p x).links = s.links := rfl
@[simp] theorem State.setPort_sweep (s : State) (p : Nat) (x : Port) : (s.setPort p x).sweep = s.sweep := rfl
@[simp] theorem State.setPort_activeCount (s : State) (p : Nat) (x : Port) : (s.setPort p x).activeCount = s.activeCount := rfl
@[simp] theorem State.setPort_xbr (s : State) (p : Nat) (x : Port) : (s.setPort p x).xbr = s.xbr := rfl
@[simp] theorem State.setPort_ni (s : State) (p : Nat) (x : Port) : (s.setPort p x).ni = s.ni := rfl
@[simp] theorem State.setPort_knl (s : State) (p : Nat) (x : Port) : (s.setPort p x).knl = s.knl := rfl
@[simp] theorem State.setPort_binds (s : State) (p : Nat) (x : Port) : (s.setPort p x).binds = s.binds := rfl
@[simp] theorem State.setPort_quarTags (s : State) (p : Nat) (x : Port) : (s.setPort p x).quarTags = s.quarTags := rfl
@[simp] theorem State.setPort_lastGen (s : State) (p : Nat) (x : Port) : (s.setPort p x).lastGen = s.lastGen := rfl
@[simp] theorem State.setPort_cmds (s : State) (p : Nat) (x : Port) : (s.setPort p x).cmds = s.cmds := rfl
@[simp] theorem State.setPort_pool (s : State) (p : Nat) (x : Port) : (s.setPort p x).pool = s.pool := rfl
@[simp] theorem State.setPort_cryptoErr (s : State) (p : Nat) (x : Port) : (s.setPort p x).cryptoErr = s.cryptoErr := rfl
@[simp] theorem State.setPort_rtv (s : State) (p : Nat) (x : Port) : (s.setPort p x).rtv = s.rtv := rfl
@[simp] theorem State.setPort_isl (s : State) (p : Nat) (x : Port) : (s.setPort p x).isl = s.isl := rfl
@[simp] theorem State.setPort_tray (s : State) (p : Nat) (x : Port) : (s.setPort p x).tray = s.tray := rfl
@[simp] theorem State.setPort_spg (s : State) (p : Nat) (x : Port) : (s.setPort p x).spg = s.spg := rfl
@[simp] theorem State.setPort_det (s : State) (p : Nat) (x : Port) : (s.setPort p x).det = s.det := rfl
@[simp] theorem State.setPort_scents (s : State) (p : Nat) (x : Port) : (s.setPort p x).scents = s.scents := rfl
@[simp] theorem State.setPort_hnd (s : State) (p : Nat) (x : Port) : (s.setPort p x).hnd = s.hnd := rfl
@[simp] theorem State.setPort_klp (s : State) (p : Nat) (x : Port) : (s.setPort p x).klp = s.klp := rfl
@[simp] theorem State.setPort_pwr (s : State) (p : Nat) (x : Port) : (s.setPort p x).pwr = s.pwr := rfl
@[simp] theorem State.setPort_tcl (s : State) (p : Nat) (x : Port) : (s.setPort p x).tcl = s.tcl := rfl
@[simp] theorem State.setPort_samp (s : State) (p : Nat) (x : Port) : (s.setPort p x).samp = s.samp := rfl

/-! ## modPort -/

@[simp] theorem State.modPort_pending (s : State) (p : Nat) (f : Port → Port) : (s.modPort p f).pending = s.pending := rfl
@[simp] theorem State.modPort_part (s : State) (p : Nat) (f : Port → Port) : (s.modPort p f).part = s.part := rfl
@[simp] theorem State.modPort_time (s : State) (p : Nat) (f : Port → Port) : (s.modPort p f).time = s.time := rfl
@[simp] theorem State.modPort_ref (s : State) (p : Nat) (f : Port → Port) : (s.modPort p f).ref = s.ref := rfl
@[simp] theorem State.modPort_cyc (s : State) (p : Nat) (f : Port → Port) : (s.modPort p f).cyc = s.cyc := rfl
@[simp] theorem State.modPort_freeIdx (s : State) (p : Nat) (f : Port → Port) : (s.modPort p f).freeIdx = s.freeIdx := rfl
@[simp] theorem State.modPort_host (s : State) (p : Nat) (f : Port → Port) : (s.modPort p f).host = s.host := rfl
@[simp] theorem State.modPort_csr (s : State) (p : Nat) (f : Port → Port) : (s.modPort p f).csr = s.csr := rfl
@[simp] theorem State.modPort_lanes (s : State) (p : Nat) (f : Port → Port) : (s.modPort p f).lanes = s.lanes := rfl
@[simp] theorem State.modPort_phy (s : State) (p : Nat) (f : Port → Port) : (s.modPort p f).phy = s.phy := rfl
@[simp] theorem State.modPort_links (s : State) (p : Nat) (f : Port → Port) : (s.modPort p f).links = s.links := rfl
@[simp] theorem State.modPort_sweep (s : State) (p : Nat) (f : Port → Port) : (s.modPort p f).sweep = s.sweep := rfl
@[simp] theorem State.modPort_activeCount (s : State) (p : Nat) (f : Port → Port) : (s.modPort p f).activeCount = s.activeCount := rfl
@[simp] theorem State.modPort_xbr (s : State) (p : Nat) (f : Port → Port) : (s.modPort p f).xbr = s.xbr := rfl
@[simp] theorem State.modPort_ni (s : State) (p : Nat) (f : Port → Port) : (s.modPort p f).ni = s.ni := rfl
@[simp] theorem State.modPort_knl (s : State) (p : Nat) (f : Port → Port) : (s.modPort p f).knl = s.knl := rfl
@[simp] theorem State.modPort_binds (s : State) (p : Nat) (f : Port → Port) : (s.modPort p f).binds = s.binds := rfl
@[simp] theorem State.modPort_quarTags (s : State) (p : Nat) (f : Port → Port) : (s.modPort p f).quarTags = s.quarTags := rfl
@[simp] theorem State.modPort_lastGen (s : State) (p : Nat) (f : Port → Port) : (s.modPort p f).lastGen = s.lastGen := rfl
@[simp] theorem State.modPort_cmds (s : State) (p : Nat) (f : Port → Port) : (s.modPort p f).cmds = s.cmds := rfl
@[simp] theorem State.modPort_pool (s : State) (p : Nat) (f : Port → Port) : (s.modPort p f).pool = s.pool := rfl
@[simp] theorem State.modPort_cryptoErr (s : State) (p : Nat) (f : Port → Port) : (s.modPort p f).cryptoErr = s.cryptoErr := rfl
@[simp] theorem State.modPort_rtv (s : State) (p : Nat) (f : Port → Port) : (s.modPort p f).rtv = s.rtv := rfl
@[simp] theorem State.modPort_isl (s : State) (p : Nat) (f : Port → Port) : (s.modPort p f).isl = s.isl := rfl
@[simp] theorem State.modPort_tray (s : State) (p : Nat) (f : Port → Port) : (s.modPort p f).tray = s.tray := rfl
@[simp] theorem State.modPort_spg (s : State) (p : Nat) (f : Port → Port) : (s.modPort p f).spg = s.spg := rfl
@[simp] theorem State.modPort_det (s : State) (p : Nat) (f : Port → Port) : (s.modPort p f).det = s.det := rfl
@[simp] theorem State.modPort_scents (s : State) (p : Nat) (f : Port → Port) : (s.modPort p f).scents = s.scents := rfl
@[simp] theorem State.modPort_hnd (s : State) (p : Nat) (f : Port → Port) : (s.modPort p f).hnd = s.hnd := rfl
@[simp] theorem State.modPort_klp (s : State) (p : Nat) (f : Port → Port) : (s.modPort p f).klp = s.klp := rfl
@[simp] theorem State.modPort_pwr (s : State) (p : Nat) (f : Port → Port) : (s.modPort p f).pwr = s.pwr := rfl
@[simp] theorem State.modPort_tcl (s : State) (p : Nat) (f : Port → Port) : (s.modPort p f).tcl = s.tcl := rfl
@[simp] theorem State.modPort_samp (s : State) (p : Nat) (f : Port → Port) : (s.modPort p f).samp = s.samp := rfl

/-! ## setLane -/

@[simp] theorem State.setLane_pending (s : State) (l : Nat) (x : Lane) : (s.setLane l x).pending = s.pending := rfl
@[simp] theorem State.setLane_part (s : State) (l : Nat) (x : Lane) : (s.setLane l x).part = s.part := rfl
@[simp] theorem State.setLane_time (s : State) (l : Nat) (x : Lane) : (s.setLane l x).time = s.time := rfl
@[simp] theorem State.setLane_ref (s : State) (l : Nat) (x : Lane) : (s.setLane l x).ref = s.ref := rfl
@[simp] theorem State.setLane_cyc (s : State) (l : Nat) (x : Lane) : (s.setLane l x).cyc = s.cyc := rfl
@[simp] theorem State.setLane_freeIdx (s : State) (l : Nat) (x : Lane) : (s.setLane l x).freeIdx = s.freeIdx := rfl
@[simp] theorem State.setLane_host (s : State) (l : Nat) (x : Lane) : (s.setLane l x).host = s.host := rfl
@[simp] theorem State.setLane_csr (s : State) (l : Nat) (x : Lane) : (s.setLane l x).csr = s.csr := rfl
@[simp] theorem State.setLane_ports (s : State) (l : Nat) (x : Lane) : (s.setLane l x).ports = s.ports := rfl
@[simp] theorem State.setLane_phy (s : State) (l : Nat) (x : Lane) : (s.setLane l x).phy = s.phy := rfl
@[simp] theorem State.setLane_links (s : State) (l : Nat) (x : Lane) : (s.setLane l x).links = s.links := rfl
@[simp] theorem State.setLane_sweep (s : State) (l : Nat) (x : Lane) : (s.setLane l x).sweep = s.sweep := rfl
@[simp] theorem State.setLane_activeCount (s : State) (l : Nat) (x : Lane) : (s.setLane l x).activeCount = s.activeCount := rfl
@[simp] theorem State.setLane_xbr (s : State) (l : Nat) (x : Lane) : (s.setLane l x).xbr = s.xbr := rfl
@[simp] theorem State.setLane_ni (s : State) (l : Nat) (x : Lane) : (s.setLane l x).ni = s.ni := rfl
@[simp] theorem State.setLane_knl (s : State) (l : Nat) (x : Lane) : (s.setLane l x).knl = s.knl := rfl
@[simp] theorem State.setLane_binds (s : State) (l : Nat) (x : Lane) : (s.setLane l x).binds = s.binds := rfl
@[simp] theorem State.setLane_quarTags (s : State) (l : Nat) (x : Lane) : (s.setLane l x).quarTags = s.quarTags := rfl
@[simp] theorem State.setLane_lastGen (s : State) (l : Nat) (x : Lane) : (s.setLane l x).lastGen = s.lastGen := rfl
@[simp] theorem State.setLane_cmds (s : State) (l : Nat) (x : Lane) : (s.setLane l x).cmds = s.cmds := rfl
@[simp] theorem State.setLane_pool (s : State) (l : Nat) (x : Lane) : (s.setLane l x).pool = s.pool := rfl
@[simp] theorem State.setLane_cryptoErr (s : State) (l : Nat) (x : Lane) : (s.setLane l x).cryptoErr = s.cryptoErr := rfl
@[simp] theorem State.setLane_rtv (s : State) (l : Nat) (x : Lane) : (s.setLane l x).rtv = s.rtv := rfl
@[simp] theorem State.setLane_isl (s : State) (l : Nat) (x : Lane) : (s.setLane l x).isl = s.isl := rfl
@[simp] theorem State.setLane_tray (s : State) (l : Nat) (x : Lane) : (s.setLane l x).tray = s.tray := rfl
@[simp] theorem State.setLane_spg (s : State) (l : Nat) (x : Lane) : (s.setLane l x).spg = s.spg := rfl
@[simp] theorem State.setLane_det (s : State) (l : Nat) (x : Lane) : (s.setLane l x).det = s.det := rfl
@[simp] theorem State.setLane_scents (s : State) (l : Nat) (x : Lane) : (s.setLane l x).scents = s.scents := rfl
@[simp] theorem State.setLane_hnd (s : State) (l : Nat) (x : Lane) : (s.setLane l x).hnd = s.hnd := rfl
@[simp] theorem State.setLane_klp (s : State) (l : Nat) (x : Lane) : (s.setLane l x).klp = s.klp := rfl
@[simp] theorem State.setLane_pwr (s : State) (l : Nat) (x : Lane) : (s.setLane l x).pwr = s.pwr := rfl
@[simp] theorem State.setLane_tcl (s : State) (l : Nat) (x : Lane) : (s.setLane l x).tcl = s.tcl := rfl
@[simp] theorem State.setLane_samp (s : State) (l : Nat) (x : Lane) : (s.setLane l x).samp = s.samp := rfl

/-! ## modLane -/

@[simp] theorem State.modLane_pending (s : State) (l : Nat) (f : Lane → Lane) : (s.modLane l f).pending = s.pending := rfl
@[simp] theorem State.modLane_part (s : State) (l : Nat) (f : Lane → Lane) : (s.modLane l f).part = s.part := rfl
@[simp] theorem State.modLane_time (s : State) (l : Nat) (f : Lane → Lane) : (s.modLane l f).time = s.time := rfl
@[simp] theorem State.modLane_ref (s : State) (l : Nat) (f : Lane → Lane) : (s.modLane l f).ref = s.ref := rfl
@[simp] theorem State.modLane_cyc (s : State) (l : Nat) (f : Lane → Lane) : (s.modLane l f).cyc = s.cyc := rfl
@[simp] theorem State.modLane_freeIdx (s : State) (l : Nat) (f : Lane → Lane) : (s.modLane l f).freeIdx = s.freeIdx := rfl
@[simp] theorem State.modLane_host (s : State) (l : Nat) (f : Lane → Lane) : (s.modLane l f).host = s.host := rfl
@[simp] theorem State.modLane_csr (s : State) (l : Nat) (f : Lane → Lane) : (s.modLane l f).csr = s.csr := rfl
@[simp] theorem State.modLane_ports (s : State) (l : Nat) (f : Lane → Lane) : (s.modLane l f).ports = s.ports := rfl
@[simp] theorem State.modLane_phy (s : State) (l : Nat) (f : Lane → Lane) : (s.modLane l f).phy = s.phy := rfl
@[simp] theorem State.modLane_links (s : State) (l : Nat) (f : Lane → Lane) : (s.modLane l f).links = s.links := rfl
@[simp] theorem State.modLane_sweep (s : State) (l : Nat) (f : Lane → Lane) : (s.modLane l f).sweep = s.sweep := rfl
@[simp] theorem State.modLane_activeCount (s : State) (l : Nat) (f : Lane → Lane) : (s.modLane l f).activeCount = s.activeCount := rfl
@[simp] theorem State.modLane_xbr (s : State) (l : Nat) (f : Lane → Lane) : (s.modLane l f).xbr = s.xbr := rfl
@[simp] theorem State.modLane_ni (s : State) (l : Nat) (f : Lane → Lane) : (s.modLane l f).ni = s.ni := rfl
@[simp] theorem State.modLane_knl (s : State) (l : Nat) (f : Lane → Lane) : (s.modLane l f).knl = s.knl := rfl
@[simp] theorem State.modLane_binds (s : State) (l : Nat) (f : Lane → Lane) : (s.modLane l f).binds = s.binds := rfl
@[simp] theorem State.modLane_quarTags (s : State) (l : Nat) (f : Lane → Lane) : (s.modLane l f).quarTags = s.quarTags := rfl
@[simp] theorem State.modLane_lastGen (s : State) (l : Nat) (f : Lane → Lane) : (s.modLane l f).lastGen = s.lastGen := rfl
@[simp] theorem State.modLane_cmds (s : State) (l : Nat) (f : Lane → Lane) : (s.modLane l f).cmds = s.cmds := rfl
@[simp] theorem State.modLane_pool (s : State) (l : Nat) (f : Lane → Lane) : (s.modLane l f).pool = s.pool := rfl
@[simp] theorem State.modLane_cryptoErr (s : State) (l : Nat) (f : Lane → Lane) : (s.modLane l f).cryptoErr = s.cryptoErr := rfl
@[simp] theorem State.modLane_rtv (s : State) (l : Nat) (f : Lane → Lane) : (s.modLane l f).rtv = s.rtv := rfl
@[simp] theorem State.modLane_isl (s : State) (l : Nat) (f : Lane → Lane) : (s.modLane l f).isl = s.isl := rfl
@[simp] theorem State.modLane_tray (s : State) (l : Nat) (f : Lane → Lane) : (s.modLane l f).tray = s.tray := rfl
@[simp] theorem State.modLane_spg (s : State) (l : Nat) (f : Lane → Lane) : (s.modLane l f).spg = s.spg := rfl
@[simp] theorem State.modLane_det (s : State) (l : Nat) (f : Lane → Lane) : (s.modLane l f).det = s.det := rfl
@[simp] theorem State.modLane_scents (s : State) (l : Nat) (f : Lane → Lane) : (s.modLane l f).scents = s.scents := rfl
@[simp] theorem State.modLane_hnd (s : State) (l : Nat) (f : Lane → Lane) : (s.modLane l f).hnd = s.hnd := rfl
@[simp] theorem State.modLane_klp (s : State) (l : Nat) (f : Lane → Lane) : (s.modLane l f).klp = s.klp := rfl
@[simp] theorem State.modLane_pwr (s : State) (l : Nat) (f : Lane → Lane) : (s.modLane l f).pwr = s.pwr := rfl
@[simp] theorem State.modLane_tcl (s : State) (l : Nat) (f : Lane → Lane) : (s.modLane l f).tcl = s.tcl := rfl
@[simp] theorem State.modLane_samp (s : State) (l : Nat) (f : Lane → Lane) : (s.modLane l f).samp = s.samp := rfl

/-! ## setLine -/

@[simp] theorem State.setLine_pending (s : State) (p : Nat) (x : Phy) : (s.setLine p x).pending = s.pending := rfl
@[simp] theorem State.setLine_part (s : State) (p : Nat) (x : Phy) : (s.setLine p x).part = s.part := rfl
@[simp] theorem State.setLine_time (s : State) (p : Nat) (x : Phy) : (s.setLine p x).time = s.time := rfl
@[simp] theorem State.setLine_ref (s : State) (p : Nat) (x : Phy) : (s.setLine p x).ref = s.ref := rfl
@[simp] theorem State.setLine_cyc (s : State) (p : Nat) (x : Phy) : (s.setLine p x).cyc = s.cyc := rfl
@[simp] theorem State.setLine_freeIdx (s : State) (p : Nat) (x : Phy) : (s.setLine p x).freeIdx = s.freeIdx := rfl
@[simp] theorem State.setLine_host (s : State) (p : Nat) (x : Phy) : (s.setLine p x).host = s.host := rfl
@[simp] theorem State.setLine_csr (s : State) (p : Nat) (x : Phy) : (s.setLine p x).csr = s.csr := rfl
@[simp] theorem State.setLine_ports (s : State) (p : Nat) (x : Phy) : (s.setLine p x).ports = s.ports := rfl
@[simp] theorem State.setLine_lanes (s : State) (p : Nat) (x : Phy) : (s.setLine p x).lanes = s.lanes := rfl
@[simp] theorem State.setLine_links (s : State) (p : Nat) (x : Phy) : (s.setLine p x).links = s.links := rfl
@[simp] theorem State.setLine_sweep (s : State) (p : Nat) (x : Phy) : (s.setLine p x).sweep = s.sweep := rfl
@[simp] theorem State.setLine_activeCount (s : State) (p : Nat) (x : Phy) : (s.setLine p x).activeCount = s.activeCount := rfl
@[simp] theorem State.setLine_xbr (s : State) (p : Nat) (x : Phy) : (s.setLine p x).xbr = s.xbr := rfl
@[simp] theorem State.setLine_ni (s : State) (p : Nat) (x : Phy) : (s.setLine p x).ni = s.ni := rfl
@[simp] theorem State.setLine_knl (s : State) (p : Nat) (x : Phy) : (s.setLine p x).knl = s.knl := rfl
@[simp] theorem State.setLine_binds (s : State) (p : Nat) (x : Phy) : (s.setLine p x).binds = s.binds := rfl
@[simp] theorem State.setLine_quarTags (s : State) (p : Nat) (x : Phy) : (s.setLine p x).quarTags = s.quarTags := rfl
@[simp] theorem State.setLine_lastGen (s : State) (p : Nat) (x : Phy) : (s.setLine p x).lastGen = s.lastGen := rfl
@[simp] theorem State.setLine_cmds (s : State) (p : Nat) (x : Phy) : (s.setLine p x).cmds = s.cmds := rfl
@[simp] theorem State.setLine_pool (s : State) (p : Nat) (x : Phy) : (s.setLine p x).pool = s.pool := rfl
@[simp] theorem State.setLine_cryptoErr (s : State) (p : Nat) (x : Phy) : (s.setLine p x).cryptoErr = s.cryptoErr := rfl
@[simp] theorem State.setLine_rtv (s : State) (p : Nat) (x : Phy) : (s.setLine p x).rtv = s.rtv := rfl
@[simp] theorem State.setLine_isl (s : State) (p : Nat) (x : Phy) : (s.setLine p x).isl = s.isl := rfl
@[simp] theorem State.setLine_tray (s : State) (p : Nat) (x : Phy) : (s.setLine p x).tray = s.tray := rfl
@[simp] theorem State.setLine_spg (s : State) (p : Nat) (x : Phy) : (s.setLine p x).spg = s.spg := rfl
@[simp] theorem State.setLine_det (s : State) (p : Nat) (x : Phy) : (s.setLine p x).det = s.det := rfl
@[simp] theorem State.setLine_scents (s : State) (p : Nat) (x : Phy) : (s.setLine p x).scents = s.scents := rfl
@[simp] theorem State.setLine_hnd (s : State) (p : Nat) (x : Phy) : (s.setLine p x).hnd = s.hnd := rfl
@[simp] theorem State.setLine_klp (s : State) (p : Nat) (x : Phy) : (s.setLine p x).klp = s.klp := rfl
@[simp] theorem State.setLine_pwr (s : State) (p : Nat) (x : Phy) : (s.setLine p x).pwr = s.pwr := rfl
@[simp] theorem State.setLine_tcl (s : State) (p : Nat) (x : Phy) : (s.setLine p x).tcl = s.tcl := rfl
@[simp] theorem State.setLine_samp (s : State) (p : Nat) (x : Phy) : (s.setLine p x).samp = s.samp := rfl

/-! ## modLine -/

@[simp] theorem State.modLine_pending (s : State) (p : Nat) (f : Phy → Phy) : (s.modLine p f).pending = s.pending := rfl
@[simp] theorem State.modLine_part (s : State) (p : Nat) (f : Phy → Phy) : (s.modLine p f).part = s.part := rfl
@[simp] theorem State.modLine_time (s : State) (p : Nat) (f : Phy → Phy) : (s.modLine p f).time = s.time := rfl
@[simp] theorem State.modLine_ref (s : State) (p : Nat) (f : Phy → Phy) : (s.modLine p f).ref = s.ref := rfl
@[simp] theorem State.modLine_cyc (s : State) (p : Nat) (f : Phy → Phy) : (s.modLine p f).cyc = s.cyc := rfl
@[simp] theorem State.modLine_freeIdx (s : State) (p : Nat) (f : Phy → Phy) : (s.modLine p f).freeIdx = s.freeIdx := rfl
@[simp] theorem State.modLine_host (s : State) (p : Nat) (f : Phy → Phy) : (s.modLine p f).host = s.host := rfl
@[simp] theorem State.modLine_csr (s : State) (p : Nat) (f : Phy → Phy) : (s.modLine p f).csr = s.csr := rfl
@[simp] theorem State.modLine_ports (s : State) (p : Nat) (f : Phy → Phy) : (s.modLine p f).ports = s.ports := rfl
@[simp] theorem State.modLine_lanes (s : State) (p : Nat) (f : Phy → Phy) : (s.modLine p f).lanes = s.lanes := rfl
@[simp] theorem State.modLine_links (s : State) (p : Nat) (f : Phy → Phy) : (s.modLine p f).links = s.links := rfl
@[simp] theorem State.modLine_sweep (s : State) (p : Nat) (f : Phy → Phy) : (s.modLine p f).sweep = s.sweep := rfl
@[simp] theorem State.modLine_activeCount (s : State) (p : Nat) (f : Phy → Phy) : (s.modLine p f).activeCount = s.activeCount := rfl
@[simp] theorem State.modLine_xbr (s : State) (p : Nat) (f : Phy → Phy) : (s.modLine p f).xbr = s.xbr := rfl
@[simp] theorem State.modLine_ni (s : State) (p : Nat) (f : Phy → Phy) : (s.modLine p f).ni = s.ni := rfl
@[simp] theorem State.modLine_knl (s : State) (p : Nat) (f : Phy → Phy) : (s.modLine p f).knl = s.knl := rfl
@[simp] theorem State.modLine_binds (s : State) (p : Nat) (f : Phy → Phy) : (s.modLine p f).binds = s.binds := rfl
@[simp] theorem State.modLine_quarTags (s : State) (p : Nat) (f : Phy → Phy) : (s.modLine p f).quarTags = s.quarTags := rfl
@[simp] theorem State.modLine_lastGen (s : State) (p : Nat) (f : Phy → Phy) : (s.modLine p f).lastGen = s.lastGen := rfl
@[simp] theorem State.modLine_cmds (s : State) (p : Nat) (f : Phy → Phy) : (s.modLine p f).cmds = s.cmds := rfl
@[simp] theorem State.modLine_pool (s : State) (p : Nat) (f : Phy → Phy) : (s.modLine p f).pool = s.pool := rfl
@[simp] theorem State.modLine_cryptoErr (s : State) (p : Nat) (f : Phy → Phy) : (s.modLine p f).cryptoErr = s.cryptoErr := rfl
@[simp] theorem State.modLine_rtv (s : State) (p : Nat) (f : Phy → Phy) : (s.modLine p f).rtv = s.rtv := rfl
@[simp] theorem State.modLine_isl (s : State) (p : Nat) (f : Phy → Phy) : (s.modLine p f).isl = s.isl := rfl
@[simp] theorem State.modLine_tray (s : State) (p : Nat) (f : Phy → Phy) : (s.modLine p f).tray = s.tray := rfl
@[simp] theorem State.modLine_spg (s : State) (p : Nat) (f : Phy → Phy) : (s.modLine p f).spg = s.spg := rfl
@[simp] theorem State.modLine_det (s : State) (p : Nat) (f : Phy → Phy) : (s.modLine p f).det = s.det := rfl
@[simp] theorem State.modLine_scents (s : State) (p : Nat) (f : Phy → Phy) : (s.modLine p f).scents = s.scents := rfl
@[simp] theorem State.modLine_hnd (s : State) (p : Nat) (f : Phy → Phy) : (s.modLine p f).hnd = s.hnd := rfl
@[simp] theorem State.modLine_klp (s : State) (p : Nat) (f : Phy → Phy) : (s.modLine p f).klp = s.klp := rfl
@[simp] theorem State.modLine_pwr (s : State) (p : Nat) (f : Phy → Phy) : (s.modLine p f).pwr = s.pwr := rfl
@[simp] theorem State.modLine_tcl (s : State) (p : Nat) (f : Phy → Phy) : (s.modLine p f).tcl = s.tcl := rfl
@[simp] theorem State.modLine_samp (s : State) (p : Nat) (f : Phy → Phy) : (s.modLine p f).samp = s.samp := rfl

/-! ## setLink -/

@[simp] theorem State.setLink_pending (s : State) (p : Nat) (x : Link) : (s.setLink p x).pending = s.pending := rfl
@[simp] theorem State.setLink_part (s : State) (p : Nat) (x : Link) : (s.setLink p x).part = s.part := rfl
@[simp] theorem State.setLink_time (s : State) (p : Nat) (x : Link) : (s.setLink p x).time = s.time := rfl
@[simp] theorem State.setLink_ref (s : State) (p : Nat) (x : Link) : (s.setLink p x).ref = s.ref := rfl
@[simp] theorem State.setLink_cyc (s : State) (p : Nat) (x : Link) : (s.setLink p x).cyc = s.cyc := rfl
@[simp] theorem State.setLink_freeIdx (s : State) (p : Nat) (x : Link) : (s.setLink p x).freeIdx = s.freeIdx := rfl
@[simp] theorem State.setLink_host (s : State) (p : Nat) (x : Link) : (s.setLink p x).host = s.host := rfl
@[simp] theorem State.setLink_csr (s : State) (p : Nat) (x : Link) : (s.setLink p x).csr = s.csr := rfl
@[simp] theorem State.setLink_ports (s : State) (p : Nat) (x : Link) : (s.setLink p x).ports = s.ports := rfl
@[simp] theorem State.setLink_lanes (s : State) (p : Nat) (x : Link) : (s.setLink p x).lanes = s.lanes := rfl
@[simp] theorem State.setLink_phy (s : State) (p : Nat) (x : Link) : (s.setLink p x).phy = s.phy := rfl
@[simp] theorem State.setLink_sweep (s : State) (p : Nat) (x : Link) : (s.setLink p x).sweep = s.sweep := rfl
@[simp] theorem State.setLink_activeCount (s : State) (p : Nat) (x : Link) : (s.setLink p x).activeCount = s.activeCount := rfl
@[simp] theorem State.setLink_xbr (s : State) (p : Nat) (x : Link) : (s.setLink p x).xbr = s.xbr := rfl
@[simp] theorem State.setLink_ni (s : State) (p : Nat) (x : Link) : (s.setLink p x).ni = s.ni := rfl
@[simp] theorem State.setLink_knl (s : State) (p : Nat) (x : Link) : (s.setLink p x).knl = s.knl := rfl
@[simp] theorem State.setLink_binds (s : State) (p : Nat) (x : Link) : (s.setLink p x).binds = s.binds := rfl
@[simp] theorem State.setLink_quarTags (s : State) (p : Nat) (x : Link) : (s.setLink p x).quarTags = s.quarTags := rfl
@[simp] theorem State.setLink_lastGen (s : State) (p : Nat) (x : Link) : (s.setLink p x).lastGen = s.lastGen := rfl
@[simp] theorem State.setLink_cmds (s : State) (p : Nat) (x : Link) : (s.setLink p x).cmds = s.cmds := rfl
@[simp] theorem State.setLink_pool (s : State) (p : Nat) (x : Link) : (s.setLink p x).pool = s.pool := rfl
@[simp] theorem State.setLink_cryptoErr (s : State) (p : Nat) (x : Link) : (s.setLink p x).cryptoErr = s.cryptoErr := rfl
@[simp] theorem State.setLink_rtv (s : State) (p : Nat) (x : Link) : (s.setLink p x).rtv = s.rtv := rfl
@[simp] theorem State.setLink_isl (s : State) (p : Nat) (x : Link) : (s.setLink p x).isl = s.isl := rfl
@[simp] theorem State.setLink_tray (s : State) (p : Nat) (x : Link) : (s.setLink p x).tray = s.tray := rfl
@[simp] theorem State.setLink_spg (s : State) (p : Nat) (x : Link) : (s.setLink p x).spg = s.spg := rfl
@[simp] theorem State.setLink_det (s : State) (p : Nat) (x : Link) : (s.setLink p x).det = s.det := rfl
@[simp] theorem State.setLink_scents (s : State) (p : Nat) (x : Link) : (s.setLink p x).scents = s.scents := rfl
@[simp] theorem State.setLink_hnd (s : State) (p : Nat) (x : Link) : (s.setLink p x).hnd = s.hnd := rfl
@[simp] theorem State.setLink_klp (s : State) (p : Nat) (x : Link) : (s.setLink p x).klp = s.klp := rfl
@[simp] theorem State.setLink_pwr (s : State) (p : Nat) (x : Link) : (s.setLink p x).pwr = s.pwr := rfl
@[simp] theorem State.setLink_tcl (s : State) (p : Nat) (x : Link) : (s.setLink p x).tcl = s.tcl := rfl
@[simp] theorem State.setLink_samp (s : State) (p : Nat) (x : Link) : (s.setLink p x).samp = s.samp := rfl

/-! ## modLink -/

@[simp] theorem State.modLink_pending (s : State) (p : Nat) (f : Link → Link) : (s.modLink p f).pending = s.pending := rfl
@[simp] theorem State.modLink_part (s : State) (p : Nat) (f : Link → Link) : (s.modLink p f).part = s.part := rfl
@[simp] theorem State.modLink_time (s : State) (p : Nat) (f : Link → Link) : (s.modLink p f).time = s.time := rfl
@[simp] theorem State.modLink_ref (s : State) (p : Nat) (f : Link → Link) : (s.modLink p f).ref = s.ref := rfl
@[simp] theorem State.modLink_cyc (s : State) (p : Nat) (f : Link → Link) : (s.modLink p f).cyc = s.cyc := rfl
@[simp] theorem State.modLink_freeIdx (s : State) (p : Nat) (f : Link → Link) : (s.modLink p f).freeIdx = s.freeIdx := rfl
@[simp] theorem State.modLink_host (s : State) (p : Nat) (f : Link → Link) : (s.modLink p f).host = s.host := rfl
@[simp] theorem State.modLink_csr (s : State) (p : Nat) (f : Link → Link) : (s.modLink p f).csr = s.csr := rfl
@[simp] theorem State.modLink_ports (s : State) (p : Nat) (f : Link → Link) : (s.modLink p f).ports = s.ports := rfl
@[simp] theorem State.modLink_lanes (s : State) (p : Nat) (f : Link → Link) : (s.modLink p f).lanes = s.lanes := rfl
@[simp] theorem State.modLink_phy (s : State) (p : Nat) (f : Link → Link) : (s.modLink p f).phy = s.phy := rfl
@[simp] theorem State.modLink_sweep (s : State) (p : Nat) (f : Link → Link) : (s.modLink p f).sweep = s.sweep := rfl
@[simp] theorem State.modLink_activeCount (s : State) (p : Nat) (f : Link → Link) : (s.modLink p f).activeCount = s.activeCount := rfl
@[simp] theorem State.modLink_xbr (s : State) (p : Nat) (f : Link → Link) : (s.modLink p f).xbr = s.xbr := rfl
@[simp] theorem State.modLink_ni (s : State) (p : Nat) (f : Link → Link) : (s.modLink p f).ni = s.ni := rfl
@[simp] theorem State.modLink_knl (s : State) (p : Nat) (f : Link → Link) : (s.modLink p f).knl = s.knl := rfl
@[simp] theorem State.modLink_binds (s : State) (p : Nat) (f : Link → Link) : (s.modLink p f).binds = s.binds := rfl
@[simp] theorem State.modLink_quarTags (s : State) (p : Nat) (f : Link → Link) : (s.modLink p f).quarTags = s.quarTags := rfl
@[simp] theorem State.modLink_lastGen (s : State) (p : Nat) (f : Link → Link) : (s.modLink p f).lastGen = s.lastGen := rfl
@[simp] theorem State.modLink_cmds (s : State) (p : Nat) (f : Link → Link) : (s.modLink p f).cmds = s.cmds := rfl
@[simp] theorem State.modLink_pool (s : State) (p : Nat) (f : Link → Link) : (s.modLink p f).pool = s.pool := rfl
@[simp] theorem State.modLink_cryptoErr (s : State) (p : Nat) (f : Link → Link) : (s.modLink p f).cryptoErr = s.cryptoErr := rfl
@[simp] theorem State.modLink_rtv (s : State) (p : Nat) (f : Link → Link) : (s.modLink p f).rtv = s.rtv := rfl
@[simp] theorem State.modLink_isl (s : State) (p : Nat) (f : Link → Link) : (s.modLink p f).isl = s.isl := rfl
@[simp] theorem State.modLink_tray (s : State) (p : Nat) (f : Link → Link) : (s.modLink p f).tray = s.tray := rfl
@[simp] theorem State.modLink_spg (s : State) (p : Nat) (f : Link → Link) : (s.modLink p f).spg = s.spg := rfl
@[simp] theorem State.modLink_det (s : State) (p : Nat) (f : Link → Link) : (s.modLink p f).det = s.det := rfl
@[simp] theorem State.modLink_scents (s : State) (p : Nat) (f : Link → Link) : (s.modLink p f).scents = s.scents := rfl
@[simp] theorem State.modLink_hnd (s : State) (p : Nat) (f : Link → Link) : (s.modLink p f).hnd = s.hnd := rfl
@[simp] theorem State.modLink_klp (s : State) (p : Nat) (f : Link → Link) : (s.modLink p f).klp = s.klp := rfl
@[simp] theorem State.modLink_pwr (s : State) (p : Nat) (f : Link → Link) : (s.modLink p f).pwr = s.pwr := rfl
@[simp] theorem State.modLink_tcl (s : State) (p : Nat) (f : Link → Link) : (s.modLink p f).tcl = s.tcl := rfl
@[simp] theorem State.modLink_samp (s : State) (p : Nat) (f : Link → Link) : (s.modLink p f).samp = s.samp := rfl

/-! ## setOutp -/

@[simp] theorem State.setOutp_pending (s : State) (p : Nat) (x : Outp) : (s.setOutp p x).pending = s.pending := rfl
@[simp] theorem State.setOutp_part (s : State) (p : Nat) (x : Outp) : (s.setOutp p x).part = s.part := rfl
@[simp] theorem State.setOutp_time (s : State) (p : Nat) (x : Outp) : (s.setOutp p x).time = s.time := rfl
@[simp] theorem State.setOutp_ref (s : State) (p : Nat) (x : Outp) : (s.setOutp p x).ref = s.ref := rfl
@[simp] theorem State.setOutp_cyc (s : State) (p : Nat) (x : Outp) : (s.setOutp p x).cyc = s.cyc := rfl
@[simp] theorem State.setOutp_freeIdx (s : State) (p : Nat) (x : Outp) : (s.setOutp p x).freeIdx = s.freeIdx := rfl
@[simp] theorem State.setOutp_host (s : State) (p : Nat) (x : Outp) : (s.setOutp p x).host = s.host := rfl
@[simp] theorem State.setOutp_csr (s : State) (p : Nat) (x : Outp) : (s.setOutp p x).csr = s.csr := rfl
@[simp] theorem State.setOutp_ports (s : State) (p : Nat) (x : Outp) : (s.setOutp p x).ports = s.ports := rfl
@[simp] theorem State.setOutp_lanes (s : State) (p : Nat) (x : Outp) : (s.setOutp p x).lanes = s.lanes := rfl
@[simp] theorem State.setOutp_phy (s : State) (p : Nat) (x : Outp) : (s.setOutp p x).phy = s.phy := rfl
@[simp] theorem State.setOutp_links (s : State) (p : Nat) (x : Outp) : (s.setOutp p x).links = s.links := rfl
@[simp] theorem State.setOutp_sweep (s : State) (p : Nat) (x : Outp) : (s.setOutp p x).sweep = s.sweep := rfl
@[simp] theorem State.setOutp_activeCount (s : State) (p : Nat) (x : Outp) : (s.setOutp p x).activeCount = s.activeCount := rfl
@[simp] theorem State.setOutp_ni (s : State) (p : Nat) (x : Outp) : (s.setOutp p x).ni = s.ni := rfl
@[simp] theorem State.setOutp_knl (s : State) (p : Nat) (x : Outp) : (s.setOutp p x).knl = s.knl := rfl
@[simp] theorem State.setOutp_binds (s : State) (p : Nat) (x : Outp) : (s.setOutp p x).binds = s.binds := rfl
@[simp] theorem State.setOutp_quarTags (s : State) (p : Nat) (x : Outp) : (s.setOutp p x).quarTags = s.quarTags := rfl
@[simp] theorem State.setOutp_lastGen (s : State) (p : Nat) (x : Outp) : (s.setOutp p x).lastGen = s.lastGen := rfl
@[simp] theorem State.setOutp_cmds (s : State) (p : Nat) (x : Outp) : (s.setOutp p x).cmds = s.cmds := rfl
@[simp] theorem State.setOutp_pool (s : State) (p : Nat) (x : Outp) : (s.setOutp p x).pool = s.pool := rfl
@[simp] theorem State.setOutp_cryptoErr (s : State) (p : Nat) (x : Outp) : (s.setOutp p x).cryptoErr = s.cryptoErr := rfl
@[simp] theorem State.setOutp_rtv (s : State) (p : Nat) (x : Outp) : (s.setOutp p x).rtv = s.rtv := rfl
@[simp] theorem State.setOutp_isl (s : State) (p : Nat) (x : Outp) : (s.setOutp p x).isl = s.isl := rfl
@[simp] theorem State.setOutp_tray (s : State) (p : Nat) (x : Outp) : (s.setOutp p x).tray = s.tray := rfl
@[simp] theorem State.setOutp_spg (s : State) (p : Nat) (x : Outp) : (s.setOutp p x).spg = s.spg := rfl
@[simp] theorem State.setOutp_det (s : State) (p : Nat) (x : Outp) : (s.setOutp p x).det = s.det := rfl
@[simp] theorem State.setOutp_scents (s : State) (p : Nat) (x : Outp) : (s.setOutp p x).scents = s.scents := rfl
@[simp] theorem State.setOutp_hnd (s : State) (p : Nat) (x : Outp) : (s.setOutp p x).hnd = s.hnd := rfl
@[simp] theorem State.setOutp_klp (s : State) (p : Nat) (x : Outp) : (s.setOutp p x).klp = s.klp := rfl
@[simp] theorem State.setOutp_pwr (s : State) (p : Nat) (x : Outp) : (s.setOutp p x).pwr = s.pwr := rfl
@[simp] theorem State.setOutp_tcl (s : State) (p : Nat) (x : Outp) : (s.setOutp p x).tcl = s.tcl := rfl
@[simp] theorem State.setOutp_samp (s : State) (p : Nat) (x : Outp) : (s.setOutp p x).samp = s.samp := rfl

/-! ## modOutp -/

@[simp] theorem State.modOutp_pending (s : State) (p : Nat) (f : Outp → Outp) : (s.modOutp p f).pending = s.pending := rfl
@[simp] theorem State.modOutp_part (s : State) (p : Nat) (f : Outp → Outp) : (s.modOutp p f).part = s.part := rfl
@[simp] theorem State.modOutp_time (s : State) (p : Nat) (f : Outp → Outp) : (s.modOutp p f).time = s.time := rfl
@[simp] theorem State.modOutp_ref (s : State) (p : Nat) (f : Outp → Outp) : (s.modOutp p f).ref = s.ref := rfl
@[simp] theorem State.modOutp_cyc (s : State) (p : Nat) (f : Outp → Outp) : (s.modOutp p f).cyc = s.cyc := rfl
@[simp] theorem State.modOutp_freeIdx (s : State) (p : Nat) (f : Outp → Outp) : (s.modOutp p f).freeIdx = s.freeIdx := rfl
@[simp] theorem State.modOutp_host (s : State) (p : Nat) (f : Outp → Outp) : (s.modOutp p f).host = s.host := rfl
@[simp] theorem State.modOutp_csr (s : State) (p : Nat) (f : Outp → Outp) : (s.modOutp p f).csr = s.csr := rfl
@[simp] theorem State.modOutp_ports (s : State) (p : Nat) (f : Outp → Outp) : (s.modOutp p f).ports = s.ports := rfl
@[simp] theorem State.modOutp_lanes (s : State) (p : Nat) (f : Outp → Outp) : (s.modOutp p f).lanes = s.lanes := rfl
@[simp] theorem State.modOutp_phy (s : State) (p : Nat) (f : Outp → Outp) : (s.modOutp p f).phy = s.phy := rfl
@[simp] theorem State.modOutp_links (s : State) (p : Nat) (f : Outp → Outp) : (s.modOutp p f).links = s.links := rfl
@[simp] theorem State.modOutp_sweep (s : State) (p : Nat) (f : Outp → Outp) : (s.modOutp p f).sweep = s.sweep := rfl
@[simp] theorem State.modOutp_activeCount (s : State) (p : Nat) (f : Outp → Outp) : (s.modOutp p f).activeCount = s.activeCount := rfl
@[simp] theorem State.modOutp_ni (s : State) (p : Nat) (f : Outp → Outp) : (s.modOutp p f).ni = s.ni := rfl
@[simp] theorem State.modOutp_knl (s : State) (p : Nat) (f : Outp → Outp) : (s.modOutp p f).knl = s.knl := rfl
@[simp] theorem State.modOutp_binds (s : State) (p : Nat) (f : Outp → Outp) : (s.modOutp p f).binds = s.binds := rfl
@[simp] theorem State.modOutp_quarTags (s : State) (p : Nat) (f : Outp → Outp) : (s.modOutp p f).quarTags = s.quarTags := rfl
@[simp] theorem State.modOutp_lastGen (s : State) (p : Nat) (f : Outp → Outp) : (s.modOutp p f).lastGen = s.lastGen := rfl
@[simp] theorem State.modOutp_cmds (s : State) (p : Nat) (f : Outp → Outp) : (s.modOutp p f).cmds = s.cmds := rfl
@[simp] theorem State.modOutp_pool (s : State) (p : Nat) (f : Outp → Outp) : (s.modOutp p f).pool = s.pool := rfl
@[simp] theorem State.modOutp_cryptoErr (s : State) (p : Nat) (f : Outp → Outp) : (s.modOutp p f).cryptoErr = s.cryptoErr := rfl
@[simp] theorem State.modOutp_rtv (s : State) (p : Nat) (f : Outp → Outp) : (s.modOutp p f).rtv = s.rtv := rfl
@[simp] theorem State.modOutp_isl (s : State) (p : Nat) (f : Outp → Outp) : (s.modOutp p f).isl = s.isl := rfl
@[simp] theorem State.modOutp_tray (s : State) (p : Nat) (f : Outp → Outp) : (s.modOutp p f).tray = s.tray := rfl
@[simp] theorem State.modOutp_spg (s : State) (p : Nat) (f : Outp → Outp) : (s.modOutp p f).spg = s.spg := rfl
@[simp] theorem State.modOutp_det (s : State) (p : Nat) (f : Outp → Outp) : (s.modOutp p f).det = s.det := rfl
@[simp] theorem State.modOutp_scents (s : State) (p : Nat) (f : Outp → Outp) : (s.modOutp p f).scents = s.scents := rfl
@[simp] theorem State.modOutp_hnd (s : State) (p : Nat) (f : Outp → Outp) : (s.modOutp p f).hnd = s.hnd := rfl
@[simp] theorem State.modOutp_klp (s : State) (p : Nat) (f : Outp → Outp) : (s.modOutp p f).klp = s.klp := rfl
@[simp] theorem State.modOutp_pwr (s : State) (p : Nat) (f : Outp → Outp) : (s.modOutp p f).pwr = s.pwr := rfl
@[simp] theorem State.modOutp_tcl (s : State) (p : Nat) (f : Outp → Outp) : (s.modOutp p f).tcl = s.tcl := rfl
@[simp] theorem State.modOutp_samp (s : State) (p : Nat) (f : Outp → Outp) : (s.modOutp p f).samp = s.samp := rfl

/-! ## setKennel -/

@[simp] theorem State.setKennel_pending (s : State) (k : Nat) (x : Kennel) : (s.setKennel k x).pending = s.pending := rfl
@[simp] theorem State.setKennel_part (s : State) (k : Nat) (x : Kennel) : (s.setKennel k x).part = s.part := rfl
@[simp] theorem State.setKennel_time (s : State) (k : Nat) (x : Kennel) : (s.setKennel k x).time = s.time := rfl
@[simp] theorem State.setKennel_ref (s : State) (k : Nat) (x : Kennel) : (s.setKennel k x).ref = s.ref := rfl
@[simp] theorem State.setKennel_cyc (s : State) (k : Nat) (x : Kennel) : (s.setKennel k x).cyc = s.cyc := rfl
@[simp] theorem State.setKennel_freeIdx (s : State) (k : Nat) (x : Kennel) : (s.setKennel k x).freeIdx = s.freeIdx := rfl
@[simp] theorem State.setKennel_host (s : State) (k : Nat) (x : Kennel) : (s.setKennel k x).host = s.host := rfl
@[simp] theorem State.setKennel_csr (s : State) (k : Nat) (x : Kennel) : (s.setKennel k x).csr = s.csr := rfl
@[simp] theorem State.setKennel_ports (s : State) (k : Nat) (x : Kennel) : (s.setKennel k x).ports = s.ports := rfl
@[simp] theorem State.setKennel_lanes (s : State) (k : Nat) (x : Kennel) : (s.setKennel k x).lanes = s.lanes := rfl
@[simp] theorem State.setKennel_phy (s : State) (k : Nat) (x : Kennel) : (s.setKennel k x).phy = s.phy := rfl
@[simp] theorem State.setKennel_links (s : State) (k : Nat) (x : Kennel) : (s.setKennel k x).links = s.links := rfl
@[simp] theorem State.setKennel_sweep (s : State) (k : Nat) (x : Kennel) : (s.setKennel k x).sweep = s.sweep := rfl
@[simp] theorem State.setKennel_activeCount (s : State) (k : Nat) (x : Kennel) : (s.setKennel k x).activeCount = s.activeCount := rfl
@[simp] theorem State.setKennel_xbr (s : State) (k : Nat) (x : Kennel) : (s.setKennel k x).xbr = s.xbr := rfl
@[simp] theorem State.setKennel_ni (s : State) (k : Nat) (x : Kennel) : (s.setKennel k x).ni = s.ni := rfl
@[simp] theorem State.setKennel_binds (s : State) (k : Nat) (x : Kennel) : (s.setKennel k x).binds = s.binds := rfl
@[simp] theorem State.setKennel_quarTags (s : State) (k : Nat) (x : Kennel) : (s.setKennel k x).quarTags = s.quarTags := rfl
@[simp] theorem State.setKennel_lastGen (s : State) (k : Nat) (x : Kennel) : (s.setKennel k x).lastGen = s.lastGen := rfl
@[simp] theorem State.setKennel_cmds (s : State) (k : Nat) (x : Kennel) : (s.setKennel k x).cmds = s.cmds := rfl
@[simp] theorem State.setKennel_pool (s : State) (k : Nat) (x : Kennel) : (s.setKennel k x).pool = s.pool := rfl
@[simp] theorem State.setKennel_cryptoErr (s : State) (k : Nat) (x : Kennel) : (s.setKennel k x).cryptoErr = s.cryptoErr := rfl
@[simp] theorem State.setKennel_rtv (s : State) (k : Nat) (x : Kennel) : (s.setKennel k x).rtv = s.rtv := rfl
@[simp] theorem State.setKennel_isl (s : State) (k : Nat) (x : Kennel) : (s.setKennel k x).isl = s.isl := rfl
@[simp] theorem State.setKennel_tray (s : State) (k : Nat) (x : Kennel) : (s.setKennel k x).tray = s.tray := rfl
@[simp] theorem State.setKennel_spg (s : State) (k : Nat) (x : Kennel) : (s.setKennel k x).spg = s.spg := rfl
@[simp] theorem State.setKennel_det (s : State) (k : Nat) (x : Kennel) : (s.setKennel k x).det = s.det := rfl
@[simp] theorem State.setKennel_scents (s : State) (k : Nat) (x : Kennel) : (s.setKennel k x).scents = s.scents := rfl
@[simp] theorem State.setKennel_hnd (s : State) (k : Nat) (x : Kennel) : (s.setKennel k x).hnd = s.hnd := rfl
@[simp] theorem State.setKennel_klp (s : State) (k : Nat) (x : Kennel) : (s.setKennel k x).klp = s.klp := rfl
@[simp] theorem State.setKennel_pwr (s : State) (k : Nat) (x : Kennel) : (s.setKennel k x).pwr = s.pwr := rfl
@[simp] theorem State.setKennel_tcl (s : State) (k : Nat) (x : Kennel) : (s.setKennel k x).tcl = s.tcl := rfl
@[simp] theorem State.setKennel_samp (s : State) (k : Nat) (x : Kennel) : (s.setKennel k x).samp = s.samp := rfl

/-! ## modKennel -/

@[simp] theorem State.modKennel_pending (s : State) (k : Nat) (f : Kennel → Kennel) : (s.modKennel k f).pending = s.pending := rfl
@[simp] theorem State.modKennel_part (s : State) (k : Nat) (f : Kennel → Kennel) : (s.modKennel k f).part = s.part := rfl
@[simp] theorem State.modKennel_time (s : State) (k : Nat) (f : Kennel → Kennel) : (s.modKennel k f).time = s.time := rfl
@[simp] theorem State.modKennel_ref (s : State) (k : Nat) (f : Kennel → Kennel) : (s.modKennel k f).ref = s.ref := rfl
@[simp] theorem State.modKennel_cyc (s : State) (k : Nat) (f : Kennel → Kennel) : (s.modKennel k f).cyc = s.cyc := rfl
@[simp] theorem State.modKennel_freeIdx (s : State) (k : Nat) (f : Kennel → Kennel) : (s.modKennel k f).freeIdx = s.freeIdx := rfl
@[simp] theorem State.modKennel_host (s : State) (k : Nat) (f : Kennel → Kennel) : (s.modKennel k f).host = s.host := rfl
@[simp] theorem State.modKennel_csr (s : State) (k : Nat) (f : Kennel → Kennel) : (s.modKennel k f).csr = s.csr := rfl
@[simp] theorem State.modKennel_ports (s : State) (k : Nat) (f : Kennel → Kennel) : (s.modKennel k f).ports = s.ports := rfl
@[simp] theorem State.modKennel_lanes (s : State) (k : Nat) (f : Kennel → Kennel) : (s.modKennel k f).lanes = s.lanes := rfl
@[simp] theorem State.modKennel_phy (s : State) (k : Nat) (f : Kennel → Kennel) : (s.modKennel k f).phy = s.phy := rfl
@[simp] theorem State.modKennel_links (s : State) (k : Nat) (f : Kennel → Kennel) : (s.modKennel k f).links = s.links := rfl
@[simp] theorem State.modKennel_sweep (s : State) (k : Nat) (f : Kennel → Kennel) : (s.modKennel k f).sweep = s.sweep := rfl
@[simp] theorem State.modKennel_activeCount (s : State) (k : Nat) (f : Kennel → Kennel) : (s.modKennel k f).activeCount = s.activeCount := rfl
@[simp] theorem State.modKennel_xbr (s : State) (k : Nat) (f : Kennel → Kennel) : (s.modKennel k f).xbr = s.xbr := rfl
@[simp] theorem State.modKennel_ni (s : State) (k : Nat) (f : Kennel → Kennel) : (s.modKennel k f).ni = s.ni := rfl
@[simp] theorem State.modKennel_binds (s : State) (k : Nat) (f : Kennel → Kennel) : (s.modKennel k f).binds = s.binds := rfl
@[simp] theorem State.modKennel_quarTags (s : State) (k : Nat) (f : Kennel → Kennel) : (s.modKennel k f).quarTags = s.quarTags := rfl
@[simp] theorem State.modKennel_lastGen (s : State) (k : Nat) (f : Kennel → Kennel) : (s.modKennel k f).lastGen = s.lastGen := rfl
@[simp] theorem State.modKennel_cmds (s : State) (k : Nat) (f : Kennel → Kennel) : (s.modKennel k f).cmds = s.cmds := rfl
@[simp] theorem State.modKennel_pool (s : State) (k : Nat) (f : Kennel → Kennel) : (s.modKennel k f).pool = s.pool := rfl
@[simp] theorem State.modKennel_cryptoErr (s : State) (k : Nat) (f : Kennel → Kennel) : (s.modKennel k f).cryptoErr = s.cryptoErr := rfl
@[simp] theorem State.modKennel_rtv (s : State) (k : Nat) (f : Kennel → Kennel) : (s.modKennel k f).rtv = s.rtv := rfl
@[simp] theorem State.modKennel_isl (s : State) (k : Nat) (f : Kennel → Kennel) : (s.modKennel k f).isl = s.isl := rfl
@[simp] theorem State.modKennel_tray (s : State) (k : Nat) (f : Kennel → Kennel) : (s.modKennel k f).tray = s.tray := rfl
@[simp] theorem State.modKennel_spg (s : State) (k : Nat) (f : Kennel → Kennel) : (s.modKennel k f).spg = s.spg := rfl
@[simp] theorem State.modKennel_det (s : State) (k : Nat) (f : Kennel → Kennel) : (s.modKennel k f).det = s.det := rfl
@[simp] theorem State.modKennel_scents (s : State) (k : Nat) (f : Kennel → Kennel) : (s.modKennel k f).scents = s.scents := rfl
@[simp] theorem State.modKennel_hnd (s : State) (k : Nat) (f : Kennel → Kennel) : (s.modKennel k f).hnd = s.hnd := rfl
@[simp] theorem State.modKennel_klp (s : State) (k : Nat) (f : Kennel → Kennel) : (s.modKennel k f).klp = s.klp := rfl
@[simp] theorem State.modKennel_pwr (s : State) (k : Nat) (f : Kennel → Kennel) : (s.modKennel k f).pwr = s.pwr := rfl
@[simp] theorem State.modKennel_tcl (s : State) (k : Nat) (f : Kennel → Kennel) : (s.modKennel k f).tcl = s.tcl := rfl
@[simp] theorem State.modKennel_samp (s : State) (k : Nat) (f : Kennel → Kennel) : (s.modKennel k f).samp = s.samp := rfl

/-! ## setCore -/

@[simp] theorem State.setCore_pending (s : State) (c : Nat) (x : Core) : (s.setCore c x).pending = s.pending := rfl
@[simp] theorem State.setCore_part (s : State) (c : Nat) (x : Core) : (s.setCore c x).part = s.part := rfl
@[simp] theorem State.setCore_time (s : State) (c : Nat) (x : Core) : (s.setCore c x).time = s.time := rfl
@[simp] theorem State.setCore_ref (s : State) (c : Nat) (x : Core) : (s.setCore c x).ref = s.ref := rfl
@[simp] theorem State.setCore_cyc (s : State) (c : Nat) (x : Core) : (s.setCore c x).cyc = s.cyc := rfl
@[simp] theorem State.setCore_freeIdx (s : State) (c : Nat) (x : Core) : (s.setCore c x).freeIdx = s.freeIdx := rfl
@[simp] theorem State.setCore_host (s : State) (c : Nat) (x : Core) : (s.setCore c x).host = s.host := rfl
@[simp] theorem State.setCore_csr (s : State) (c : Nat) (x : Core) : (s.setCore c x).csr = s.csr := rfl
@[simp] theorem State.setCore_ports (s : State) (c : Nat) (x : Core) : (s.setCore c x).ports = s.ports := rfl
@[simp] theorem State.setCore_lanes (s : State) (c : Nat) (x : Core) : (s.setCore c x).lanes = s.lanes := rfl
@[simp] theorem State.setCore_phy (s : State) (c : Nat) (x : Core) : (s.setCore c x).phy = s.phy := rfl
@[simp] theorem State.setCore_links (s : State) (c : Nat) (x : Core) : (s.setCore c x).links = s.links := rfl
@[simp] theorem State.setCore_sweep (s : State) (c : Nat) (x : Core) : (s.setCore c x).sweep = s.sweep := rfl
@[simp] theorem State.setCore_activeCount (s : State) (c : Nat) (x : Core) : (s.setCore c x).activeCount = s.activeCount := rfl
@[simp] theorem State.setCore_xbr (s : State) (c : Nat) (x : Core) : (s.setCore c x).xbr = s.xbr := rfl
@[simp] theorem State.setCore_ni (s : State) (c : Nat) (x : Core) : (s.setCore c x).ni = s.ni := rfl
@[simp] theorem State.setCore_knl (s : State) (c : Nat) (x : Core) : (s.setCore c x).knl = s.knl := rfl
@[simp] theorem State.setCore_binds (s : State) (c : Nat) (x : Core) : (s.setCore c x).binds = s.binds := rfl
@[simp] theorem State.setCore_quarTags (s : State) (c : Nat) (x : Core) : (s.setCore c x).quarTags = s.quarTags := rfl
@[simp] theorem State.setCore_lastGen (s : State) (c : Nat) (x : Core) : (s.setCore c x).lastGen = s.lastGen := rfl
@[simp] theorem State.setCore_cmds (s : State) (c : Nat) (x : Core) : (s.setCore c x).cmds = s.cmds := rfl
@[simp] theorem State.setCore_pool (s : State) (c : Nat) (x : Core) : (s.setCore c x).pool = s.pool := rfl
@[simp] theorem State.setCore_cryptoErr (s : State) (c : Nat) (x : Core) : (s.setCore c x).cryptoErr = s.cryptoErr := rfl
@[simp] theorem State.setCore_rtv (s : State) (c : Nat) (x : Core) : (s.setCore c x).rtv = s.rtv := rfl
@[simp] theorem State.setCore_tray (s : State) (c : Nat) (x : Core) : (s.setCore c x).tray = s.tray := rfl
@[simp] theorem State.setCore_spg (s : State) (c : Nat) (x : Core) : (s.setCore c x).spg = s.spg := rfl
@[simp] theorem State.setCore_det (s : State) (c : Nat) (x : Core) : (s.setCore c x).det = s.det := rfl
@[simp] theorem State.setCore_scents (s : State) (c : Nat) (x : Core) : (s.setCore c x).scents = s.scents := rfl
@[simp] theorem State.setCore_hnd (s : State) (c : Nat) (x : Core) : (s.setCore c x).hnd = s.hnd := rfl
@[simp] theorem State.setCore_klp (s : State) (c : Nat) (x : Core) : (s.setCore c x).klp = s.klp := rfl
@[simp] theorem State.setCore_pwr (s : State) (c : Nat) (x : Core) : (s.setCore c x).pwr = s.pwr := rfl
@[simp] theorem State.setCore_tcl (s : State) (c : Nat) (x : Core) : (s.setCore c x).tcl = s.tcl := rfl
@[simp] theorem State.setCore_samp (s : State) (c : Nat) (x : Core) : (s.setCore c x).samp = s.samp := rfl

/-! ## modCore -/

@[simp] theorem State.modCore_pending (s : State) (c : Nat) (f : Core → Core) : (s.modCore c f).pending = s.pending := rfl
@[simp] theorem State.modCore_part (s : State) (c : Nat) (f : Core → Core) : (s.modCore c f).part = s.part := rfl
@[simp] theorem State.modCore_time (s : State) (c : Nat) (f : Core → Core) : (s.modCore c f).time = s.time := rfl
@[simp] theorem State.modCore_ref (s : State) (c : Nat) (f : Core → Core) : (s.modCore c f).ref = s.ref := rfl
@[simp] theorem State.modCore_cyc (s : State) (c : Nat) (f : Core → Core) : (s.modCore c f).cyc = s.cyc := rfl
@[simp] theorem State.modCore_freeIdx (s : State) (c : Nat) (f : Core → Core) : (s.modCore c f).freeIdx = s.freeIdx := rfl
@[simp] theorem State.modCore_host (s : State) (c : Nat) (f : Core → Core) : (s.modCore c f).host = s.host := rfl
@[simp] theorem State.modCore_csr (s : State) (c : Nat) (f : Core → Core) : (s.modCore c f).csr = s.csr := rfl
@[simp] theorem State.modCore_ports (s : State) (c : Nat) (f : Core → Core) : (s.modCore c f).ports = s.ports := rfl
@[simp] theorem State.modCore_lanes (s : State) (c : Nat) (f : Core → Core) : (s.modCore c f).lanes = s.lanes := rfl
@[simp] theorem State.modCore_phy (s : State) (c : Nat) (f : Core → Core) : (s.modCore c f).phy = s.phy := rfl
@[simp] theorem State.modCore_links (s : State) (c : Nat) (f : Core → Core) : (s.modCore c f).links = s.links := rfl
@[simp] theorem State.modCore_sweep (s : State) (c : Nat) (f : Core → Core) : (s.modCore c f).sweep = s.sweep := rfl
@[simp] theorem State.modCore_activeCount (s : State) (c : Nat) (f : Core → Core) : (s.modCore c f).activeCount = s.activeCount := rfl
@[simp] theorem State.modCore_xbr (s : State) (c : Nat) (f : Core → Core) : (s.modCore c f).xbr = s.xbr := rfl
@[simp] theorem State.modCore_ni (s : State) (c : Nat) (f : Core → Core) : (s.modCore c f).ni = s.ni := rfl
@[simp] theorem State.modCore_knl (s : State) (c : Nat) (f : Core → Core) : (s.modCore c f).knl = s.knl := rfl
@[simp] theorem State.modCore_binds (s : State) (c : Nat) (f : Core → Core) : (s.modCore c f).binds = s.binds := rfl
@[simp] theorem State.modCore_quarTags (s : State) (c : Nat) (f : Core → Core) : (s.modCore c f).quarTags = s.quarTags := rfl
@[simp] theorem State.modCore_lastGen (s : State) (c : Nat) (f : Core → Core) : (s.modCore c f).lastGen = s.lastGen := rfl
@[simp] theorem State.modCore_cmds (s : State) (c : Nat) (f : Core → Core) : (s.modCore c f).cmds = s.cmds := rfl
@[simp] theorem State.modCore_pool (s : State) (c : Nat) (f : Core → Core) : (s.modCore c f).pool = s.pool := rfl
@[simp] theorem State.modCore_cryptoErr (s : State) (c : Nat) (f : Core → Core) : (s.modCore c f).cryptoErr = s.cryptoErr := rfl
@[simp] theorem State.modCore_rtv (s : State) (c : Nat) (f : Core → Core) : (s.modCore c f).rtv = s.rtv := rfl
@[simp] theorem State.modCore_tray (s : State) (c : Nat) (f : Core → Core) : (s.modCore c f).tray = s.tray := rfl
@[simp] theorem State.modCore_spg (s : State) (c : Nat) (f : Core → Core) : (s.modCore c f).spg = s.spg := rfl
@[simp] theorem State.modCore_det (s : State) (c : Nat) (f : Core → Core) : (s.modCore c f).det = s.det := rfl
@[simp] theorem State.modCore_scents (s : State) (c : Nat) (f : Core → Core) : (s.modCore c f).scents = s.scents := rfl
@[simp] theorem State.modCore_hnd (s : State) (c : Nat) (f : Core → Core) : (s.modCore c f).hnd = s.hnd := rfl
@[simp] theorem State.modCore_klp (s : State) (c : Nat) (f : Core → Core) : (s.modCore c f).klp = s.klp := rfl
@[simp] theorem State.modCore_pwr (s : State) (c : Nat) (f : Core → Core) : (s.modCore c f).pwr = s.pwr := rfl
@[simp] theorem State.modCore_tcl (s : State) (c : Nat) (f : Core → Core) : (s.modCore c f).tcl = s.tcl := rfl
@[simp] theorem State.modCore_samp (s : State) (c : Nat) (f : Core → Core) : (s.modCore c f).samp = s.samp := rfl

/-! ## setWindow -/

@[simp] theorem State.setWindow_pending (s : State) (i : Nat) (x : Window) : (s.setWindow i x).pending = s.pending := rfl
@[simp] theorem State.setWindow_part (s : State) (i : Nat) (x : Window) : (s.setWindow i x).part = s.part := rfl
@[simp] theorem State.setWindow_time (s : State) (i : Nat) (x : Window) : (s.setWindow i x).time = s.time := rfl
@[simp] theorem State.setWindow_ref (s : State) (i : Nat) (x : Window) : (s.setWindow i x).ref = s.ref := rfl
@[simp] theorem State.setWindow_cyc (s : State) (i : Nat) (x : Window) : (s.setWindow i x).cyc = s.cyc := rfl
@[simp] theorem State.setWindow_freeIdx (s : State) (i : Nat) (x : Window) : (s.setWindow i x).freeIdx = s.freeIdx := rfl
@[simp] theorem State.setWindow_host (s : State) (i : Nat) (x : Window) : (s.setWindow i x).host = s.host := rfl
@[simp] theorem State.setWindow_csr (s : State) (i : Nat) (x : Window) : (s.setWindow i x).csr = s.csr := rfl
@[simp] theorem State.setWindow_ports (s : State) (i : Nat) (x : Window) : (s.setWindow i x).ports = s.ports := rfl
@[simp] theorem State.setWindow_lanes (s : State) (i : Nat) (x : Window) : (s.setWindow i x).lanes = s.lanes := rfl
@[simp] theorem State.setWindow_phy (s : State) (i : Nat) (x : Window) : (s.setWindow i x).phy = s.phy := rfl
@[simp] theorem State.setWindow_links (s : State) (i : Nat) (x : Window) : (s.setWindow i x).links = s.links := rfl
@[simp] theorem State.setWindow_sweep (s : State) (i : Nat) (x : Window) : (s.setWindow i x).sweep = s.sweep := rfl
@[simp] theorem State.setWindow_activeCount (s : State) (i : Nat) (x : Window) : (s.setWindow i x).activeCount = s.activeCount := rfl
@[simp] theorem State.setWindow_xbr (s : State) (i : Nat) (x : Window) : (s.setWindow i x).xbr = s.xbr := rfl
@[simp] theorem State.setWindow_knl (s : State) (i : Nat) (x : Window) : (s.setWindow i x).knl = s.knl := rfl
@[simp] theorem State.setWindow_binds (s : State) (i : Nat) (x : Window) : (s.setWindow i x).binds = s.binds := rfl
@[simp] theorem State.setWindow_quarTags (s : State) (i : Nat) (x : Window) : (s.setWindow i x).quarTags = s.quarTags := rfl
@[simp] theorem State.setWindow_lastGen (s : State) (i : Nat) (x : Window) : (s.setWindow i x).lastGen = s.lastGen := rfl
@[simp] theorem State.setWindow_cmds (s : State) (i : Nat) (x : Window) : (s.setWindow i x).cmds = s.cmds := rfl
@[simp] theorem State.setWindow_pool (s : State) (i : Nat) (x : Window) : (s.setWindow i x).pool = s.pool := rfl
@[simp] theorem State.setWindow_cryptoErr (s : State) (i : Nat) (x : Window) : (s.setWindow i x).cryptoErr = s.cryptoErr := rfl
@[simp] theorem State.setWindow_rtv (s : State) (i : Nat) (x : Window) : (s.setWindow i x).rtv = s.rtv := rfl
@[simp] theorem State.setWindow_isl (s : State) (i : Nat) (x : Window) : (s.setWindow i x).isl = s.isl := rfl
@[simp] theorem State.setWindow_tray (s : State) (i : Nat) (x : Window) : (s.setWindow i x).tray = s.tray := rfl
@[simp] theorem State.setWindow_spg (s : State) (i : Nat) (x : Window) : (s.setWindow i x).spg = s.spg := rfl
@[simp] theorem State.setWindow_det (s : State) (i : Nat) (x : Window) : (s.setWindow i x).det = s.det := rfl
@[simp] theorem State.setWindow_scents (s : State) (i : Nat) (x : Window) : (s.setWindow i x).scents = s.scents := rfl
@[simp] theorem State.setWindow_hnd (s : State) (i : Nat) (x : Window) : (s.setWindow i x).hnd = s.hnd := rfl
@[simp] theorem State.setWindow_klp (s : State) (i : Nat) (x : Window) : (s.setWindow i x).klp = s.klp := rfl
@[simp] theorem State.setWindow_pwr (s : State) (i : Nat) (x : Window) : (s.setWindow i x).pwr = s.pwr := rfl
@[simp] theorem State.setWindow_tcl (s : State) (i : Nat) (x : Window) : (s.setWindow i x).tcl = s.tcl := rfl
@[simp] theorem State.setWindow_samp (s : State) (i : Nat) (x : Window) : (s.setWindow i x).samp = s.samp := rfl

/-! ## What is read back -/

@[simp] theorem State.setPort_port_same (s : State) (p : Nat) (x : Port) : (s.setPort p x).port p = x := by
  simp [State.setPort, State.port]
@[simp] theorem State.setPort_port_ne (s : State) {i j : Nat} (x : Port) (h : j ≠ i) :
    (s.setPort i x).port j = s.port j := by
  simp [State.setPort, State.port, Tbl.get_put_ne _ _ _ _ h]
@[simp] theorem State.modPort_port_same (s : State) (p : Nat) (f : Port → Port) :
    (s.modPort p f).port p = f (s.port p) := by simp [State.modPort]
@[simp] theorem State.modPort_port_ne (s : State) {i j : Nat} (f : Port → Port) (h : j ≠ i) :
    (s.modPort i f).port j = s.port j := by simp [State.modPort, h]
@[simp] theorem State.setLane_lane_same (s : State) (l : Nat) (x : Lane) : (s.setLane l x).lane l = x := by
  simp [State.setLane, State.lane]
@[simp] theorem State.setLane_lane_ne (s : State) {i j : Nat} (x : Lane) (h : j ≠ i) :
    (s.setLane i x).lane j = s.lane j := by
  simp [State.setLane, State.lane, Tbl.get_put_ne _ _ _ _ h]
@[simp] theorem State.modLane_lane_same (s : State) (l : Nat) (f : Lane → Lane) :
    (s.modLane l f).lane l = f (s.lane l) := by simp [State.modLane]
@[simp] theorem State.modLane_lane_ne (s : State) {i j : Nat} (f : Lane → Lane) (h : j ≠ i) :
    (s.modLane i f).lane j = s.lane j := by simp [State.modLane, h]
@[simp] theorem State.setLine_line_same (s : State) (p : Nat) (x : Phy) : (s.setLine p x).line p = x := by
  simp [State.setLine, State.line]
@[simp] theorem State.setLine_line_ne (s : State) {i j : Nat} (x : Phy) (h : j ≠ i) :
    (s.setLine i x).line j = s.line j := by
  simp [State.setLine, State.line, Tbl.get_put_ne _ _ _ _ h]
@[simp] theorem State.modLine_line_same (s : State) (p : Nat) (f : Phy → Phy) :
    (s.modLine p f).line p = f (s.line p) := by simp [State.modLine]
@[simp] theorem State.modLine_line_ne (s : State) {i j : Nat} (f : Phy → Phy) (h : j ≠ i) :
    (s.modLine i f).line j = s.line j := by simp [State.modLine, h]
@[simp] theorem State.setLink_link_same (s : State) (p : Nat) (x : Link) : (s.setLink p x).link p = x := by
  simp [State.setLink, State.link]
@[simp] theorem State.setLink_link_ne (s : State) {i j : Nat} (x : Link) (h : j ≠ i) :
    (s.setLink i x).link j = s.link j := by
  simp [State.setLink, State.link, Tbl.get_put_ne _ _ _ _ h]
@[simp] theorem State.modLink_link_same (s : State) (p : Nat) (f : Link → Link) :
    (s.modLink p f).link p = f (s.link p) := by simp [State.modLink]
@[simp] theorem State.modLink_link_ne (s : State) {i j : Nat} (f : Link → Link) (h : j ≠ i) :
    (s.modLink i f).link j = s.link j := by simp [State.modLink, h]
@[simp] theorem State.setOutp_outp_same (s : State) (p : Nat) (x : Outp) : (s.setOutp p x).outp p = x := by
  simp [State.setOutp, State.outp]
@[simp] theorem State.setOutp_outp_ne (s : State) {i j : Nat} (x : Outp) (h : j ≠ i) :
    (s.setOutp i x).outp j = s.outp j := by
  simp [State.setOutp, State.outp, Tbl.get_put_ne _ _ _ _ h]
@[simp] theorem State.modOutp_outp_same (s : State) (p : Nat) (f : Outp → Outp) :
    (s.modOutp p f).outp p = f (s.outp p) := by simp [State.modOutp]
@[simp] theorem State.modOutp_outp_ne (s : State) {i j : Nat} (f : Outp → Outp) (h : j ≠ i) :
    (s.modOutp i f).outp j = s.outp j := by simp [State.modOutp, h]
@[simp] theorem State.setKennel_kennel_same (s : State) (k : Nat) (x : Kennel) : (s.setKennel k x).kennel k = x := by
  simp [State.setKennel, State.kennel]
@[simp] theorem State.setKennel_kennel_ne (s : State) {i j : Nat} (x : Kennel) (h : j ≠ i) :
    (s.setKennel i x).kennel j = s.kennel j := by
  simp [State.setKennel, State.kennel, Tbl.get_put_ne _ _ _ _ h]
@[simp] theorem State.modKennel_kennel_same (s : State) (k : Nat) (f : Kennel → Kennel) :
    (s.modKennel k f).kennel k = f (s.kennel k) := by simp [State.modKennel]
@[simp] theorem State.modKennel_kennel_ne (s : State) {i j : Nat} (f : Kennel → Kennel) (h : j ≠ i) :
    (s.modKennel i f).kennel j = s.kennel j := by simp [State.modKennel, h]
@[simp] theorem State.setCore_core_same (s : State) (c : Nat) (x : Core) : (s.setCore c x).core c = x := by
  simp [State.setCore, State.core]
@[simp] theorem State.setCore_core_ne (s : State) {i j : Nat} (x : Core) (h : j ≠ i) :
    (s.setCore i x).core j = s.core j := by
  simp [State.setCore, State.core, Tbl.get_put_ne _ _ _ _ h]
@[simp] theorem State.modCore_core_same (s : State) (c : Nat) (f : Core → Core) :
    (s.modCore c f).core c = f (s.core c) := by simp [State.modCore]
@[simp] theorem State.modCore_core_ne (s : State) {i j : Nat} (f : Core → Core) (h : j ≠ i) :
    (s.modCore i f).core j = s.core j := by simp [State.modCore, h]
@[simp] theorem State.setWindow_window_same (s : State) (i : Nat) (x : Window) : (s.setWindow i x).window i = x := by
  simp [State.setWindow, State.window]
@[simp] theorem State.setWindow_window_ne (s : State) {i j : Nat} (x : Window) (h : j ≠ i) :
    (s.setWindow i x).window j = s.window j := by
  simp [State.setWindow, State.window, Tbl.get_put_ne _ _ _ _ h]
@[simp] theorem State.wr_port (s : State) (f : Fld) (v i : Nat) (j : Nat) : (s.wr f v i).port j = s.port j := rfl
@[simp] theorem State.wr_lane (s : State) (f : Fld) (v i : Nat) (j : Nat) : (s.wr f v i).lane j = s.lane j := rfl
@[simp] theorem State.wr_line (s : State) (f : Fld) (v i : Nat) (j : Nat) : (s.wr f v i).line j = s.line j := rfl
@[simp] theorem State.wr_link (s : State) (f : Fld) (v i : Nat) (j : Nat) : (s.wr f v i).link j = s.link j := rfl
@[simp] theorem State.wr_outp (s : State) (f : Fld) (v i : Nat) (j : Nat) : (s.wr f v i).outp j = s.outp j := rfl
@[simp] theorem State.wr_kennel (s : State) (f : Fld) (v i : Nat) (j : Nat) : (s.wr f v i).kennel j = s.kennel j := rfl
@[simp] theorem State.wr_core (s : State) (f : Fld) (v i : Nat) (j : Nat) : (s.wr f v i).core j = s.core j := rfl
@[simp] theorem State.wr_window (s : State) (f : Fld) (v i : Nat) (j : Nat) : (s.wr f v i).window j = s.window j := rfl
@[simp] theorem State.setPort_lane (s : State) (p : Nat) (x : Port) (j : Nat) : (s.setPort p x).lane j = s.lane j := rfl
@[simp] theorem State.setPort_line (s : State) (p : Nat) (x : Port) (j : Nat) : (s.setPort p x).line j = s.line j := rfl
@[simp] theorem State.setPort_link (s : State) (p : Nat) (x : Port) (j : Nat) : (s.setPort p x).link j = s.link j := rfl
@[simp] theorem State.setPort_outp (s : State) (p : Nat) (x : Port) (j : Nat) : (s.setPort p x).outp j = s.outp j := rfl
@[simp] theorem State.setPort_kennel (s : State) (p : Nat) (x : Port) (j : Nat) : (s.setPort p x).kennel j = s.kennel j := rfl
@[simp] theorem State.setPort_core (s : State) (p : Nat) (x : Port) (j : Nat) : (s.setPort p x).core j = s.core j := rfl
@[simp] theorem State.setPort_window (s : State) (p : Nat) (x : Port) (j : Nat) : (s.setPort p x).window j = s.window j := rfl
@[simp] theorem State.setPort_rd (s : State) (p : Nat) (x : Port) (g : Fld) (j : Nat) : (s.setPort p x).rd g j = s.rd g j := rfl
@[simp] theorem State.setPort_rdB (s : State) (p : Nat) (x : Port) (g : Fld) (j : Nat) : (s.setPort p x).rdB g j = s.rdB g j := rfl
@[simp] theorem State.setPort_sealed' (s : State) (p : Nat) (x : Port) : (s.setPort p x).sealed' = s.sealed' := rfl
@[simp] theorem State.modPort_lane (s : State) (p : Nat) (f : Port → Port) (j : Nat) : (s.modPort p f).lane j = s.lane j := rfl
@[simp] theorem State.modPort_line (s : State) (p : Nat) (f : Port → Port) (j : Nat) : (s.modPort p f).line j = s.line j := rfl
@[simp] theorem State.modPort_link (s : State) (p : Nat) (f : Port → Port) (j : Nat) : (s.modPort p f).link j = s.link j := rfl
@[simp] theorem State.modPort_outp (s : State) (p : Nat) (f : Port → Port) (j : Nat) : (s.modPort p f).outp j = s.outp j := rfl
@[simp] theorem State.modPort_kennel (s : State) (p : Nat) (f : Port → Port) (j : Nat) : (s.modPort p f).kennel j = s.kennel j := rfl
@[simp] theorem State.modPort_core (s : State) (p : Nat) (f : Port → Port) (j : Nat) : (s.modPort p f).core j = s.core j := rfl
@[simp] theorem State.modPort_window (s : State) (p : Nat) (f : Port → Port) (j : Nat) : (s.modPort p f).window j = s.window j := rfl
@[simp] theorem State.modPort_rd (s : State) (p : Nat) (f : Port → Port) (g : Fld) (j : Nat) : (s.modPort p f).rd g j = s.rd g j := rfl
@[simp] theorem State.modPort_rdB (s : State) (p : Nat) (f : Port → Port) (g : Fld) (j : Nat) : (s.modPort p f).rdB g j = s.rdB g j := rfl
@[simp] theorem State.modPort_sealed' (s : State) (p : Nat) (f : Port → Port) : (s.modPort p f).sealed' = s.sealed' := rfl
@[simp] theorem State.setLane_port (s : State) (l : Nat) (x : Lane) (j : Nat) : (s.setLane l x).port j = s.port j := rfl
@[simp] theorem State.setLane_line (s : State) (l : Nat) (x : Lane) (j : Nat) : (s.setLane l x).line j = s.line j := rfl
@[simp] theorem State.setLane_link (s : State) (l : Nat) (x : Lane) (j : Nat) : (s.setLane l x).link j = s.link j := rfl
@[simp] theorem State.setLane_outp (s : State) (l : Nat) (x : Lane) (j : Nat) : (s.setLane l x).outp j = s.outp j := rfl
@[simp] theorem State.setLane_kennel (s : State) (l : Nat) (x : Lane) (j : Nat) : (s.setLane l x).kennel j = s.kennel j := rfl
@[simp] theorem State.setLane_core (s : State) (l : Nat) (x : Lane) (j : Nat) : (s.setLane l x).core j = s.core j := rfl
@[simp] theorem State.setLane_window (s : State) (l : Nat) (x : Lane) (j : Nat) : (s.setLane l x).window j = s.window j := rfl
@[simp] theorem State.setLane_rd (s : State) (l : Nat) (x : Lane) (g : Fld) (j : Nat) : (s.setLane l x).rd g j = s.rd g j := rfl
@[simp] theorem State.setLane_rdB (s : State) (l : Nat) (x : Lane) (g : Fld) (j : Nat) : (s.setLane l x).rdB g j = s.rdB g j := rfl
@[simp] theorem State.setLane_sealed' (s : State) (l : Nat) (x : Lane) : (s.setLane l x).sealed' = s.sealed' := rfl
@[simp] theorem State.modLane_port (s : State) (l : Nat) (f : Lane → Lane) (j : Nat) : (s.modLane l f).port j = s.port j := rfl
@[simp] theorem State.modLane_line (s : State) (l : Nat) (f : Lane → Lane) (j : Nat) : (s.modLane l f).line j = s.line j := rfl
@[simp] theorem State.modLane_link (s : State) (l : Nat) (f : Lane → Lane) (j : Nat) : (s.modLane l f).link j = s.link j := rfl
@[simp] theorem State.modLane_outp (s : State) (l : Nat) (f : Lane → Lane) (j : Nat) : (s.modLane l f).outp j = s.outp j := rfl
@[simp] theorem State.modLane_kennel (s : State) (l : Nat) (f : Lane → Lane) (j : Nat) : (s.modLane l f).kennel j = s.kennel j := rfl
@[simp] theorem State.modLane_core (s : State) (l : Nat) (f : Lane → Lane) (j : Nat) : (s.modLane l f).core j = s.core j := rfl
@[simp] theorem State.modLane_window (s : State) (l : Nat) (f : Lane → Lane) (j : Nat) : (s.modLane l f).window j = s.window j := rfl
@[simp] theorem State.modLane_rd (s : State) (l : Nat) (f : Lane → Lane) (g : Fld) (j : Nat) : (s.modLane l f).rd g j = s.rd g j := rfl
@[simp] theorem State.modLane_rdB (s : State) (l : Nat) (f : Lane → Lane) (g : Fld) (j : Nat) : (s.modLane l f).rdB g j = s.rdB g j := rfl
@[simp] theorem State.modLane_sealed' (s : State) (l : Nat) (f : Lane → Lane) : (s.modLane l f).sealed' = s.sealed' := rfl
@[simp] theorem State.setLine_port (s : State) (p : Nat) (x : Phy) (j : Nat) : (s.setLine p x).port j = s.port j := rfl
@[simp] theorem State.setLine_lane (s : State) (p : Nat) (x : Phy) (j : Nat) : (s.setLine p x).lane j = s.lane j := rfl
@[simp] theorem State.setLine_link (s : State) (p : Nat) (x : Phy) (j : Nat) : (s.setLine p x).link j = s.link j := rfl
@[simp] theorem State.setLine_outp (s : State) (p : Nat) (x : Phy) (j : Nat) : (s.setLine p x).outp j = s.outp j := rfl
@[simp] theorem State.setLine_kennel (s : State) (p : Nat) (x : Phy) (j : Nat) : (s.setLine p x).kennel j = s.kennel j := rfl
@[simp] theorem State.setLine_core (s : State) (p : Nat) (x : Phy) (j : Nat) : (s.setLine p x).core j = s.core j := rfl
@[simp] theorem State.setLine_window (s : State) (p : Nat) (x : Phy) (j : Nat) : (s.setLine p x).window j = s.window j := rfl
@[simp] theorem State.setLine_rd (s : State) (p : Nat) (x : Phy) (g : Fld) (j : Nat) : (s.setLine p x).rd g j = s.rd g j := rfl
@[simp] theorem State.setLine_rdB (s : State) (p : Nat) (x : Phy) (g : Fld) (j : Nat) : (s.setLine p x).rdB g j = s.rdB g j := rfl
@[simp] theorem State.setLine_sealed' (s : State) (p : Nat) (x : Phy) : (s.setLine p x).sealed' = s.sealed' := rfl
@[simp] theorem State.modLine_port (s : State) (p : Nat) (f : Phy → Phy) (j : Nat) : (s.modLine p f).port j = s.port j := rfl
@[simp] theorem State.modLine_lane (s : State) (p : Nat) (f : Phy → Phy) (j : Nat) : (s.modLine p f).lane j = s.lane j := rfl
@[simp] theorem State.modLine_link (s : State) (p : Nat) (f : Phy → Phy) (j : Nat) : (s.modLine p f).link j = s.link j := rfl
@[simp] theorem State.modLine_outp (s : State) (p : Nat) (f : Phy → Phy) (j : Nat) : (s.modLine p f).outp j = s.outp j := rfl
@[simp] theorem State.modLine_kennel (s : State) (p : Nat) (f : Phy → Phy) (j : Nat) : (s.modLine p f).kennel j = s.kennel j := rfl
@[simp] theorem State.modLine_core (s : State) (p : Nat) (f : Phy → Phy) (j : Nat) : (s.modLine p f).core j = s.core j := rfl
@[simp] theorem State.modLine_window (s : State) (p : Nat) (f : Phy → Phy) (j : Nat) : (s.modLine p f).window j = s.window j := rfl
@[simp] theorem State.modLine_rd (s : State) (p : Nat) (f : Phy → Phy) (g : Fld) (j : Nat) : (s.modLine p f).rd g j = s.rd g j := rfl
@[simp] theorem State.modLine_rdB (s : State) (p : Nat) (f : Phy → Phy) (g : Fld) (j : Nat) : (s.modLine p f).rdB g j = s.rdB g j := rfl
@[simp] theorem State.modLine_sealed' (s : State) (p : Nat) (f : Phy → Phy) : (s.modLine p f).sealed' = s.sealed' := rfl
@[simp] theorem State.setLink_port (s : State) (p : Nat) (x : Link) (j : Nat) : (s.setLink p x).port j = s.port j := rfl
@[simp] theorem State.setLink_lane (s : State) (p : Nat) (x : Link) (j : Nat) : (s.setLink p x).lane j = s.lane j := rfl
@[simp] theorem State.setLink_line (s : State) (p : Nat) (x : Link) (j : Nat) : (s.setLink p x).line j = s.line j := rfl
@[simp] theorem State.setLink_outp (s : State) (p : Nat) (x : Link) (j : Nat) : (s.setLink p x).outp j = s.outp j := rfl
@[simp] theorem State.setLink_kennel (s : State) (p : Nat) (x : Link) (j : Nat) : (s.setLink p x).kennel j = s.kennel j := rfl
@[simp] theorem State.setLink_core (s : State) (p : Nat) (x : Link) (j : Nat) : (s.setLink p x).core j = s.core j := rfl
@[simp] theorem State.setLink_window (s : State) (p : Nat) (x : Link) (j : Nat) : (s.setLink p x).window j = s.window j := rfl
@[simp] theorem State.setLink_rd (s : State) (p : Nat) (x : Link) (g : Fld) (j : Nat) : (s.setLink p x).rd g j = s.rd g j := rfl
@[simp] theorem State.setLink_rdB (s : State) (p : Nat) (x : Link) (g : Fld) (j : Nat) : (s.setLink p x).rdB g j = s.rdB g j := rfl
@[simp] theorem State.setLink_sealed' (s : State) (p : Nat) (x : Link) : (s.setLink p x).sealed' = s.sealed' := rfl
@[simp] theorem State.modLink_port (s : State) (p : Nat) (f : Link → Link) (j : Nat) : (s.modLink p f).port j = s.port j := rfl
@[simp] theorem State.modLink_lane (s : State) (p : Nat) (f : Link → Link) (j : Nat) : (s.modLink p f).lane j = s.lane j := rfl
@[simp] theorem State.modLink_line (s : State) (p : Nat) (f : Link → Link) (j : Nat) : (s.modLink p f).line j = s.line j := rfl
@[simp] theorem State.modLink_outp (s : State) (p : Nat) (f : Link → Link) (j : Nat) : (s.modLink p f).outp j = s.outp j := rfl
@[simp] theorem State.modLink_kennel (s : State) (p : Nat) (f : Link → Link) (j : Nat) : (s.modLink p f).kennel j = s.kennel j := rfl
@[simp] theorem State.modLink_core (s : State) (p : Nat) (f : Link → Link) (j : Nat) : (s.modLink p f).core j = s.core j := rfl
@[simp] theorem State.modLink_window (s : State) (p : Nat) (f : Link → Link) (j : Nat) : (s.modLink p f).window j = s.window j := rfl
@[simp] theorem State.modLink_rd (s : State) (p : Nat) (f : Link → Link) (g : Fld) (j : Nat) : (s.modLink p f).rd g j = s.rd g j := rfl
@[simp] theorem State.modLink_rdB (s : State) (p : Nat) (f : Link → Link) (g : Fld) (j : Nat) : (s.modLink p f).rdB g j = s.rdB g j := rfl
@[simp] theorem State.modLink_sealed' (s : State) (p : Nat) (f : Link → Link) : (s.modLink p f).sealed' = s.sealed' := rfl
@[simp] theorem State.setOutp_port (s : State) (p : Nat) (x : Outp) (j : Nat) : (s.setOutp p x).port j = s.port j := rfl
@[simp] theorem State.setOutp_lane (s : State) (p : Nat) (x : Outp) (j : Nat) : (s.setOutp p x).lane j = s.lane j := rfl
@[simp] theorem State.setOutp_line (s : State) (p : Nat) (x : Outp) (j : Nat) : (s.setOutp p x).line j = s.line j := rfl
@[simp] theorem State.setOutp_link (s : State) (p : Nat) (x : Outp) (j : Nat) : (s.setOutp p x).link j = s.link j := rfl
@[simp] theorem State.setOutp_kennel (s : State) (p : Nat) (x : Outp) (j : Nat) : (s.setOutp p x).kennel j = s.kennel j := rfl
@[simp] theorem State.setOutp_core (s : State) (p : Nat) (x : Outp) (j : Nat) : (s.setOutp p x).core j = s.core j := rfl
@[simp] theorem State.setOutp_window (s : State) (p : Nat) (x : Outp) (j : Nat) : (s.setOutp p x).window j = s.window j := rfl
@[simp] theorem State.setOutp_rd (s : State) (p : Nat) (x : Outp) (g : Fld) (j : Nat) : (s.setOutp p x).rd g j = s.rd g j := rfl
@[simp] theorem State.setOutp_rdB (s : State) (p : Nat) (x : Outp) (g : Fld) (j : Nat) : (s.setOutp p x).rdB g j = s.rdB g j := rfl
@[simp] theorem State.setOutp_sealed' (s : State) (p : Nat) (x : Outp) : (s.setOutp p x).sealed' = s.sealed' := rfl
@[simp] theorem State.modOutp_port (s : State) (p : Nat) (f : Outp → Outp) (j : Nat) : (s.modOutp p f).port j = s.port j := rfl
@[simp] theorem State.modOutp_lane (s : State) (p : Nat) (f : Outp → Outp) (j : Nat) : (s.modOutp p f).lane j = s.lane j := rfl
@[simp] theorem State.modOutp_line (s : State) (p : Nat) (f : Outp → Outp) (j : Nat) : (s.modOutp p f).line j = s.line j := rfl
@[simp] theorem State.modOutp_link (s : State) (p : Nat) (f : Outp → Outp) (j : Nat) : (s.modOutp p f).link j = s.link j := rfl
@[simp] theorem State.modOutp_kennel (s : State) (p : Nat) (f : Outp → Outp) (j : Nat) : (s.modOutp p f).kennel j = s.kennel j := rfl
@[simp] theorem State.modOutp_core (s : State) (p : Nat) (f : Outp → Outp) (j : Nat) : (s.modOutp p f).core j = s.core j := rfl
@[simp] theorem State.modOutp_window (s : State) (p : Nat) (f : Outp → Outp) (j : Nat) : (s.modOutp p f).window j = s.window j := rfl
@[simp] theorem State.modOutp_rd (s : State) (p : Nat) (f : Outp → Outp) (g : Fld) (j : Nat) : (s.modOutp p f).rd g j = s.rd g j := rfl
@[simp] theorem State.modOutp_rdB (s : State) (p : Nat) (f : Outp → Outp) (g : Fld) (j : Nat) : (s.modOutp p f).rdB g j = s.rdB g j := rfl
@[simp] theorem State.modOutp_sealed' (s : State) (p : Nat) (f : Outp → Outp) : (s.modOutp p f).sealed' = s.sealed' := rfl
@[simp] theorem State.setKennel_port (s : State) (k : Nat) (x : Kennel) (j : Nat) : (s.setKennel k x).port j = s.port j := rfl
@[simp] theorem State.setKennel_lane (s : State) (k : Nat) (x : Kennel) (j : Nat) : (s.setKennel k x).lane j = s.lane j := rfl
@[simp] theorem State.setKennel_line (s : State) (k : Nat) (x : Kennel) (j : Nat) : (s.setKennel k x).line j = s.line j := rfl
@[simp] theorem State.setKennel_link (s : State) (k : Nat) (x : Kennel) (j : Nat) : (s.setKennel k x).link j = s.link j := rfl
@[simp] theorem State.setKennel_outp (s : State) (k : Nat) (x : Kennel) (j : Nat) : (s.setKennel k x).outp j = s.outp j := rfl
@[simp] theorem State.setKennel_core (s : State) (k : Nat) (x : Kennel) (j : Nat) : (s.setKennel k x).core j = s.core j := rfl
@[simp] theorem State.setKennel_window (s : State) (k : Nat) (x : Kennel) (j : Nat) : (s.setKennel k x).window j = s.window j := rfl
@[simp] theorem State.setKennel_rd (s : State) (k : Nat) (x : Kennel) (g : Fld) (j : Nat) : (s.setKennel k x).rd g j = s.rd g j := rfl
@[simp] theorem State.setKennel_rdB (s : State) (k : Nat) (x : Kennel) (g : Fld) (j : Nat) : (s.setKennel k x).rdB g j = s.rdB g j := rfl
@[simp] theorem State.setKennel_sealed' (s : State) (k : Nat) (x : Kennel) : (s.setKennel k x).sealed' = s.sealed' := rfl
@[simp] theorem State.modKennel_port (s : State) (k : Nat) (f : Kennel → Kennel) (j : Nat) : (s.modKennel k f).port j = s.port j := rfl
@[simp] theorem State.modKennel_lane (s : State) (k : Nat) (f : Kennel → Kennel) (j : Nat) : (s.modKennel k f).lane j = s.lane j := rfl
@[simp] theorem State.modKennel_line (s : State) (k : Nat) (f : Kennel → Kennel) (j : Nat) : (s.modKennel k f).line j = s.line j := rfl
@[simp] theorem State.modKennel_link (s : State) (k : Nat) (f : Kennel → Kennel) (j : Nat) : (s.modKennel k f).link j = s.link j := rfl
@[simp] theorem State.modKennel_outp (s : State) (k : Nat) (f : Kennel → Kennel) (j : Nat) : (s.modKennel k f).outp j = s.outp j := rfl
@[simp] theorem State.modKennel_core (s : State) (k : Nat) (f : Kennel → Kennel) (j : Nat) : (s.modKennel k f).core j = s.core j := rfl
@[simp] theorem State.modKennel_window (s : State) (k : Nat) (f : Kennel → Kennel) (j : Nat) : (s.modKennel k f).window j = s.window j := rfl
@[simp] theorem State.modKennel_rd (s : State) (k : Nat) (f : Kennel → Kennel) (g : Fld) (j : Nat) : (s.modKennel k f).rd g j = s.rd g j := rfl
@[simp] theorem State.modKennel_rdB (s : State) (k : Nat) (f : Kennel → Kennel) (g : Fld) (j : Nat) : (s.modKennel k f).rdB g j = s.rdB g j := rfl
@[simp] theorem State.modKennel_sealed' (s : State) (k : Nat) (f : Kennel → Kennel) : (s.modKennel k f).sealed' = s.sealed' := rfl
@[simp] theorem State.setCore_port (s : State) (c : Nat) (x : Core) (j : Nat) : (s.setCore c x).port j = s.port j := rfl
@[simp] theorem State.setCore_lane (s : State) (c : Nat) (x : Core) (j : Nat) : (s.setCore c x).lane j = s.lane j := rfl
@[simp] theorem State.setCore_line (s : State) (c : Nat) (x : Core) (j : Nat) : (s.setCore c x).line j = s.line j := rfl
@[simp] theorem State.setCore_link (s : State) (c : Nat) (x : Core) (j : Nat) : (s.setCore c x).link j = s.link j := rfl
@[simp] theorem State.setCore_outp (s : State) (c : Nat) (x : Core) (j : Nat) : (s.setCore c x).outp j = s.outp j := rfl
@[simp] theorem State.setCore_kennel (s : State) (c : Nat) (x : Core) (j : Nat) : (s.setCore c x).kennel j = s.kennel j := rfl
@[simp] theorem State.setCore_window (s : State) (c : Nat) (x : Core) (j : Nat) : (s.setCore c x).window j = s.window j := rfl
@[simp] theorem State.setCore_rd (s : State) (c : Nat) (x : Core) (g : Fld) (j : Nat) : (s.setCore c x).rd g j = s.rd g j := rfl
@[simp] theorem State.setCore_rdB (s : State) (c : Nat) (x : Core) (g : Fld) (j : Nat) : (s.setCore c x).rdB g j = s.rdB g j := rfl
@[simp] theorem State.setCore_sealed' (s : State) (c : Nat) (x : Core) : (s.setCore c x).sealed' = s.sealed' := rfl
@[simp] theorem State.modCore_port (s : State) (c : Nat) (f : Core → Core) (j : Nat) : (s.modCore c f).port j = s.port j := rfl
@[simp] theorem State.modCore_lane (s : State) (c : Nat) (f : Core → Core) (j : Nat) : (s.modCore c f).lane j = s.lane j := rfl
@[simp] theorem State.modCore_line (s : State) (c : Nat) (f : Core → Core) (j : Nat) : (s.modCore c f).line j = s.line j := rfl
@[simp] theorem State.modCore_link (s : State) (c : Nat) (f : Core → Core) (j : Nat) : (s.modCore c f).link j = s.link j := rfl
@[simp] theorem State.modCore_outp (s : State) (c : Nat) (f : Core → Core) (j : Nat) : (s.modCore c f).outp j = s.outp j := rfl
@[simp] theorem State.modCore_kennel (s : State) (c : Nat) (f : Core → Core) (j : Nat) : (s.modCore c f).kennel j = s.kennel j := rfl
@[simp] theorem State.modCore_window (s : State) (c : Nat) (f : Core → Core) (j : Nat) : (s.modCore c f).window j = s.window j := rfl
@[simp] theorem State.modCore_rd (s : State) (c : Nat) (f : Core → Core) (g : Fld) (j : Nat) : (s.modCore c f).rd g j = s.rd g j := rfl
@[simp] theorem State.modCore_rdB (s : State) (c : Nat) (f : Core → Core) (g : Fld) (j : Nat) : (s.modCore c f).rdB g j = s.rdB g j := rfl
@[simp] theorem State.modCore_sealed' (s : State) (c : Nat) (f : Core → Core) : (s.modCore c f).sealed' = s.sealed' := rfl
@[simp] theorem State.setWindow_port (s : State) (i : Nat) (x : Window) (j : Nat) : (s.setWindow i x).port j = s.port j := rfl
@[simp] theorem State.setWindow_lane (s : State) (i : Nat) (x : Window) (j : Nat) : (s.setWindow i x).lane j = s.lane j := rfl
@[simp] theorem State.setWindow_line (s : State) (i : Nat) (x : Window) (j : Nat) : (s.setWindow i x).line j = s.line j := rfl
@[simp] theorem State.setWindow_link (s : State) (i : Nat) (x : Window) (j : Nat) : (s.setWindow i x).link j = s.link j := rfl
@[simp] theorem State.setWindow_outp (s : State) (i : Nat) (x : Window) (j : Nat) : (s.setWindow i x).outp j = s.outp j := rfl
@[simp] theorem State.setWindow_kennel (s : State) (i : Nat) (x : Window) (j : Nat) : (s.setWindow i x).kennel j = s.kennel j := rfl
@[simp] theorem State.setWindow_core (s : State) (i : Nat) (x : Window) (j : Nat) : (s.setWindow i x).core j = s.core j := rfl
@[simp] theorem State.setWindow_rd (s : State) (i : Nat) (x : Window) (g : Fld) (j : Nat) : (s.setWindow i x).rd g j = s.rd g j := rfl
@[simp] theorem State.setWindow_rdB (s : State) (i : Nat) (x : Window) (g : Fld) (j : Nat) : (s.setWindow i x).rdB g j = s.rdB g j := rfl
@[simp] theorem State.setWindow_sealed' (s : State) (i : Nat) (x : Window) : (s.setWindow i x).sealed' = s.sealed' := rfl

@[simp] theorem State.rd_wr_same (s : State) (f : Fld) (v i : Nat) : (s.wr f v i).rd f i = v % 2 ^ f.w := by
  simp [State.wr, State.rd]

theorem State.rd_wr_ne (s : State) {f g : Fld} (v : Nat) {i j : Nat} (h : fkey g j ≠ fkey f i) :
    (s.wr f v i).rd g j = s.rd g j := by
  simp [State.wr, State.rd, Tbl.get_put_ne _ _ _ _ h]

theorem State.rdB_wr_ne (s : State) {f g : Fld} (v : Nat) {i j : Nat} (h : fkey g j ≠ fkey f i) :
    (s.wr f v i).rdB g j = s.rdB g j := by
  simp [State.rdB, State.rd_wr_ne s v h]

end Sys2Proof.Machine
end

