-- ==== Sys2Proof/Laws/Hound.lean ====
section
/-! SUPPORT. How a command ends: with no action of Hound waiting, the command's own effect is all of it; in the safe state
a unit does nothing (R473). -/

namespace Sys2Proof.Machine

theorem houndRun_nil (n : Nat) (s : State) (h : s.hnd.todo = []) : houndRun n s = s := by
  cases n with
  | zero => rfl
  | succ n => simp [houndRun, h]

theorem settle_nil (s : State) (h : s.hnd.todo = []) : settle s = s := houndRun_nil _ s h

theorem fin_nil (s : State) (h : s.hnd.todo = []) : fin s = .next s := by simp [fin, settle_nil s h]

theorem live_quiet (f : State → State) (s : State) (hs : s.sealed' = false) (h : (f s).hnd.todo = []) :
    live f s = .next (f s) := by simp [live, hs, fin_nil _ h]

theorem live_sealed (f : State → State) (s : State) (hs : s.sealed' = true) : live f s = .next s := by
  simp [live, hs]

theorem liveUnit_quiet (i b : Nat) (f : State → State) (s : State) (hi : i < b) (hs : s.sealed' = false)
    (h : (f s).hnd.todo = []) : liveUnit i b f s = .next (f s) := by
  simp [liveUnit, hi, live_quiet f s hs h]

theorem liveUnit_sealed (i b : Nat) (f : State → State) (s : State) (hi : i < b) (hs : s.sealed' = true) :
    liveUnit i b f s = .next s := by simp [liveUnit, hi, live_sealed f s hs]

theorem finUnit_quiet (i b : Nat) (f : State → State) (s : State) (hi : i < b) (h : (f s).hnd.todo = []) :
    finUnit i b f s = .next (f s) := by simp [finUnit, hi, fin_nil _ h]

theorem liveUnit_bad (i b : Nat) (f : State → State) (s : State) (hi : b ≤ i) :
    liveUnit i b f s = .fault .noSuchUnit := by simp [liveUnit, Nat.not_lt.mpr hi]

/-- What ends in `fin` answers a next state. -/
theorem fin_next (s : State) : ∃ t, fin s = .next t := ⟨_, rfl⟩

theorem live_next (f : State → State) (s : State) : ∃ t, live f s = .next t := by
  unfold live; split
  · exact ⟨_, rfl⟩
  · exact fin_next _

theorem liveUnit_next (i b : Nat) (f : State → State) (s : State) (hi : i < b) : ∃ t, liveUnit i b f s = .next t := by
  simpa [liveUnit, hi] using live_next f s

theorem finUnit_next (i b : Nat) (f : State → State) (s : State) (hi : i < b) : ∃ t, finUnit i b f s = .next t := by
  simpa [finUnit, hi] using fin_next (f s)

end Sys2Proof.Machine
end

