-- ==== Sys2Proof/Laws/Line.lean ====
section
/-! SUPPORT. The receiver recovers what the precoder was given (R25). -/

namespace Sys2Proof.Machine

theorem unprecode_precode (p : BitVec 2) (g : Nat) (h : g < 4) :
    unprecodeStep p.toNat (BitVec.ofNat 2 (precodeStep p.toNat g)).toNat = g := by
  have := p.isLt
  simp only [unprecodeStep, precodeStep, BitVec.toNat_ofNat]; omega

/-- The Gray indices of a lane come back from its levels, and both ends hold the same last level. -/
theorem recovered_precoded (l : List Nat) (p : BitVec 2) (h : ∀ g ∈ l, g < 4) :
    recovered (precoded l p).1 p = (l, (precoded l p).2) := by
  induction l generalizing p with
  | nil => rfl
  | cons g t ih =>
    have := ih (BitVec.ofNat 2 (precodeStep p.toNat g)) fun x hx => h x (.tail _ hx)
    simp only [precoded, recovered, this, unprecode_precode p g (h g (.head _))]

end Sys2Proof.Machine
end

