-- ==== Sys2Proof/Laws/Pool.lean ====
section
/-! SUPPORT. The pool's memory: a byte stored is read back, every other byte stays, and the canonical form is kept by
every operation on memory. -/

namespace Sys2Proof.Machine

@[simp] theorem Pool.byte_setByte_same (p : Pool) (a : Nat) (b : Byte) : (p.setByte a b).byte a = b := by
  simp [Pool.setByte, Pool.byte]

theorem Pool.byte_setByte_ne (p : Pool) {a q : Nat} (b : Byte) (h : q ≠ a) :
    (p.setByte a b).byte q = p.byte q := by
  simp [Pool.setByte, Pool.byte, Tbl.get_put_ne _ _ _ _ h]

theorem Pool.wf_setByte (p : Pool) (a : Nat) (b : Byte) (h : p.wf = true) : (p.setByte a b).wf = true := by
  simp only [Pool.wf, Bool.and_eq_true] at h ⊢
  refine ⟨Tbl.sorted_put _ _ _ _ h.1, ?_⟩
  have := Tbl.all_put p.mem a b 0 (by simpa using h.2)
  simpa [Pool.setByte] using this

theorem Pool.wf_setBytes (l : List Byte) (p : Pool) (a : Nat) (h : p.wf = true) : (p.setBytes a l).wf = true := by
  induction l generalizing p a with
  | nil => exact h
  | cons b l ih => exact ih _ _ (Pool.wf_setByte p a b h)

/-- Bytes below the first stored one stay. -/
theorem Pool.byte_setBytes_below (l : List Byte) (p : Pool) {a q : Nat} (h : q < a) :
    (p.setBytes a l).byte q = p.byte q := by
  induction l generalizing p a with
  | nil => rfl
  | cons b l ih =>
    simp only [Pool.setBytes]
    rw [ih _ (by omega), Pool.byte_setByte_ne _ _ (by omega)]

/-- Bytes above the last stored one stay. -/
theorem Pool.byte_setBytes_above (l : List Byte) (p : Pool) {a q : Nat} (h : a + l.length ≤ q) :
    (p.setBytes a l).byte q = p.byte q := by
  induction l generalizing p a with
  | nil => rfl
  | cons b l ih =>
    simp only [List.length_cons] at h
    simp only [Pool.setBytes]
    rw [ih _ (by omega), Pool.byte_setByte_ne _ _ (by omega)]

/-- Dropping cells keeps the canonical form. -/
theorem Pool.wf_filter (p : Pool) (f : Host.Cell → Bool) (h : p.wf = true) :
    ({ p with mem := p.mem.filter f } : Pool).wf = true := by
  simp only [Pool.wf, Bool.and_eq_true] at h ⊢
  refine ⟨?_, ?_⟩
  · have key : ∀ m : Tbl Byte, Tbl.sorted m = true → Tbl.sorted (m.filter f) = true := by
      intro m
      induction m with
      | nil => intro _; rfl
      | cons e m ih =>
        intro hs
        obtain ⟨j, v⟩ := e
        rw [Tbl.sorted_cons] at hs
        have hab : Tbl.above j (m.filter f) := by
          have : ∀ u : Tbl Byte, Tbl.above j u → Tbl.above j (u.filter f) := by
            intro u
            induction u with
            | nil => intro _; trivial
            | cons e u ihu =>
              intro hu
              by_cases he : f e = true
              · simp only [List.filter, he]; exact ⟨hu.1, ihu hu.2⟩
              · simp only [List.filter, he]; exact ihu hu.2
          exact this m hs.1
        by_cases he : f (j, v) = true
        · simp only [List.filter, he]
          rw [Tbl.sorted_cons]
          exact ⟨hab, ih hs.2⟩
        · simp only [List.filter, he]
          exact ih hs.2
    exact key _ h.1
  · simp only [List.all_eq_true] at h ⊢
    intro x hx
    exact h.2 x (List.mem_filter.mp hx).1

theorem sramWf_store (d : List Byte) (t : Tbl Byte) (a : Nat) (h : sramWf t = true) : sramWf (sramStore a d t) = true := by
  induction d generalizing t a with
  | nil => exact h
  | cons b d ih =>
    refine ih _ _ ?_
    simp only [sramWf, Bool.and_eq_true] at h ⊢
    exact ⟨Tbl.sorted_put _ _ _ _ h.1, by simpa using Tbl.all_put t a b 0 (by simpa using h.2)⟩

theorem State.reset_sram_wf : sramWf State.reset.klp.sram = true := rfl

theorem State.reset_pool_wf : State.reset.pool.wf = true := rfl

end Sys2Proof.Machine
end

