-- ==== Sys2Proof/Laws/Units.lean ====
section
/-! SUPPORT. The units' tables: what was changed is read back, every other unit stays; the lanes of a port; a port that
leaves ACTIVE or enters DETECT. -/

namespace Sys2Proof.Machine

@[simp] theorem modLane_same (s : State) (l : Nat) (f : Lane → Lane) : (s.modLane l f).lane l = f (s.lane l) := by
  simp [State.modLane, State.setLane, State.lane]
theorem modLane_ne (s : State) {l k : Nat} (f : Lane → Lane) (h : k ≠ l) : (s.modLane l f).lane k = s.lane k := by
  simp [State.modLane, State.setLane, State.lane, Tbl.get_put_ne _ _ _ _ h]
@[simp] theorem modPort_same (s : State) (p : Nat) (f : Port → Port) : (s.modPort p f).port p = f (s.port p) := by
  simp [State.modPort, State.setPort, State.port]
theorem modPort_ne (s : State) {p k : Nat} (f : Port → Port) (h : k ≠ p) : (s.modPort p f).port k = s.port k := by
  simp [State.modPort, State.setPort, State.port, Tbl.get_put_ne _ _ _ _ h]
@[simp] theorem modLink_same (s : State) (p : Nat) (f : Link → Link) : (s.modLink p f).link p = f (s.link p) := by
  simp [State.modLink, State.setLink, State.link]
theorem modLink_ne (s : State) {p k : Nat} (f : Link → Link) (h : k ≠ p) : (s.modLink p f).link k = s.link k := by
  simp [State.modLink, State.setLink, State.link, Tbl.get_put_ne _ _ _ _ h]
@[simp] theorem modOutp_same (s : State) (p : Nat) (f : Outp → Outp) : (s.modOutp p f).outp p = f (s.outp p) := by
  simp [State.modOutp, State.setOutp, State.outp]
@[simp] theorem modKennel_same (s : State) (k : Nat) (f : Kennel → Kennel) :
    (s.modKennel k f).kennel k = f (s.kennel k) := by simp [State.modKennel, State.setKennel, State.kennel]
theorem modKennel_ne (s : State) {k j : Nat} (f : Kennel → Kennel) (h : j ≠ k) :
    (s.modKennel k f).kennel j = s.kennel j := by
  simp [State.modKennel, State.setKennel, State.kennel, Tbl.get_put_ne _ _ _ _ h]
@[simp] theorem setKennel_same (s : State) (k : Nat) (x : Kennel) : (s.setKennel k x).kennel k = x := by
  simp [State.setKennel, State.kennel]
theorem setKennel_ne (s : State) {k j : Nat} (x : Kennel) (h : j ≠ k) : (s.setKennel k x).kennel j = s.kennel j := by
  simp [State.setKennel, State.kennel, Tbl.get_put_ne _ _ _ _ h]
@[simp] theorem modCore_same (s : State) (c : Nat) (f : Core → Core) : (s.modCore c f).core c = f (s.core c) := by
  simp [State.modCore, State.setCore, State.core]
theorem modCore_ne (s : State) {c j : Nat} (f : Core → Core) (h : j ≠ c) : (s.modCore c f).core j = s.core j := by
  simp [State.modCore, State.setCore, State.core, Tbl.get_put_ne _ _ _ _ h]

/-- The four lanes of a port are changed. -/
theorem modLanes_eq (s : State) (p : Nat) (f : Lane → Lane) : s.modLanes p f =
    (((s.modLane (4 * p) f).modLane (4 * p + 1) f).modLane (4 * p + 2) f).modLane (4 * p + 3) f := by
  simp [State.modLanes, lanesOf, upto, List.range, List.range.loop, Nat.add_comm]

@[simp] theorem modLanes_port (s : State) (p q : Nat) (f : Lane → Lane) : (s.modLanes p f).port q = s.port q := by
  simp [modLanes_eq]
@[simp] theorem modLanes_link (s : State) (p q : Nat) (f : Lane → Lane) : (s.modLanes p f).link q = s.link q := by
  simp [modLanes_eq]
@[simp] theorem modLanes_rd (s : State) (p : Nat) (f : Lane → Lane) (g : Fld) (j : Nat) :
    (s.modLanes p f).rd g j = s.rd g j := by simp [modLanes_eq]
@[simp] theorem modLanes_hnd (s : State) (p : Nat) (f : Lane → Lane) : (s.modLanes p f).hnd = s.hnd := by
  simp [modLanes_eq]
theorem modLanes_frame (s : State) (p : Nat) (f : Lane → Lane) :
    s.modLanes p f = { s with lanes := (s.modLanes p f).lanes } := by
  simp [modLanes_eq, State.modLane, State.setLane]
theorem modLanes_same (s : State) (p i : Nat) (f : Lane → Lane) (h : i < 4) :
    (s.modLanes p f).lane (4 * p + i) = f (s.lane (4 * p + i)) := by
  rw [modLanes_eq]
  have : i = 0 ∨ i = 1 ∨ i = 2 ∨ i = 3 := by omega
  rcases this with rfl | rfl | rfl | rfl <;> simp +arith
theorem modLanes_ne (s : State) (p l : Nat) (f : Lane → Lane) (h : l / 4 ≠ p) :
    (s.modLanes p f).lane l = s.lane l := by
  rw [modLanes_eq, modLane_ne, modLane_ne, modLane_ne, modLane_ne] <;> omega

/-- A lane of another port is none of the port's four. -/
theorem lane_ne {p l : Nat} (h : l / 4 ≠ p) : l ≠ 4 * p ∧ l ≠ 4 * p + 1 ∧ l ≠ 4 * p + 2 ∧ l ≠ 4 * p + 3 := by omega

@[simp] theorem linkEvent_port (s : State) (q : Nat) : (linkEvent s).port q = s.port q := by
  unfold linkEvent; split <;> rfl
@[simp] theorem linkEvent_lane (s : State) (q : Nat) : (linkEvent s).lane q = s.lane q := by
  unfold linkEvent; split <;> rfl
@[simp] theorem linkEvent_link (s : State) (q : Nat) : (linkEvent s).link q = s.link q := by
  unfold linkEvent; split <;> rfl
@[simp] theorem linkEvent_hnd (s : State) : (linkEvent s).hnd = s.hnd := by unfold linkEvent; split <;> rfl
@[simp] theorem linkEvent_csr (s : State) : (linkEvent s).csr = s.csr := by unfold linkEvent; split <;> rfl
@[simp] theorem linkEvent_xbr (s : State) : (linkEvent s).xbr = s.xbr := by unfold linkEvent; split <;> rfl
@[simp] theorem linkEvent_spg (s : State) : (linkEvent s).spg = s.spg := by unfold linkEvent; split <;> rfl
@[simp] theorem linkEvent_det (s : State) : (linkEvent s).det = s.det := by unfold linkEvent; split <;> rfl
@[simp] theorem linkEvent_activeCount (s : State) : (linkEvent s).activeCount = s.activeCount := by
  unfold linkEvent; split <;> rfl
@[simp] theorem linkEvent_rd (s : State) (g : Fld) (j : Nat) : (linkEvent s).rd g j = s.rd g j := by
  unfold linkEvent; split <;> rfl

/-- What a count may change: registers, samples and the index of the free values. -/
def CountsOnly (s t : State) : Prop := t = { s with csr := t.csr, samp := t.samp, freeIdx := t.freeIdx }

theorem CountsOnly.refl (s : State) : CountsOnly s s := rfl

theorem CountsOnly.trans {s t u : State} (h : CountsOnly s t) (k : CountsOnly t u) : CountsOnly s u := by
  unfold CountsOnly at *; rw [k, h]

theorem CountsOnly.foldl {α : Type} (f : State → α → State) (h : ∀ s a, CountsOnly s (f s a)) (l : List α) (s : State) :
    CountsOnly s (l.foldl f s) := by
  induction l generalizing s with
  | nil => exact .refl s
  | cons a l ih => exact (h s a).trans (ih _)

theorem CountsOnly.link {s t : State} (h : CountsOnly s t) (p : Nat) : t.link p = s.link p := by rw [h]; rfl
theorem CountsOnly.port {s t : State} (h : CountsOnly s t) (p : Nat) : t.port p = s.port p := by rw [h]; rfl
theorem CountsOnly.lane {s t : State} (h : CountsOnly s t) (l : Nat) : t.lane l = s.lane l := by rw [h]; rfl
theorem CountsOnly.hnd {s t : State} (h : CountsOnly s t) : t.hnd = s.hnd := by rw [h]

theorem sampled_frame (s : State) (f : Fld) (i n : Nat) :
    CountsOnly s (let (r, s) := sampleRecord s f i n; pushSample s r) := by
  have h : (sampleRecord s f i n).2 = { s with freeIdx := s.freeIdx + 1 } := by
    show Prod.snd (match f.reg with | .CTR_CORE => _ | _ => _) = _
    generalize f.reg = r
    cases r <;> rfl
  have k : ∀ (t : State) (r : SRec), CountsOnly t (pushSample t r) := by
    intro t r; unfold pushSample; split <;> rfl
  exact CountsOnly.trans (t := (sampleRecord s f i n).2) (by rw [h]; rfl) (k _ _)

/-- A count writes its counter and takes samples; nothing else changes. -/
theorem count_frame (s : State) (f : Fld) (i n : Nat) : CountsOnly s (s.count f i n) :=
  CountsOnly.trans (t := s.wr f _ i) rfl (CountsOnly.foldl _ (fun s a => sampled_frame s f i a) _ _)

theorem countCause_frame (i o : Nat) (c : Cause) (s : State) : CountsOnly s (countCause i o c s) := by
  unfold countCause
  split
  · exact count_frame ..
  · split <;> split <;> first | exact count_frame .. | exact .refl s

theorem countStaged_frame (p n : Nat) (s : State) : CountsOnly s (countStaged p n s) := by
  have h : CountsOnly s (if 24 ≤ n then s.count F.OUB_RXPKT_CNT_COUNT p else s) := by
    split
    · exact count_frame ..
    · exact .refl s
  exact h.trans ((count_frame _ _ _ _).trans (countCause_frame ..))

/-- What a port's leaving ACTIVE loses is counted, and nothing else happens to it (R149). -/
theorem countLost_frame (p : Nat) (s : State) : CountsOnly s (countLost p s) :=
  (CountsOnly.foldl _ (fun _ _ => CountsOnly.foldl _ (fun s n => countStaged_frame p n s) _ _) _ _).trans
    (CountsOnly.foldl _ (fun s _ => countCause_frame _ _ _ s) _ _)

/-- With no packet in the switch core, a port's flush counts what its link held, and clears its output's accounts and
its link. -/
theorem flushPort_empty (p : Nat) (s : State) (h : s.xbr.flows = []) : flushPort p s =
    (countLost p (s.modOutp p fun o =>
      { o with occ := [0, 0, 0, 0], mirOcc := 0, deficit := [0, 0, 0, 0], entered := false,
               cur := List.replicate 8 none })).modLink p Link.cleared := by
  simp [flushPort, flushIn, flushOut, h]

theorem leaveActive_down (p : Nat) (s : State) (h : s.portUp p = false) : leaveActive p s = s := by
  simp [leaveActive, h]

theorem leaveActive_port_ne (p : Nat) (s : State) (h : s.xbr.flows = []) (q : Nat) (hq : q ≠ p) :
    (leaveActive p s).port q = s.port q := by
  unfold leaveActive; split
  · rw [flushPort_empty _ _ (by simp [event, h])]; simp [hq, event, (countLost_frame _ _).port]
  · rfl

theorem leaveActive_keeps (p : Nat) (s : State) (h : s.xbr.flows = []) :
    ((leaveActive p s).port p).rung = (s.port p).rung ∧ ((leaveActive p s).port p).forced = (s.port p).forced ∧
      ((leaveActive p s).port p).retained = (s.port p).retained := by
  unfold leaveActive; split
  · rw [flushPort_empty _ _ (by simp [event, h])]; simp [event, (countLost_frame _ _).port]
  · simp

theorem leaveActive_lane (p : Nat) (s : State) (h : s.xbr.flows = []) (l : Nat) :
    (leaveActive p s).lane l = s.lane l := by
  unfold leaveActive; split
  · rw [flushPort_empty _ _ (by simp [event, h])]; simp [event, (countLost_frame _ _).lane]
  · rfl

theorem leaveActive_hnd (p : Nat) (s : State) (h : s.xbr.flows = []) : (leaveActive p s).hnd = s.hnd := by
  unfold leaveActive; split
  · rw [flushPort_empty _ _ (by simp [event, h])]; simp [event, (countLost_frame _ _).hnd]
  · rfl

/-- Entering DETECT changes the port, its coding and some of its lanes, after leaving ACTIVE. -/
theorem enterDetect_eq (p r : Nat) (s : State) : ∃ f0 f1 f2 f3 : Lane → Lane, enterDetect p r s =
    ((((((leaveActive p s).setLine p {}).modPort p fun x => x.restart .detect r).modLane (4 * p) f0).modLane (4 * p + 1)
      f1).modLane (4 * p + 2) f2).modLane (4 * p + 3) f3 := by
  simp only [enterDetect, upto, List.range, List.range.loop, List.foldl, Nat.add_zero]
  exact ⟨_, _, _, _, rfl⟩

theorem enterTrain_eq (p : Nat) (s : State) : ∃ f0 f1 f2 f3 : Lane → Lane, enterTrain p s =
    ((((s.modPort p fun x =>
        { x.restart .train x.rung with
            width := mapCount (if x.retained = 0 then (0xF : BitVec 4) else x.retained).toNat,
            map := if x.retained = 0 then 0xF else x.retained,
            tx := if x.retained = 0 then 0xF else x.retained }).modLane (4 * p) f0).modLane (4 * p + 1)
      f1).modLane (4 * p + 2) f2).modLane (4 * p + 3) f3 := by
  exact ⟨_, _, _, _, by simp [enterTrain, upto, List.range, List.range.loop]; rfl⟩

end Sys2Proof.Machine
end

