-- ==== Sys2Proof/Tests/Slice0.lean ====
section
/-! SUPPORT. Tests: each check of WellFormed refuses an ill-formed command; words of the slots written out from the spec's
formats; a few steps with the results the rules give; and for each statement of Obligations.lean a state and operands that
meet its hypotheses (of its clauses, one conjunct each). -/

set_option maxRecDepth 100000

namespace Sys2Proof.Tests
open Sys2Proof Sys2Proof.Machine

/-- The tables of a kennel: a root entry for region 0, and these level-2 entries. -/
def tbls (l : List (Nat × Nat)) : List Host.Cell :=
  ((0, 65537) :: l.map fun x => (8192 + x.1, x.2)).flatMap fun w =>
    ((upto 8).map fun i => (8 * w.1 + i, BitVec.ofNat 8 (w.2 / 2 ^ (8 * i)))).filter fun c => c.2 != 0

/-- A module after the power-up, which has released the resets of both dies. -/
def upS : State :=
  { State.reset with time := 45000, ref := 600000000000000,
                     pwr := { State.reset.pwr with fabReset := false, cmpReset := false } }

/-! ## Ill-formed commands are refused -/

/-- A packet of sixteen bytes. -/
def pk : Packet := { dst := 0, src := 4, ktag := 7, win := 3, psn := 4, addr := 0, vc := 0, opc := 2, len := 1, fen := false, cmk := 0, epb := false, dln := 0, twn := false, col := 0, hop := 3, gen := 2, rsv := 0, payload := List.replicate 16 1, check := 0 }
/-- A frame without anything in its slots. -/
def fr : Frame := ⟨0, false, false, List.replicate 8 0, List.replicate 4 ⟨0, 0, false, 0, List.replicate 256 0⟩, 0⟩

theorem test_port_144_ill_formed : wellFormed (.portOff 143) = true ∧ wellFormed (.portOff 144) = false := by decide
theorem test_lane_576_ill_formed : wellFormed (.markerMissed 575) = true ∧ wellFormed (.markerMissed 576) = false := by decide
theorem test_core_32_ill_formed : wellFormed (.waitResume 31) = true ∧ wellFormed (.waitResume 32) = false := by decide
theorem test_kennel_4096_ill_formed :
    wellFormed (.kennelResetEnd 4095) = true ∧ wellFormed (.kennelResetEnd 4096) = false := by decide
theorem test_queue_16_ill_formed : wellFormed (.nop 0 15) = true ∧ wellFormed (.nop 0 16) = false := by decide
theorem test_plane_4_ill_formed : wellFormed (.planeFault 3) = true ∧ wellFormed (.planeFault 4) = false := by decide
theorem test_rail_13_ill_formed : wellFormed (.railGood 12) = true ∧ wellFormed (.railGood 13) = false := by decide
theorem test_stack_8_ill_formed :
    wellFormed (.perBankRefresh 7) = true ∧ wellFormed (.perBankRefresh 8) = false := by decide
theorem test_source_1024_ill_formed : wellFormed (.houndSourceAssert 1023 false) = true ∧
    wellFormed (.houndSourceAssert 1024 false) = false := by decide
theorem test_register_without_element_ill_formed :
    wellFormed (.counterClearingRead ⟨.monitor, false, .HND_STS, 0, 0, 0⟩) = true ∧
    wellFormed (.counterClearingRead ⟨.monitor, false, .HND_STS, 1, 0, 0⟩) = false := by decide +kernel
theorem test_long_payload_ill_formed : wellFormed (.tailWrite ⟨3, pk, 0⟩) = true ∧
    wellFormed (.tailWrite ⟨3, { pk with payload := List.replicate 4097 0 }, 0⟩) = false ∧
    wellFormed (.tailWrite ⟨272, pk, 0⟩) = false := by decide +kernel
theorem test_short_frame_ill_formed : wellFormed (.linkFrame 0 fr) = true ∧
    wellFormed (.linkFrame 0 { fr with slots := [] }) = false ∧
    wellFormed (.linkFrame 0 { fr with credit := [0] }) = false := by decide +kernel
theorem test_short_codeword_ill_formed : wellFormed (.codeword 0 (List.replicate 544 0)) = true ∧
    wellFormed (.codeword 0 (List.replicate 543 0)) = false := by decide +kernel
theorem test_width_3_ill_formed : wellFormed (.width 0 ⟨false, false, false, 2, 3, 0⟩) = true ∧
    wellFormed (.width 0 ⟨false, false, false, 3, 7, 0⟩) = false := by decide
theorem test_skew_ill_formed : wellFormed (.marker 0 ⟨0, 4, 0xF, 0, 0, false, true, 65535, 65535⟩) = true ∧
    wellFormed (.marker 0 ⟨0, 4, 0xF, 0, 0, false, true, 65536, 0⟩) = false ∧
    wellFormed (.marker 0 ⟨0, 4, 0xF, 0, 0, false, true, 0, 65536⟩) = false := by decide
theorem test_long_tcl_frame_ill_formed :
    wellFormed (.tclAck ⟨2, 1, 0, 0, 0, 0, List.replicate 64 0, 0⟩) = true ∧
    wellFormed (.tclAck ⟨2, 1, 0, 0, 0, 0, List.replicate 65 0, 0⟩) = false := by decide
theorem test_reserved_bits_ill_formed :
    wellFormed (.sSlotNop 0 ⟨0, false⟩ 0) = true ∧ wellFormed (.sSlotNop 0 ⟨0, false⟩ 1) = false := by decide
theorem test_window_and_slot_entry_ill_formed :
    wellFormed (.windowSlotIdle 65536) = false ∧ wellFormed (.windowFault 69633) = false ∧
    wellFormed (.slotEntryStart 1280) = false ∧ wellFormed (.stickyClear 32 0) = false := by decide
theorem test_lengths_ill_formed :
    wellFormed (.challenge 0 []) = false ∧ wellFormed (.getMeasurements 0 []) = false ∧
    wellFormed (.estimatorRefresh [] 0 false) = false ∧ wellFormed (.thermalThreshold []) = false := by decide

/-! ## Words of the slots, written out from the formats of R344, R348, R351 and R356 -/

/-- add s5, s6, s7 when NOT p2. -/
theorem test_decode_add : decodeSlot .s 4 0x1cc5a01 = some (.add 4 ⟨2, true⟩ ⟨5, 6, 7, false, 0, 0⟩) := by decide +kernel
/-- A branch to bundle 100. -/
theorem test_decode_br : decodeSlot .s 0 0x64020 = some (.br 0 ⟨0, false⟩ ⟨100, 0, 0⟩) := by decide +kernel
/-- An OPC that the S table does not list names no command; a reserved bit that is set makes one that is not well-formed. -/
theorem test_decode_s_reserved : decodeSlot .s 0 0x16 = none ∧
    (decodeSlot .s 0 0x1000000000000001).map wellFormed = some false := by decide +kernel
/-- tmma.f16 on engine 0, accumulator 2, the lines at s3 - 1. -/
theorem test_decode_tmma : decodeSlot .t 1 0x7fe341017 =
    some (.tmmaF16 1 ⟨0, false⟩ ⟨1, false, 2, false, 3, 0x3FF, false, 0, false, 0, 0, 0⟩) := by decide +kernel
/-- vadd.f32 on engine 1: v2 = v4 + v6. -/
theorem test_decode_vadd : decodeSlot .v 2 0xc205001 =
    some (.vaddF32 2 ⟨0, false⟩ ⟨true, 2, 4, 6, 0, 0, false, 0, 0, 0⟩) := by
  decide +kernel
/-- vld of lane groups 30 and 31. -/
theorem test_decode_vld : decodeSlot .v 3 0x1f40001204018 =
    some (.vld 3 ⟨0, false⟩ ⟨false, 2, 4, 0x40001, 30, 1, 0⟩) := by decide +kernel
/-- post s1, s2 on m3. -/
theorem test_decode_post : decodeSlot .m 5 0xc41009 = some (.post 5 ⟨0, false⟩ ⟨1, 2, 3, 0⟩) := by decide +kernel

/-! ## Single steps, with the results the rules give -/

/-- A module, quiet, with one command in its queue. -/
def queued (i : Instr) : State := { upS with pending := [i] }
/-- A field of what a step answers. -/
def after {α : Type} (o : Host.Outcome State Fault Refusal) (f : State → α) (d : α) : α :=
  match o with
  | .next t => f t
  | _ => d

theorem test_step_takes_the_front : after (step (queued (.maxrung 3 2))) (fun t => (t.pending.length, t.rd F.LNE_PCTL_MAXRUNG 3)) (9, 9) =
    (0, 2) := by decide +kernel
theorem test_absent_unit_faults : step (queued (.portOff 144)) = .fault .noSuchUnit := rfl
/-- R64: MODE 1 starts the bring-up in DETECT. -/
theorem test_bringup_enters_detect :
    after (step (queued (.portBringup 7))) (fun t => ((t.port 7).st, t.rd F.LNE_PCTL_MODE 7)) (.off, 0) = (.detect, 1) := by
  decide +kernel
/-- R463: the severity of a source at reset is the default of its class. -/
theorem test_reset_default_severity : State.reset.sev 739 = houndClass 739 := by decide +kernel

/-! ## States and operands that meet the hypotheses of the statements -/

namespace Port
def mk (p : Nat) (x : Port) (ls : Nat → Lane) : State := ((((upS.setPort p x).setLane (4*p) (ls 0)).setLane (4*p+1) (ls 1)).setLane (4*p+2) (ls 2)).setLane (4*p+3) (ls 3)
def ps : List Port := [{}, {st:=.detect},{st:=.active,map:=15,tx:=15,width:=4,farCaps:=1,chg:=some ⟨.fallback,2,3,5,none,false,false,false,4,15,3⟩},{st:=.active,map:=3,tx:=3,width:=2,chg:=some ⟨.restore,2,3,5,some 7,true,false,false,4,15,3⟩},{st:=.sleep}, {st:=.test},{st:=.step,rung:=2,worked:=some 1,ceilClr:=true,retained:=3}]
def lss : List (Nat → Lane) := [fun _ => {}, fun _ => {bitLock:=true,sync:=true,lastSeq:=some 6,markLock:=true,rdyRun:=2,excluded:=true}]
def s00 : List State := (ps.flatMap fun p => lss.map fun l => mk 1 p l)
def s0 : List State := s00 ++ s00.map fun s => (s.wr F.FEA_ACCEPT_BITS 0x20000 0).wr F.LNE_PCTL_SLEEPREQ 8 1
def states0 : List State := s0 ++ s0.map (fun s => s.wr F.LNE_PCTL_MODE 1 1) ++ s0.map (fun s => (((s.wr F.LNE_PCTL_MODE 2 1).wr F.LNE_PRBS_RXEN 1 4).wr F.HND_SEV_SEV1 3 0).wr F.HND_STICKY_STICKY 2 0)
def states0_0 : State := states0[0]'(by decide +kernel)
def states0_14 : State := states0[14]'(by decide +kernel)
def states0_18 : State := states0[18]'(by decide +kernel)
def states0_2 : State := states0[2]'(by decide +kernel)
def states0_22 : State := states0[22]'(by decide +kernel)
def states0_28 : State := states0[28]'(by decide +kernel)
def states0_56 : State := states0[56]'(by decide +kernel)
def states0_67 : State := states0[67]'(by decide +kernel)
/-- The hypotheses of Obligations.PortControl, its part on port mode writes. -/
theorem witness_PortModeWrites :
    ((1 < 144) ∧ (Runs states0_28) ∧ (modeBlocked states0_28 1 = false) ∧ (states0_28.klp.mode ≠ KMode.reporter) ∧ ((states0_28.port 1).forced = false) ∧ (states0_28.xbr.flows = []) ∧ (LinkEmpty states0_28 1) ∧ (states0_28.rd F.LNE_PCTL_MODE 1 ≠ 0)) ∧
    ((1 < 144) ∧ (Runs states0_0) ∧ (modeBlocked states0_0 1 = false) ∧ (states0_0.klp.mode ≠ KMode.reporter) ∧ ((states0_0.port 1).forced = false) ∧ (states0_0.xbr.flows = []) ∧ (LinkEmpty states0_0 1) ∧ (states0_0.rd F.LNE_PCTL_MODE 1 ≠ 1)) ∧
    ((1 < 144) ∧ (Runs states0_0) ∧ (modeBlocked states0_0 1 = false) ∧ (states0_0.klp.mode ≠ KMode.reporter) ∧ ((states0_0.port 1).forced = false) ∧ (states0_0.xbr.flows = []) ∧ (LinkEmpty states0_0 1) ∧ (states0_0.rd F.LNE_PCTL_MODE 1 ≠ 2)) ∧
    ((1 < 144) ∧ (Runs states0_0) ∧ (states0_0.rd F.LNE_PCTL_MODE 1 = 0 ∨ modeBlocked states0_0 1 = true ∨ states0_0.klp.mode = KMode.reporter)) ∧
    ((1 < 144) ∧ (Runs states0_28) ∧ (states0_28.rd F.LNE_PCTL_MODE 1 = 1 ∨ modeBlocked states0_28 1 = true ∨ states0_28.klp.mode = KMode.reporter)) ∧
    ((1 < 144) ∧ (Runs states0_56) ∧ (states0_56.rd F.LNE_PCTL_MODE 1 = 2 ∨ modeBlocked states0_56 1 = true ∨ states0_56.klp.mode = KMode.reporter)) := by
  refine ⟨?_, ?_, ?_, ?_, ?_, ?_⟩ <;> decide +kernel
/-- The hypotheses of Obligations.PortControl, its part on port control fields. -/
theorem witness_PortControlFields :
    ((1 < 144) ∧ (Runs states0_0) ∧ ((states0_0.port 1).st ≠ PSt.active)) ∧
    ((1 < 144) ∧ (Runs states0_2) ∧ (states0_2.xbr.flows = []) ∧ (LinkEmpty states0_2 1) ∧ ((states0_2.port 1).forced = false) ∧ ((states0_2.port 1).testing = false) ∧ (decide ¬(states0_2.port 1).st ∈ [PSt.off, PSt.test, PSt.sleep]) = true) ∧
    ((1 < 144) ∧ (Runs states0_0) ∧ ((states0_0.port 1).st ∈ [PSt.off, PSt.test, PSt.sleep])) := by
  refine ⟨?_, ?_, ?_⟩ <;> decide +kernel
/-- The hypotheses of Obligations.PortControl, its part on sleep requests. -/
theorem witness_SleepRequests :
    ((1 < 144) ∧ (Runs states0_0) ∧ (states0_0.feature 17 = false ∨ mapCount (15 - (1#4).toNat) = 3)) ∧
    ((1 < 144) ∧ (Runs states0_14) ∧ (states0_14.feature 17 = true) ∧ (mapCount (15 - (3#4).toNat) ≠ 3) ∧ ((states0_14.port 1).st = PSt.off)) ∧
    ((1 < 144) ∧ (Runs states0_18) ∧ (states0_18.feature 17 = true) ∧ (mapCount (15 - (3#4).toNat) ≠ 3) ∧ ((states0_18.port 1).st = PSt.active) ∧ ((states0_18.port 1).chg.isSome = true) ∧ (BitVec.getLsbD (states0_18.port 1).farCaps 0 = true)) ∧
    ((1 < 144) ∧ (Runs states0_22) ∧ (states0_22.feature 17 = true) ∧ (mapCount (15 - (12#4).toNat) ≠ 3) ∧ ((states0_22.port 1).st = PSt.sleep) ∧ (states0_22.rd F.LNE_PCTL_SLEEPREQ 1 &&& 15 - (12#4).toNat = 0)) ∧
    ((1 < 144) ∧ (Runs states0_22) ∧ (states0_22.feature 17 = true) ∧ (mapCount (15 - (3#4).toNat) ≠ 3) ∧ (states0_22.rd F.LNE_PCTL_SLEEPREQ 1 &&& 15 - (3#4).toNat ≠ 0) ∧ ((states0_22.port 1).st = PSt.sleep) ∧ ((states0_22.port 1).forced = false)) := by
  refine ⟨?_, ?_, ?_, ?_, ?_⟩ <;> decide +kernel
/-- The hypotheses of Obligations.PortControl, its part on pattern test. -/
theorem witness_PatternTest :
    ((1 < 576) ∧ (Runs states0_0) ∧ (false = true → states0_0.rdB F.LNE_PRBS_RXEN 1 = false)) ∧
    ((4 < 576) ∧ (Runs states0_56) ∧ (states0_56.rdB F.LNE_PRBS_RXEN 4 = true)) ∧
    ((4 < 576) ∧ (Runs states0_67) ∧ ((states0_67.port (4 / 4)).st = PSt.test) ∧ (states0_67.rdB F.LNE_PRBS_RXEN 4 = true) ∧ ((states0_67.lane 4).sync = true)) ∧
    ((1 < 576) ∧ (Runs states0_0) ∧ ((states0_0.port (1 / 4)).st ≠ PSt.test)) := by
  refine ⟨?_, ?_, ?_, ?_⟩ <;> decide +kernel
end Port

namespace BringUp
def capBlks0 : List CapBlk := [⟨true,true,true,15,15,0,1,⟨5,1,1,1,1⟩,100,false,5⟩, ⟨false,true,true,1,15,0,1,⟨5,1,1,1,1⟩,100,false,5⟩,⟨false,true,true,1,15,0,1,⟨5,1,1,1,1⟩,100,true,5⟩]
def markerBlks0 : List MarkerBlk := [⟨0,4,15,7,0,false,true,5,0⟩,⟨1,4,15,7,0,false,true,70,0⟩,⟨0,4,15,8,0,false,false,5,0⟩]
def widthBlks0 : List WidthBlk := [⟨false,false,false,2,3,55⟩,⟨true,false,false,2,3,55⟩,⟨false,true,false,4,15,55⟩]
def mk (p : Nat) (x : Port) (ls : Nat → Lane) : State := ((((upS.setPort p x).setLane (4*p) (ls 0)).setLane (4*p+1) (ls 1)).setLane (4*p+2) (ls 2)).setLane (4*p+3) (ls 3)
def ps : List Port := [{}, {st:=.detect}, {st:=.detect, retained:=3,hold:=true}, {st:=.step,rung:=2}, {st:=.train,map:=15,tx:=15,climbing:=true}, {st:=.train,map:=3,tx:=3,climbing:=true, fails:=1},{st:=.bitlock,map:=15,tx:=15,climbing:=true, fails:=1,worked:=some 1},
  {st:=.bitlock,map:=15,tx:=15,testing:=true}, {st:=.marklock,map:=15}, {st:=.marklock,map:=3,tx:=3,fails:=1}, {st:=.capx,map:=15,tx:=15,rung:=0},{st:=.capx,map:=15,tx:=15,capFar:=true,farAck:=true,acksSent:=7,climbing:=true}, {st:=.capx,map:=15,tx:=15,capFar:=true,farAck:=true,acksSent:=7,farStep:=true,stepSent:=true},
  {st:=.active,map:=15,tx:=15,width:=4}, {st:=.active,map:=15,tx:=15,width:=4,farCaps:=1},{st:=.active,map:=3,tx:=3,width:=2,farCaps:=1}, {st:=.active,map:=15,tx:=15,width:=4,farCaps:=1,chg:=some ⟨.fallback,2,3,5,none,false,false,false,4,15,3⟩},{st:=.active,map:=3,tx:=3,width:=2,chg:=some ⟨.restore,2,3,5,some 7,true,false,false,4,15,3⟩},{st:=.sleep}, {st:=.test},{st:=.capx,map:=15,tx:=15,capFar:=true},{st:=.active,map:=3,tx:=3,width:=2,chg:=some ⟨.restore,2,3,5,none,true,false,false,4,15,3⟩}]
def lss : List (Nat → Lane) := [fun _ => {}, fun _ => {bitLock:=true,lastSeq:=some 6,markLock:=true,rdyRun:=2}, fun i => {bitLock:=true,lastSeq:=some 6,markLock:=i != 0,rdyRun:=i,missed:=1,skew:=7},fun i => {bitLock:=false,exiting:=true,lastSeq:=some 6,markLock:=i != 0,rdyRun:=i,missed:=1,skew:=7},fun i => {bitLock:=true,entering:=true,lastSeq:=some 6,markLock:=i != 0,rdyRun:=2,missed:=0,skew:=7}]
def states0 : List State := (ps.flatMap fun p => lss.map fun l => mk 1 p l) ++ (ps.map fun p => (mk 1 p fun _ => {}).modLink 1 fun l => {l with framed := true})
def capBlks0_0 : CapBlk := capBlks0[0]'(by decide +kernel)
def markerBlks0_0 : MarkerBlk := markerBlks0[0]'(by decide +kernel)
def markerBlks0_1 : MarkerBlk := markerBlks0[1]'(by decide +kernel)
def states0_0 : State := states0[0]'(by decide +kernel)
def states0_1 : State := states0[1]'(by decide +kernel)
def states0_100 : State := states0[100]'(by decide +kernel)
def states0_123 : State := states0[123]'(by decide +kernel)
def states0_15 : State := states0[15]'(by decide +kernel)
def states0_2 : State := states0[2]'(by decide +kernel)
def states0_20 : State := states0[20]'(by decide +kernel)
def states0_25 : State := states0[25]'(by decide +kernel)
def states0_3 : State := states0[3]'(by decide +kernel)
def states0_30 : State := states0[30]'(by decide +kernel)
def states0_4 : State := states0[4]'(by decide +kernel)
def states0_41 : State := states0[41]'(by decide +kernel)
def states0_5 : State := states0[5]'(by decide +kernel)
def states0_50 : State := states0[50]'(by decide +kernel)
def states0_51 : State := states0[51]'(by decide +kernel)
def states0_56 : State := states0[56]'(by decide +kernel)
def states0_60 : State := states0[60]'(by decide +kernel)
def states0_65 : State := states0[65]'(by decide +kernel)
def states0_80 : State := states0[80]'(by decide +kernel)
def states0_85 : State := states0[85]'(by decide +kernel)
def states0_86 : State := states0[86]'(by decide +kernel)
def widthBlks0_0 : WidthBlk := widthBlks0[0]'(by decide +kernel)
def widthBlks0_1 : WidthBlk := widthBlks0[1]'(by decide +kernel)
/-- The hypotheses of Obligations.PortBringUp, its part on detect and step. -/
theorem witness_DetectAndStep :
    ((1 < 144) ∧ (Runs states0_5) ∧ ((states0_5.port 1).st = PSt.detect) ∧ (let need := if (states0_5.port 1).retained = 0 then 15 else (states0_5.port 1).retained; decide ((states0_5.port 1).hold = false) && decide (15#4 &&& need = need)) = true) ∧
    ((1 < 144) ∧ (Runs states0_5) ∧ ((states0_5.port 1).st = PSt.detect) ∧ (let need := if (states0_5.port 1).retained = 0 then 15 else (states0_5.port 1).retained; decide ((states0_5.port 1).hold = true ∨ 1#4 &&& need ≠ need)) = true) ∧
    ((1 < 144) ∧ (Runs states0_0) ∧ ((states0_0.port 1).st ≠ PSt.detect)) ∧
    ((1 < 144) ∧ (Runs states0_15) ∧ ((states0_15.port 1).st = PSt.step)) ∧
    ((1 < 144) ∧ (Runs states0_0) ∧ ((states0_0.port 1).st ≠ PSt.step)) := by
  refine ⟨?_, ?_, ?_, ?_, ?_⟩ <;> decide +kernel
/-- The hypotheses of Obligations.PortBringUp, its part on training reaches bit lock. -/
theorem witness_TrainingReachesBitLock :
    ((1 < 144) ∧ (1 < 4) ∧ (Runs states0_20) ∧ ((states0_20.port 1).st = PSt.train) ∧ ((states0_20.port 1).map.getLsbD 1 = true)) ∧
    ((1 < 144) ∧ (1 < 4) ∧ (Runs states0_30) ∧ ((states0_30.port 1).st = PSt.bitlock)) := by
  refine ⟨?_, ?_⟩ <;> decide +kernel
/-- The hypotheses of Obligations.PortFailures, its part on failed attempts. -/
theorem witness_FailedAttempts :
    ((1 < 144) ∧ (Runs states0_20) ∧ ((states0_20.port 1).testing = false) ∧ ((states0_20.port 1).forced = false) ∧ ((states0_20.port 1).st ∈ [PSt.train, PSt.bitlock, PSt.marklock, PSt.capx, PSt.step]) ∧ ((states0_20.port 1).climbing = true) ∧ ((states0_20.port 1).fails = 0)) ∧
    ((1 < 144) ∧ (Runs states0_25) ∧ ((states0_25.port 1).testing = false) ∧ ((states0_25.port 1).forced = false) ∧ ((states0_25.port 1).st ∈ [PSt.train, PSt.bitlock, PSt.marklock, PSt.capx, PSt.step]) ∧ ((states0_25.port 1).climbing = true) ∧ ((states0_25.port 1).fails ≠ 0) ∧ ((states0_25.port 1).worked = none)) ∧
    ((1 < 144) ∧ (Runs states0_30) ∧ ((states0_30.port 1).testing = false) ∧ ((states0_30.port 1).forced = false) ∧ ((states0_30.port 1).st ∈ [PSt.train, PSt.bitlock, PSt.marklock, PSt.capx, PSt.step]) ∧ ((states0_30.port 1).climbing = true) ∧ ((states0_30.port 1).fails ≠ 0) ∧ (Option.any (fun r => true) (states0_30.port 1).worked) = true) ∧
    ((1 < 144) ∧ (Runs states0_15) ∧ ((states0_15.port 1).testing = false) ∧ ((states0_15.port 1).forced = false) ∧ ((states0_15.port 1).st ∈ [PSt.train, PSt.bitlock, PSt.marklock, PSt.capx, PSt.step]) ∧ ((states0_15.port 1).climbing = false) ∧ ((states0_15.port 1).fails = 0)) := by
  refine ⟨?_, ?_, ?_, ?_⟩ <;> decide +kernel
/-- The hypotheses of Obligations.PortBlocks, its part on markers. -/
theorem witness_Markers :
    ((1 < 144) ∧ (1 < 4) ∧ (Runs states0_51) ∧ (markerBlks0_0.errored = false) ∧ ((states0_51.port 1).st ∈ [PSt.capx, PSt.active]) ∧ ((states0_51.lane (4 * 1 + 1)).bitLock = true) ∧ (let u := states0_51.modLane (4 * 1 + 1) fun x => { x with markLock := x.markLock || markerBlks0_0.onTime && x.lastSeq == some (markerBlks0_0.mseq - 1), seen := true, farLane := markerBlks0_0.lane, skew := markerBlks0_0.skewNs, early := markerBlks0_0.earlyNs, lastSeq := some markerBlks0_0.mseq }; decide (spread u (4 * 1 + 1) ≤ 64)) = true) ∧
    ((1 < 144) ∧ (1 < 4) ∧ (Runs states0_51) ∧ (markerBlks0_1.errored = false) ∧ ((states0_51.port 1).st ∈ [PSt.capx, PSt.active]) ∧ ((states0_51.lane (4 * 1 + 1)).bitLock = true) ∧ (let u := states0_51.modLane (4 * 1 + 1) fun x => { x with markLock := x.markLock || markerBlks0_1.onTime && x.lastSeq == some (markerBlks0_1.mseq - 1), seen := true, farLane := markerBlks0_1.lane, skew := markerBlks0_1.skewNs, early := markerBlks0_1.earlyNs, lastSeq := some markerBlks0_1.mseq }; decide (64 < spread u (4 * 1 + 1))) = true) ∧
    ((1 < 144) ∧ (1 < 4) ∧ (Runs states0_41) ∧ (markerBlks0_0.errored = false) ∧ ((states0_41.port 1).st = PSt.marklock) ∧ ((states0_41.lane (4 * 1 + 1)).bitLock = true) ∧ ((states0_41.port 1).map.getLsbD 1 = true) ∧ (markerBlks0_0.onTime = true) ∧ ((states0_41.lane (4 * 1 + 1)).lastSeq = some (markerBlks0_0.mseq - 1)) ∧ (markerBlks0_0.skewNs ≤ 64) ∧ (∀ (j : Nat), j < 4 → j ≠ 1 → (states0_41.port 1).map.getLsbD j = true → (states0_41.lane (4 * 1 + j)).markLock = true ∧ (states0_41.lane (4 * 1 + j)).skew ≤ 64)) ∧
    ((1 < 144) ∧ (1 < 4) ∧ (Runs states0_1) ∧ (markerBlks0_0.errored = false) ∧ ((states0_1.lane (4 * 1 + 1)).markLock = true) ∧ ((states0_1.lane (4 * 1 + 1)).missed = 0)) ∧
    ((1 < 144) ∧ (1 < 4) ∧ (Runs states0_2) ∧ (markerBlks0_0.errored = false) ∧ ((states0_2.lane (4 * 1 + 1)).markLock = true) ∧ ((states0_2.lane (4 * 1 + 1)).missed ≠ 0) ∧ ((states0_2.port 1).st ≠ PSt.active)) ∧
    ((1 < 144) ∧ (1 < 4) ∧ (Runs states0_30) ∧ (markerBlks0_0.errored = false) ∧ ((states0_30.port 1).st ∈ [PSt.bitlock, PSt.marklock, PSt.capx, PSt.active])) := by
  refine ⟨?_, ?_, ?_, ?_, ?_, ?_⟩ <;> decide +kernel
/-- The hypotheses of Obligations.PortBlocks, its part on capability exchange. -/
theorem witness_CapabilityExchange :
    ((1 < 144) ∧ (Runs states0_50) ∧ ((states0_50.port 1).st = PSt.capx) ∧ (capBlks0_0.errored = false) ∧ (capBlks0_0.rungs.getLsbD (states0_50.port 1).rung = true) ∧ (states0_50.rd F.DET_TSRC_PORT ≠ 1)) ∧
    ((1 < 144) ∧ (Runs states0_0) ∧ ((states0_0.port 1).st ≠ PSt.capx ∨ capBlks0_0.errored = true ∨ capBlks0_0.rungs.getLsbD (states0_0.port 1).rung = false)) ∧
    ((1 < 144) ∧ (Runs states0_100) ∧ ((states0_100.port 1).st = PSt.capx) ∧ ((states0_100.port 1).capFar = true) ∧ ((states0_100.port 1).farAck = false) ∧ ((states0_100.port 1).acksSent = 0)) ∧
    ((1 < 144) ∧ (Runs states0_50) ∧ (states0_50.line 1 = { }) ∧ ((states0_50.port 1).st = PSt.capx) ∧ ((states0_50.port 1).sinceFill < 4095) ∧ ((states0_50.port 1).capFar = false)) ∧
    ((1 < 144) ∧ (Runs states0_60) ∧ ((states0_60.port 1).st = PSt.capx) ∧ ((states0_60.port 1).capFar = true) ∧ ((states0_60.port 1).farAck = true) ∧ ((states0_60.port 1).acksSent = 7) ∧ ((states0_60.port 1).stepSent = true) ∧ ((states0_60.port 1).farStep = true)) ∧
    ((1 < 144) ∧ (Runs states0_56) ∧ ((states0_56.port 1).st = PSt.capx) ∧ ((states0_56.port 1).capFar = true) ∧ ((states0_56.port 1).farAck = true) ∧ ((states0_56.port 1).acksSent = 7) ∧ ((states0_56.port 1).stepSent = false) ∧ (wantsStep states0_56 1 = false) ∧ (states0_56.spg.plan = false) ∧ (states0_56.rd F.DET_TSRC_PORT ≠ 1) ∧ (states0_56.rdB F.MON_LINKSEC_EN 1 = false) ∧ (∀ (q : Nat), q < 144 → q ≠ 1 → (states0_56.port q).st ≠ PSt.active) ∧ (∀ (j : Nat), j < 4 → (states0_56.lane (4 * 1 + j)).bitLock = true ∧ (states0_56.lane (4 * 1 + j)).markLock = true)) ∧
    ((1 < 144) ∧ (Runs states0_30) ∧ ((states0_30.port 1).st ∈ [PSt.bitlock, PSt.marklock, PSt.capx, PSt.active])) ∧
    ((1 < 144) ∧ (Runs states0_65) ∧ ((states0_65.port 1).st = PSt.active) ∧ (passing states0_65 1 = true) ∧ (false = true → (states0_65.link 1).framed = false)) ∧
    ((1 < 144) ∧ (Runs states0_123) ∧ ((states0_123.port 1).st = PSt.active) ∧ (passing states0_123 1 = true) ∧ ((states0_123.link 1).framed = true)) ∧
    ((1 < 144) ∧ (Runs states0_0) ∧ ((states0_0.port 1).st ≠ PSt.active ∨ passing states0_0 1 = false)) := by
  refine ⟨?_, ?_, ?_, ?_, ?_, ?_, ?_, ?_, ?_, ?_⟩ <;> decide +kernel
/-- The hypotheses of Obligations.WidthChanges, its part on width changes and sleep. -/
theorem witness_WidthChangesAndSleep :
    ((1 < 144) ∧ (1 < 4) ∧ (Runs states0_65) ∧ ((states0_65.port 1).st = PSt.active) ∧ ((states0_65.port 1).chg = none) ∧ (widthBlks0_0.ack = false) ∧ (widthBlks0_0.sleep = false)) ∧
    ((1 < 144) ∧ (1 < 4) ∧ (Runs states0_65) ∧ ((states0_65.port 1).st = PSt.active) ∧ ((states0_65.port 1).chg = none) ∧ (widthBlks0_1.ack = true) ∧ (widthBlks0_1.sleep = false)) ∧
    ((1 < 144) ∧ (1 < 4) ∧ (Runs states0_0) ∧ ((states0_0.port 1).st ≠ PSt.active)) ∧
    ((1 < 144) ∧ (1 < 4) ∧ (Runs states0_0) ∧ ((states0_0.port 1).chg = none)) ∧
    ((1 < 144) ∧ (1 < 4) ∧ (Runs states0_80) ∧ (Option.any (fun c => decide (c.rxAt = none)) (states0_80.port 1).chg) = true) ∧
    ((1 < 144) ∧ (1 < 4) ∧ (Runs states0_85) ∧ (Option.any (fun c => decide (c.rxAt.isSome = true) && decide (c.rxDone = false)) (states0_85.port 1).chg) = true) ∧
    ((1 < 144) ∧ (1 < 4) ∧ (Runs states0_85) ∧ (Option.any (fun c => decide (c.rxAt.isSome = true) && decide (c.txDone = false)) (states0_85.port 1).chg) = true) ∧
    ((1 < 144) ∧ (2 < 4) ∧ (Runs states0_86) ∧ ((states0_86.port 1).st = PSt.active) ∧ ((states0_86.port 1).chg.isSome = true) ∧ (laneActive states0_86 (4 * 1 + 2) = false) ∧ ((states0_86.lane (4 * 1 + 2)).bitLock = true) ∧ ((states0_86.lane (4 * 1 + 2)).markLock = true) ∧ (spread states0_86 (4 * 1 + 2) ≤ 64) ∧ (sleepAsked states0_86 (4 * 1 + 2) = false) ∧ ((states0_86.lane (4 * 1 + 2)).excluded = false) ∧ ((states0_86.lane (4 * 1 + 2)).asleep = false) ∧ ((states0_86.lane (4 * 1 + 2)).entering = false)) ∧
    ((1 < 144) ∧ (1 < 4) ∧ (Runs states0_4) ∧ ((states0_4.lane (4 * 1 + 1)).entering = true)) ∧
    ((1 < 144) ∧ (1 < 4) ∧ (Runs states0_0) ∧ ((states0_0.lane (4 * 1 + 1)).entering = false)) ∧
    ((1 < 144) ∧ (1 < 4) ∧ (Runs states0_3) ∧ ((states0_3.lane (4 * 1 + 1)).exiting = true) ∧ ((states0_3.lane (4 * 1 + 1)).bitLock = false) ∧ ((recentLosses states0_3.clock (states0_3.lane (4 * 1 + 1)).lossTimes).length < 3)) ∧
    ((1 < 144) ∧ (1 < 4) ∧ (Runs states0_0) ∧ ((states0_0.lane (4 * 1 + 1)).exiting = false ∨ (states0_0.lane (4 * 1 + 1)).bitLock = true)) := by
  refine ⟨?_, ?_, ?_, ?_, ?_, ?_, ?_, ?_, ?_, ?_, ?_, ?_⟩ <;> decide +kernel
/-- The hypotheses of Obligations.PortFailures, its part on lane loss falls back. -/
theorem witness_LaneLossFallsBack :
    ((1 < 144) ∧ (1 < 4) ∧ (Runs states0_65) ∧ ((states0_65.port 1).st = PSt.active) ∧ ((states0_65.port 1).map = 15) ∧ ((states0_65.port 1).tx = 15) ∧ ((states0_65.port 1).chg = none) ∧ (∀ (j : Nat), j < 4 → (states0_65.lane (4 * 1 + j)).healthy = true ∧ (states0_65.lane (4 * 1 + j)).seen = false) ∧ ((recentLosses states0_65.clock (states0_65.lane (4 * 1 + 1)).lossTimes).length < 3)) := by decide +kernel
end BringUp

namespace Codeword
theorem gfMul_zero (x : Nat) : gfMul 0 x = 0 := by simp [gfMul, gfDouble, bit]
theorem foldl_zeros (x n : Nat) (l : List Nat) :
    (List.replicate n 0 ++ l).foldl (fun acc c => gfMul acc x ^^^ c) 0 = l.foldl (fun acc c => gfMul acc x ^^^ c) 0 := by
  induction n with
  | zero => rfl
  | succ n ih => simp [List.replicate_succ, gfMul_zero, ih]
theorem syndrome_zeros (n : Nat) (l : List Nat) : rsSyndrome (List.replicate n 0 ++ l) = rsSyndrome l := by
  funext j; exact foldl_zeros _ n l
theorem decodes_zero : rsDecode (List.replicate 544 0) = some (List.replicate 544 0, 0) := by
  have : List.replicate 544 0 = List.replicate 544 0 ++ ([] : List Nat) := by simp
  rw [rsDecode, this, syndrome_zeros]; simp [rsSyndrome, List.all_eq_true]
theorem decodes_none : rsDecode (List.replicate 512 0 ++ List.replicate 32 5) = none := by
  rw [rsDecode, syndrome_zeros]; 
  have h : ((upto 30).map (rsSyndrome (List.replicate 32 5))).all (· == 0) = false := by decide +kernel
  have g : 15 < (rsLocator ((upto 30).map (rsSyndrome (List.replicate 32 5)))).2 := by decide +kernel
  simp only [h, Bool.false_eq_true, if_false, g, if_true]
/-- An ACTIVE port 0 with its lanes in lock. -/
def locked : State := ((upS.setPort 0 { st := .active, map := 15, width := 4 }).setLane 1 { bitLock := true })
/-- The hypotheses of Obligations.PortBlocks, its part on codewords. -/
theorem witness_Codewords :
    (1 < 576 ∧ Quiet locked ∧ (locked.port (1 / 4)).st ∈ [PSt.bitlock, .marklock, .capx, .active] ∧
      (locked.lane 1).bitLock = true ∧ (rsDecode ((List.replicate 544 (0#10)).map BitVec.toNat)).map Prod.snd = some 0) ∧
    (rsDecode ((List.replicate 512 (0#10) ++ List.replicate 32 5#10).map BitVec.toNat) = none ∧
      laneActive locked 1 = true ∧ (locked.lane 1).ucRun < 3) := by
  refine ⟨⟨by decide, by decide +kernel, by decide +kernel, by decide +kernel, ?_⟩, ?_, by decide +kernel, by decide +kernel⟩
  · rw [List.map_replicate]; show (rsDecode (List.replicate 544 0)).map Prod.snd = some 0; rw [decodes_zero]; rfl
  · rw [List.map_append, List.map_replicate, List.map_replicate]; exact decodes_none
end Codeword

namespace Link
def sl (b : Bool) (n : Nat) : Slot := ⟨BitVec.ofNat 12 n, 1, b, 5, (List.range 256).map (BitVec.ofNat 8)⟩
def fr (a n : Nat) (av : Bool) (ss : List Slot) : Frame := let f : Frame := ⟨BitVec.ofNat 12 a, av, false, (List.range 8).map (fun i => BitVec.ofNat 12 (n*i)), ss, 0⟩
  { f with lcrc := BitVec.ofNat 32 (crc32 (frameBody f))}
def frames0 : List Frame := [fr 0 5 false (List.replicate 4 (sl false 0)), {fr 0 5 false (List.replicate 4 (sl false 0)) with lcrc := 7}, fr 0 3 false [sl true 0, sl false 1, sl false 1, sl false 1], fr 0 3 false [sl true 3, sl false 1, sl false 1, sl false 1], fr 6 5 true (List.replicate 4 (sl false 0))]
def lks : List Link := [{framed := true,anySent:=true,txSeq:=7,replayAt := some (45000,false),replay:=[⟨6,1,[1,2],[]⟩],retries:=2},{framed := true,anySent:=true,txSeq:=9}, {framed:=true,txSeq:=3}, {}, {framed := true}, {framed := true,expE:=3}, {framed := true,nakWait:=true}, {framed := true,anySent:=true,txSeq:=7,replay:=[⟨6,1,[1,2],[]⟩],retries:=2}]
def pst : List PSt := [.active, .off]
def states0 : List State := (lks.flatMap fun l => pst.map fun x => (upS.setPort 1 {st:=x}).setLink 1 l) ++
 [(upS.setPort 1 {st:=.active, map:=15}).setLane 4 {lost := true}, {upS with sweep := {busy:=true,pos:=1}}, {upS.setPort 1 {ident := some ⟨5,6,7,8,9⟩} with sweep := {busy:=true,pos:=1}},{upS with sweep := {busy:=true,pos:=143}}]
def frames0_0 : Frame := frames0[0]'(by decide +kernel)
def frames0_1 : Frame := frames0[1]'(by decide +kernel)
def frames0_2 : Frame := frames0[2]'(by decide +kernel)
def frames0_3 : Frame := frames0[3]'(by decide +kernel)
def frames0_4 : Frame := frames0[4]'(by decide +kernel)
def states0_0 : State := states0[0]'(by decide +kernel)
def states0_12 : State := states0[12]'(by decide +kernel)
def states0_14 : State := states0[14]'(by decide +kernel)
def states0_17 : State := states0[17]'(by decide +kernel)
def states0_2 : State := states0[2]'(by decide +kernel)
def states0_4 : State := states0[4]'(by decide +kernel)
def states0_6 : State := states0[6]'(by decide +kernel)
/-- The hypotheses of Obligations.LinkFrames, its part on good link frames. -/
theorem witness_GoodLinkFrames :
    ((1 < 144) ∧ (Runs states0_0) ∧ ((states0_0.port 1).st = PSt.active) ∧ (passing states0_0 1 = true) ∧ ((states0_0.link 1).framed = true) ∧ (frameGood frames0_0 = true) ∧ (frames0_0.nak = false) ∧ (frames0_0.ackv = false) ∧ (∀ (e : Slot), e ∈ frames0_0.slots → e.data = false)) ∧
    ((1 < 144) ∧ (Runs states0_0) ∧ ((states0_0.port 1).st = PSt.active) ∧ (passing states0_0 1 = true) ∧ ((states0_0.link 1).framed = true) ∧ (frameGood frames0_2 = true) ∧ (frames0_2.nak = false) ∧ (Option.any (fun u => decide (frames0_2.ackv = false) && (decide (∀ (e : Slot), e ∈ frames0_2.slots.tail → e.data = false) && (decide (u.data = true) && (decide (states0_0.linkSec 1 = none) && (decide (u.seq = (states0_0.link 1).expE) && (decide ((states0_0.link 1).nakWait = false) && decide (((states0_0.link 1).vc u.vc.toNat).left = 0))))))) frames0_2.slots.head?) = true) ∧
    ((1 < 144) ∧ (Runs states0_0) ∧ ((states0_0.port 1).st = PSt.active) ∧ (passing states0_0 1 = true) ∧ ((states0_0.link 1).framed = true) ∧ (frameGood frames0_3 = true) ∧ (frames0_3.nak = false) ∧ (Option.any (fun u => decide (frames0_3.ackv = false) && (decide (∀ (e : Slot), e ∈ frames0_3.slots.tail → e.data = false) && (decide (u.data = true) && (decide (states0_0.linkSec 1 = none) && (decide (u.seq ≠ (states0_0.link 1).expE) && (decide ((u.seq - (states0_0.link 1).expE).toNat < 2048) && decide ((states0_0.link 1).nakWait = false))))))) frames0_3.slots.head?) = true) ∧
    ((1 < 144) ∧ (Runs states0_0) ∧ ((states0_0.port 1).st = PSt.active) ∧ (passing states0_0 1 = true) ∧ ((states0_0.link 1).framed = true) ∧ (frameGood frames0_4 = true) ∧ (frames0_4.nak = false) ∧ (frames0_4.ackv = true) ∧ (∀ (e : Slot), e ∈ frames0_4.slots → e.data = false) ∧ ((states0_0.link 1).anySent = true) ∧ ((states0_0.link 1).replay ≠ []) ∧ (frames0_4.ack = (states0_0.link 1).txSeq - 1) ∧ ((states0_0.link 1).replay.length < 4096)) ∧
    ((1 < 144) ∧ (Runs states0_2) ∧ ((states0_2.port 1).st = PSt.active) ∧ (passing states0_2 1 = true) ∧ ((states0_2.link 1).framed = true) ∧ (frameGood frames0_4 = true) ∧ (frames0_4.nak = false) ∧ (frames0_4.ackv = true) ∧ (∀ (e : Slot), e ∈ frames0_4.slots → e.data = false) ∧ (frames0_4.ack ≠ (states0_2.link 1).txSeq - 1) ∧ ((states0_2.link 1).replay = []) ∧ ((states0_2.link 1).wasSent frames0_4.ack = true)) ∧
    ((1 < 144) ∧ (Runs states0_4) ∧ ((states0_4.port 1).st = PSt.active) ∧ (passing states0_4 1 = true) ∧ ((states0_4.link 1).framed = true) ∧ (frameGood frames0_4 = true) ∧ (frames0_4.nak = false) ∧ (frames0_4.ackv = true) ∧ (∀ (e : Slot), e ∈ frames0_4.slots → e.data = false) ∧ (frames0_4.ack ≠ (states0_4.link 1).txSeq - 1) ∧ ((states0_4.link 1).replay = []) ∧ ((states0_4.link 1).wasSent frames0_4.ack = false) ∧ ((states0_4.port 1).forced = false)) := by
  refine ⟨?_, ?_, ?_, ?_, ?_, ?_⟩ <;> decide +kernel
/-- The hypotheses of Obligations.LinkFrames, its part on bad link frames. -/
theorem witness_BadLinkFrames :
    ((1 < 144) ∧ (Runs states0_0) ∧ ((states0_0.port 1).st = PSt.active) ∧ (passing states0_0 1 = true) ∧ ((states0_0.link 1).framed = true) ∧ (frameGood frames0_1 = false)) ∧
    ((1 < 144) ∧ (Runs states0_6) ∧ ((states0_6.port 1).st = PSt.active) ∧ (passing states0_6 1 = true) ∧ ((states0_6.link 1).framed = false)) ∧
    ((0 < 144) ∧ (Runs states0_0) ∧ ((states0_0.port 0).st ≠ PSt.active ∨ passing states0_0 0 = false)) := by
  refine ⟨?_, ?_, ?_⟩ <;> decide +kernel
/-- The hypotheses of Obligations.LinkTimeouts. -/
theorem witness_LinkTimeouts :
    ((1 < 144) ∧ (Runs states0_12) ∧ ((states0_12.port 1).st = PSt.active) ∧ ((states0_12.link 1).nakWait = true)) ∧
    ((1 < 144) ∧ (Runs states0_0) ∧ ((states0_0.port 1).st ≠ PSt.active ∨ (states0_0.link 1).nakWait = false)) ∧
    ((1 < 144) ∧ (Runs states0_14) ∧ ((states0_14.port 1).st = PSt.active) ∧ ((states0_14.link 1).replay ≠ []) ∧ ((states0_14.link 1).retries < 7) ∧ ((states0_14.link 1).replayAt ≠ some (states0_14.time, false))) ∧
    ((1 < 144) ∧ (Runs states0_0) ∧ ((states0_0.link 1).replayAt = some (states0_0.time, false))) ∧
    ((0 < 144) ∧ (Runs states0_0) ∧ ((states0_0.port 0).st ≠ PSt.active ∨ (states0_0.link 0).replay = [])) := by
  refine ⟨?_, ?_, ?_, ?_, ?_⟩ <;> decide +kernel
/-- The hypotheses of Obligations.WiringSweep. -/
theorem witness_WiringSweep :
    ((Runs states0_0) ∧ (states0_0.sweep.busy = false)) ∧
    ((Runs states0_17) ∧ (states0_17.sweep.busy = true) ∧ (states0_17.sweep.pos < 144)) := by
  refine ⟨?_, ?_⟩ <;> decide +kernel
end Link

namespace Packet
def pk (len dst : Nat) : Packet := { dst := BitVec.ofNat 16 dst, src := 5, ktag := 0, win := 0, psn := 0, addr := 0, vc := 6, opc := 0x20, len := BitVec.ofNat 9 len, fen := false, cmk := 0, epb := false, dln := 0, twn := false, col := 0, hop := 3, gen := 0, rsv := 0, payload := List.replicate (16*len) 3, check := 0 }
def base : State := (upS.setPort 1 {st := .active, rung := 3, width := 4}).setLink 1 {framed := true, credits := List.replicate 8 3}
def route3 : State := let s := base.setPort 137 {st:=.active}; {s with spg := {s.spg with active := {s.spg.active with regs := [fkey F.RTE_SELF_SELF 0, fkey F.RTE_LOCAL_KIND 3, fkey F.RTE_LOCAL_KIND 4,fkey F.RTE_LOCAL_PORT 4].zip [0,2,1,7] |>.foldl (fun r x => Tbl.set r x.1 x.2) s.spg.active.regs}}}
def states1 : List State := [(route3.setPort 80 {st:=.active}).setLink 80 (({}:Link).setVc 6 {bytes := ((pk 3 4).seal.bytes).take 30}), (route3.setPort 80 {st:=.active}).setLink 80 (({}:Link).setVc 6 {bytes := ((pk 300 4).seal.bytes).take 30}), base]
def states1_0 : State := states1[0]'(by decide +kernel)
def states1_1 : State := states1[1]'(by decide +kernel)
/-- The hypotheses of Obligations.PacketIngress. -/
theorem witness_PacketIngress :
    ((80 < 144) ∧ (Runs states1_0) ∧ ((states1_0.port 80).st ≠ PSt.active ∨ 0 < ((states1_0.link 80).vc (0#3).toNat).left ∨ ((states1_0.link 80).vc (0#3).toNat).bytes.length < 24)) ∧
    ((80 < 144) ∧ (Runs states1_1) ∧ ((states1_1.port 80).st = PSt.active) ∧ (((states1_1.link 80).vc (6#3).toNat).left = 0) ∧ (24 ≤ ((states1_1.link 80).vc (6#3).toNat).bytes.length) ∧ (256 < (Packet.ofHeader ((states1_1.link 80).vc (6#3).toNat).bytes).len.toNat)) ∧
    ((80 < 144) ∧ (Runs states1_0) ∧ ((states1_0.port 80).st = PSt.active) ∧ (((states1_0.link 80).vc (6#3).toNat).left = 0) ∧ (24 ≤ ((states1_0.link 80).vc (6#3).toNat).bytes.length) ∧ (let n := Min.min (Packet.ofHeader ((states1_0.link 80).vc (6#3).toNat).bytes).size ((states1_0.link 80).vc (6#3).toNat).bytes.length; let s1 := ((states1_0.count F.OUB_RXPKT_CNT_COUNT 80).count F.OUB_RXBYTE_CNT_COUNT 80 n).modLink 80 fun l => l.setVc (6#3).toNat (have __src := l.vc (6#3).toNat; { __src with bytes := List.drop n ((states1_0.link 80).vc (6#3).toNat).bytes, left := (Packet.ofHeader ((states1_0.link 80).vc (6#3).toNat).bytes).size - n, junk := List.take n ((states1_0.link 80).vc (6#3).toNat).bytes }); decide (route s1 s1.spg.active 80 (ingressHeader s1 80 (Packet.ofHeader ((states1_0.link 80).vc (6#3).toNat).bytes)) = (RouteRes.port 7 6 0#2, s1)) && (decide (ingressCause s1 80 (Packet.ofHeader ((states1_0.link 80).vc (6#3).toNat).bytes) = none) && (decide ((ingressHeader s1 80 (Packet.ofHeader ((states1_0.link 80).vc (6#3).toNat).bytes)).epb = states1_0.spg.epb) && (decide (∀ (n : Nat), n < 8 → states1_0.rdB F.OUB_MIRCTL_EN n = false) && (decide (((states1_0.link 80).vc (6#3).toNat).bytes.length < (Packet.ofHeader ((states1_0.link 80).vc (6#3).toNat).bytes).size) && decide (∀ (f : Flow), f ∈ states1_0.xbr.flows → f.id ≠ states1_0.xbr.nextId)))))) = true) := by
  refine ⟨?_, ?_, ?_⟩ <;> decide +kernel
end Packet

namespace Output
def pk (len dst : Nat) : Packet := { dst := BitVec.ofNat 16 dst, src := 5, ktag := 0, win := 0, psn := 0, addr := 0, vc := 6, opc := 0x10, len := BitVec.ofNat 9 len, fen := false, cmk := 0, epb := false, dln := 0, twn := false, col := 0, hop := 3, gen := 0, rsv := 0, payload := List.replicate (16*len) 3, check := 0 }
def cl (st : CellSt) : CellRec := ⟨0, 2, st⟩
def fl (out : Nat) (f : Flow → Flow) : Flow := f { id := 9, inp := 1, out := out, vc := 6, evc := 6, hdr := {pk 2 0 with payload := []}, total := (pk 2 0).size, bytes := (pk 2 0).seal.bytes }
def fls : List Flow := [fl 150 id, fl 1 id, fl 2 id, fl 150 (fun f => {f with admitted := true, cells := [cl .flying]}), fl 1 (fun f => {f with admitted := true, cells := [cl .flying]}), fl 1 (fun f => {f with admitted := true, cells := [cl .waiting]}), fl 1 (fun f => {f with admitted := true, cells := [cl .released]}), fl 1 (fun f => {f with admitted := true, cells := [cl .lost]}), fl 150 (fun f => {f with total := 300000})]
def withCfg (s : State) : State := { s with spg := {s.spg with active := {s.spg.active with regs := Tbl.set (Tbl.set s.spg.active.regs (fkey F.RTE_SELF_SELF 0) 0) (fkey F.RTE_LOCAL_KIND 3) 2}}}
def base : State := (upS.setPort 1 {st := .active, rung := 3, width := 4}).setLink 1 {framed := true, credits := List.replicate 8 3}
def states0 : List State := [upS, base, {base with xbr := {base.xbr with up := 7, drain := 2}}, (base.setPort 1 {st:=.active, paused:=true})] ++ 
  (fls.flatMap fun f => [{base with xbr := {base.xbr with flows := [f]}}, {base.setPort 2 {st:=.active} with xbr := {base.xbr with flows := [f],nextId:=10}}]) ++
  [(withCfg (base.setPort 137 {st:=.active})).setLink 137 (({}:Link).setVc 6 {bytes := ((pk 3 3).seal.bytes).take 30}), base.setLink 1 (({}:Link).setVc 6 {bytes := ((pk 300 0).seal.bytes).take 100})]
def states0_0 : State := states0[0]'(by decide +kernel)
def states0_1 : State := states0[1]'(by decide +kernel)
def states0_10 : State := states0[10]'(by decide +kernel)
def states0_12 : State := states0[12]'(by decide +kernel)
def states0_14 : State := states0[14]'(by decide +kernel)
def states0_16 : State := states0[16]'(by decide +kernel)
def states0_18 : State := states0[18]'(by decide +kernel)
def states0_2 : State := states0[2]'(by decide +kernel)
def states0_20 : State := states0[20]'(by decide +kernel)
def states0_4 : State := states0[4]'(by decide +kernel)
def states0_6 : State := states0[6]'(by decide +kernel)
def states0_8 : State := states0[8]'(by decide +kernel)
/-- The hypotheses of Obligations.OutputServes. -/
theorem witness_OutputServes :
    ((1 < 144) ∧ (Quiet states0_0) ∧ ((states0_0.port 1).st ≠ PSt.active ∨ (states0_0.port 1).paused = true)) ∧
    ((1 < 144) ∧ (Quiet states0_1) ∧ ((states0_1.port 1).st = PSt.active) ∧ ((states0_1.port 1).paused = false) ∧ ((states0_1.link 1).resend = 0) ∧ ((states0_1.link 1).replay.length < replayDepth states0_1 1) ∧ (states0_1.xbr.flows = [])) ∧
    ((1 < 144) ∧ (Quiet states0_16) ∧ ((states0_16.port 1).st = PSt.active) ∧ ((states0_16.port 1).paused = false) ∧ ((states0_16.link 1).resend = 0) ∧ ((states0_16.link 1).replay.length < replayDepth states0_16 1) ∧ (states0_16.xbr.flows.length = 1) ∧ (states0_16.xbr.flows.any fun f => decide (f.out = 1) && (decide (f.evc = 6) && (decide (6 < 8) && (decide (f.admitted = true) && (decide (f.started = false) && (decide (f.mirror = none) && (decide (f.cutShort = false) && (decide (f.saf = false) && (decide (f.cells.length = 1) && f.cells.any fun c => decide (c.st = CellSt.released) && (decide (f.sent = 0) && (decide (28 ≤ f.total) && (decide (f.total ≤ 256) && (decide (f.total ≤ f.bytes.length) && (decide ((states0_16.link 1).credits = List.replicate 8 (2 + 1)) && (decide (states0_16.outp 1 = { }) && decide (states0_16.linkSec 1 = none)))))))))))))))) = true) := by
  refine ⟨?_, ?_, ?_⟩ <;> decide +kernel
/-- The hypotheses of Obligations.AdmissionAndCells, its part on admission. -/
theorem witness_Admission :
    ((Quiet states0_0) ∧ (findFlow states0_0 1 = none)) ∧
    ((Quiet states0_10) ∧ (Option.any (fun f => decide (f.admitted = true)) (findFlow states0_10 9)) = true) ∧
    ((Quiet states0_4) ∧ (states0_4.xbr.flows.length = 1) ∧ (states0_4.xbr.flows.any fun f => decide (f.id = 9) && (decide (f.admitted = false) && (decide (f.mirror = none) && (decide (144 ≤ f.out) && (decide (states0_4.xbr.up ≠ 0) && decide (cellsOf f.total ≤ states0_4.xbr.intFree.get f.out 1024)))))) = true) ∧
    ((Quiet states0_20) ∧ (states0_20.xbr.flows.length = 1) ∧ (states0_20.xbr.flows.any fun f => decide (f.id = 9) && (decide (f.admitted = false) && (decide (f.mirror = none) && (decide (144 ≤ f.out) && (decide (states0_20.xbr.up ≠ 0) && decide (states0_20.xbr.intFree.get f.out 1024 < cellsOf f.total)))))) = true) ∧
    ((Quiet states0_8) ∧ (states0_8.xbr.flows.length = 1) ∧ (states0_8.xbr.flows.any fun f => decide (f.id = 9) && (decide (f.admitted = false) && (decide (f.held = false) && (decide (f.mirror = none) && (decide (f.inp < 144) && (decide (f.out < 144) && (decide (states0_8.xbr.up ≠ 0) && decide ((states0_8.port f.out).st ≠ PSt.active)))))))) = true) := by
  refine ⟨?_, ?_, ?_, ?_, ?_⟩ <;> decide +kernel
/-- The hypotheses of Obligations.AdmissionAndCells, its part on cells. -/
theorem witness_Cells :
    ((Quiet states0_14) ∧ (2 < 4) ∧ (states0_14.xbr.flows.length = 1) ∧ (states0_14.xbr.flows.any fun f => decide (f.admitted = true) && (decide (f.inp < 272) && (decide (f.out < 272) && (decide (states0_14.xbr.up.getLsbD 2 = true) && Option.any (fun i => decide (inFlight states0_14 f < 64)) (nextCell f 2))))) = true) ∧
    ((Quiet states0_2) ∧ (3 < 4) ∧ (states0_2.xbr.up.getLsbD 3 = false)) ∧
    ((Quiet states0_12) ∧ (states0_12.xbr.flows.length = 1) ∧ (states0_12.xbr.flows.any fun f => decide (f.admitted = true) && (decide (f.cells.length = 1) && f.cells.any fun c => decide (c.st = CellSt.flying) && decide (f.out < 144))) = true) ∧
    ((Quiet states0_10) ∧ (states0_10.xbr.flows.length = 1) ∧ (states0_10.xbr.flows.any fun f => decide (f.admitted = true) && (decide (f.cells.length = 1) && f.cells.any fun c => decide (c.st = CellSt.flying) && (decide (144 ≤ f.out) && (decide (f.chkBad = false) && decide (f.cutShort = false))))) = true) ∧
    ((Quiet states0_0) ∧ (findFlow states0_0 1 = none)) := by
  refine ⟨?_, ?_, ?_, ?_, ?_⟩ <;> decide +kernel
/-- The hypotheses of Obligations.LatePacketsAndPlanes, its part on lost and late packets. -/
theorem witness_LostAndLatePackets :
    ((Quiet states0_4) ∧ (Option.any (fun f => decide ((f.cells.any fun c => c.st == CellSt.lost) = false)) (findFlow states0_4 9)) = true) ∧
    ((Quiet states0_0) ∧ (findFlow states0_0 1 = none) ∧ (unackedAt states0_0 1 = none)) ∧
    ((Quiet states0_4) ∧ (Option.any (fun f => decide (144 ≤ f.out)) (findFlow states0_4 9)) = true) ∧
    ((Quiet states0_6) ∧ (states0_6.xbr.flows.length = 1) ∧ (states0_6.xbr.flows.any fun f => decide (f.inp < 144) && (decide (f.out < 144) && decide (f.started = false))) = true) ∧
    ((Quiet states0_18) ∧ (states0_18.xbr.flows.length = 1) ∧ (states0_18.xbr.flows.any fun f => decide (f.inp < 144) && (decide (f.out < 144) && (decide (f.started = false) && decide ((f.cells.any fun c => c.st == CellSt.lost) = true)))) = true) := by
  refine ⟨?_, ?_, ?_, ?_, ?_⟩ <;> decide +kernel
/-- The hypotheses of Obligations.LatePacketsAndPlanes, its part on planes. -/
theorem witness_Planes :
    ((1 < 4) ∧ (Quiet states0_0) ∧ (states0_0.xbr.up.getLsbD 1 = true) ∧ (states0_0.xbr.up ≠ BitVec.ofNat 4 (2 ^ 1)) ∧ (states0_0.sev (708 + 1) = 4) ∧ (stickyBit states0_0 (708 + 1) = false)) ∧
    ((3 < 4) ∧ (Quiet states0_2) ∧ (states0_2.xbr.up.getLsbD 3 = false)) ∧
    ((1 < 4) ∧ (Quiet states0_2) ∧ (states0_2.xbr.drain.getLsbD 1 = true) ∧ (planeEmpty states0_2 1 = true) ∧ (states0_2.xbr.up ≠ BitVec.ofNat 4 (2 ^ 1))) ∧
    ((1 < 4) ∧ (Quiet states0_0) ∧ (states0_0.xbr.drain.getLsbD 1 = false ∨ planeEmpty states0_0 1 = false ∨ states0_0.xbr.up = BitVec.ofNat 4 (2 ^ 1))) ∧
    ((1 < 4) ∧ (Quiet states0_0) ∧ (6#4 &&& ~~~BitVec.ofNat 4 (states0_0.rd F.XBR_STS_PLANEFLT) ≠ 0) ∧ (states0_0.xbr.up ≠ 0)) ∧
    ((1 < 4) ∧ (Quiet states0_0) ∧ (0#4 &&& ~~~BitVec.ofNat 4 (states0_0.rd F.XBR_STS_PLANEFLT) = 0 ∨ states0_0.xbr.up = 0)) := by
  refine ⟨?_, ?_, ?_, ?_, ?_, ?_⟩ <;> decide +kernel
end Output

namespace Network
def pk (opc : Nat) (pl : List Byte) : Packet := { dst := 9, src := 5, ktag := 0, win := 0, psn := 4, addr := 0, vc := 6, opc := BitVec.ofNat 6 opc, len := 1, fen := false, cmk := 0, epb := false, dln := 0, twn := false, col := 0, hop := 3, gen := 0, rsv := 0, payload := pl, check := 0 }
def q0 : Queued := ⟨3, {pk 0x20 [1,2,3,4,5,6,7,8,1,2,3,4,5,6,7,8] with src := 9, dst := 5}, .module, some 7⟩
def ans (opc : Nat) : Arrival := ⟨3, {pk opc (1 :: List.replicate 15 0) with src := 5, dst := 9}, 0⟩
def cm (opc : Nat) : Cmd := {k := 1, q := 2, seq := 5, desc := List.replicate 40 0 ++ [16] ++ List.replicate 23 0, opc := opc, outst := 1, wr := 16}
def ot (opc : Nat) (ow : Owner) : Outst := ⟨{pk opc [] with src := 9, dst := 5}, 1, false, ow, 16, 0, 1⟩
def w0 : Window := {pair := some (5,1), psn := 5, rate := 1000}
def sendSrcs0 : List SendSrc := [.queued 3, .cmd 1 2 5]
def queueds0 : List Queued := [q0]
def arrivals0 : List Arrival := [ans 8, ans 9, ans 10, ans 11, {ans 8 with pkt := {(ans 8).pkt with cmk := 2}}]
def rd2 : Cmd := {cm 4 with desc := List.replicate 24 0 ++ [1,0] ++ List.replicate 14 0 ++ [32] ++ List.replicate 23 0, fen := true,wr:=0}
def windows0 : List Window := [w0, {w0 with lastEcho := some 5}]
def ow : Owner := .cmd 1 2 5 0
def states0 : List State := [upS,{upS with ni := {slots := [(0, {w0 with pair := some ((rankEid upS 1 1).2,1)})], outst := [ot 1 .answer]}, cmds := [rd2]},{upS with ni := {slots := [(0, w0)], ovfPairs := [(5,7)]}, ref := 100000000000000000}, {upS with ni := {queue := [q0]}}, {upS with ni := {queue := [q0], nextQ := 5}, ref := 50000000000000000}, {upS with ni := {queue := [q0], slots := [(0, {w0 with pair := some (5,4096), tokens := -1})]}},
  {upS with ni := {slots := [(3, w0)]}, ref := 100000000000000000}, {upS with ni := {slots := [(3, {w0 with lastEcho := some 5})]}, ref := 100000000000000},{upS with ni := {slots := [(0, w0)], outst := [ot 1 ow]}, time := 100000, cmds := [cm 4]}
  ,{upS with ni := {slots := [(0, w0)], outst := [ot 2 ow], inbox := [ans 9]}, time := 100000, cmds := [cm 3]}
  ,{upS with ni := {slots := [(0, w0)], outst := [ot 4 ow]}, time := 100000, cmds := [cm 5]} ,{upS with ni := {slots := [(0, w0)], outst := [ot 1 .answer]}, ref := 100000000000000000}]
def arrivals0_0 : Arrival := arrivals0[0]'(by decide +kernel)
def arrivals0_1 : Arrival := arrivals0[1]'(by decide +kernel)
def arrivals0_2 : Arrival := arrivals0[2]'(by decide +kernel)
def arrivals0_3 : Arrival := arrivals0[3]'(by decide +kernel)
def arrivals0_4 : Arrival := arrivals0[4]'(by decide +kernel)
def queueds0_0 : Queued := queueds0[0]'(by decide +kernel)
def sendSrcs0_0 : SendSrc := sendSrcs0[0]'(by decide +kernel)
def sendSrcs0_1 : SendSrc := sendSrcs0[1]'(by decide +kernel)
def states0_0 : State := states0[0]'(by decide +kernel)
def states0_1 : State := states0[1]'(by decide +kernel)
def states0_10 : State := states0[10]'(by decide +kernel)
def states0_2 : State := states0[2]'(by decide +kernel)
def states0_3 : State := states0[3]'(by decide +kernel)
def states0_5 : State := states0[5]'(by decide +kernel)
def states0_6 : State := states0[6]'(by decide +kernel)
def states0_7 : State := states0[7]'(by decide +kernel)
def states0_8 : State := states0[8]'(by decide +kernel)
def states0_9 : State := states0[9]'(by decide +kernel)
def windows0_0 : Window := windows0[0]'(by decide +kernel)
def windows0_1 : Window := windows0[1]'(by decide +kernel)
/-- The hypotheses of Obligations.InterfaceSending, its part on interface sends. -/
theorem witness_InterfaceSends :
    ((Runs states0_0) ∧ (stranded states0_0 sendSrcs0_0 = none) ∧ (nextOf states0_0 sendSrcs0_0 = none)) ∧
    ((Runs states0_1) ∧ (Option.any (fun c => decide (stranded states0_1 sendSrcs0_1 = none) && (decide (states0_1.ni.ovfPairs = []) && Option.any (fun i => decide (maySend states0_1 (Wid.slot i) c.pkt = false)) (slotOfPair states0_1 (c.pkt.dst, c.kennel)))) (nextOf states0_1 sendSrcs0_1)) = true) ∧
    ((Runs states0_3) ∧ (sendSrcs0_0 = SendSrc.queued queueds0_0.id) ∧ (states0_3.ni = { queue := [queueds0_0], nextQ := states0_3.ni.nextQ }) ∧ (Option.any (fun p => decide (queueds0_0.pkt.ktag = 0) && (decide (queueds0_0.toMate = false) && (decide (queueds0_0.pkt.twn = false) && (decide (queueds0_0.pkt.fen = false) && (decide (queueds0_0.pkt.payload.length ≤ 4096) && (decide (states0_3.knl = []) && decide (states0_3.rtv.colls = []))))))) queueds0_0.port) = true) := by
  refine ⟨?_, ?_, ?_⟩ <;> decide +kernel
/-- The hypotheses of Obligations.InterfaceSending, its part on rate rises. -/
theorem witness_RateRises :
    ((Runs states0_6) ∧ (states0_6.ni.slots = [(3, windows0_0)]) ∧ (windows0_0.pair.isSome = true) ∧ (states0_6.ni.ovf = []) ∧ (states0_6.ni.ovfPairs = []) ∧ (usPast states0_6.clock (Max.max 1 (states0_6.rd F.RTE_CCTL_INC)) windows0_0.lastEcho = true) ∧ (usPast states0_6.clock (Max.max 1 (states0_6.rd F.RTE_CCTL_INC)) windows0_0.lastInc = true)) ∧
    ((Runs states0_7) ∧ (states0_7.ni.slots = [(3, windows0_1)]) ∧ (windows0_1.pair.isSome = true) ∧ (states0_7.ni.ovf = []) ∧ (states0_7.ni.ovfPairs = []) ∧ (usPast states0_7.clock (Max.max 1 (states0_7.rd F.RTE_CCTL_INC)) windows0_1.lastEcho = false ∨ usPast states0_7.clock (Max.max 1 (states0_7.rd F.RTE_CCTL_INC)) windows0_1.lastInc = false)) ∧
    ((Runs states0_2) ∧ (states0_2.ni.ovfPairs.length = 1) ∧ (states0_2.ni.ovfPairs.any fun pair => Option.any (fun i => decide (states0_2.ni.outst = [])) (freeSlot states0_2)) = true) := by
  refine ⟨?_, ?_, ?_⟩ <;> decide +kernel
/-- The hypotheses of Obligations.WindowsAndAnswers, its part on windows freed and faulted. -/
theorem witness_WindowsFreedAndFaulted :
    ((0 < 65536) ∧ (Runs states0_5) ∧ (states0_5.ni.ovfPairs = []) ∧ ((states0_5.window 0).pair.isSome = true) ∧ (states0_5.outOf (Wid.slot 0) = [])) ∧
    ((0 < 65536) ∧ (Runs states0_0) ∧ (states0_0.ni.ovfPairs = []) ∧ ((states0_0.window 0).pair = none ∨ states0_0.outOf (Wid.slot 0) ≠ [])) ∧
    ((0 < 65536) ∧ (Runs states0_0) ∧ (states0_0.ni.ovfPairs = []) ∧ (states0_0.outOf (Wid.slot 0) = [])) ∧
    ((0 < 65536) ∧ (Runs states0_8) ∧ (states0_8.ni.ovfPairs = []) ∧ ((states0_8.outOf (Wid.slot 0)).length = 1) ∧ ((states0_8.outOf (Wid.slot 0)).any fun o => decide (states0_8.cmds.length = 1) && states0_8.cmds.any fun c => decide (o.owner = Owner.cmd c.k c.q c.seq 0) && (decide (states0_8.rtv.colls = []) && (decide (c.fen = false) && (decide (c.status = 0) && (decide ((states0_8.window 0).pair = some (5#16, c.k)) && decide (c.k < 4096)))))) = true) ∧
    ((0 < 65536) ∧ (Runs states0_1) ∧ (states0_1.ni.ovfPairs = []) ∧ ((states0_1.outOf (Wid.slot 0)).length = 1) ∧ ((states0_1.outOf (Wid.slot 0)).any fun o => decide (o.owner = Owner.answer) && (decide (states0_1.cmds.length = 1) && states0_1.cmds.any fun c => decide (states0_1.rtv.colls = []) && (decide (c.fen = true) && Option.any (fun n => decide ((states0_1.window 0).pair = some (n.pkt.dst, c.k)) && decide (c.status = 0)) (cmdNext states0_1 c)))) = true) := by
  refine ⟨?_, ?_, ?_, ?_, ?_⟩ <;> decide +kernel
/-- The hypotheses of Obligations.WindowsAndAnswers, its part on answers reach commands. -/
theorem witness_AnswersReachCommands :
    ((Runs states0_8) ∧ ((answered states0_8 arrivals0_0.pkt).length = 1) ∧ ((answered states0_8 arrivals0_0.pkt).any fun o => decide (states0_8.ni.outst = [o]) && (decide (states0_8.ni.ovfPairs = []) && (decide (states0_8.cmds.length = 1) && states0_8.cmds.any fun c => decide (o.owner = Owner.cmd c.k c.q c.seq 0) && (decide (arrivals0_0.pkt.cmk ≠ 2) && decide (arrivals0_0.pkt.opc = 8))))) = true) ∧
    ((Runs states0_9) ∧ ((answered states0_9 arrivals0_1.pkt).length = 1) ∧ ((answered states0_9 arrivals0_1.pkt).any fun o => decide (states0_9.ni.outst = [o]) && (decide (states0_9.ni.ovfPairs = []) && (decide (states0_9.cmds.length = 1) && states0_9.cmds.any fun c => decide (o.owner = Owner.cmd c.k c.q c.seq 0) && (decide (arrivals0_1.pkt.cmk ≠ 2) && (decide (arrivals0_1.pkt.opc = 9) && (decide (c.opc = 3) && (decide (c.status = 0) && (decide (bit (field c.desc 36 1) 0 = false) && decide (bit (field c.desc 36 1) 1 = false))))))))) = true) ∧
    ((Runs states0_10) ∧ ((answered states0_10 arrivals0_2.pkt).length = 1) ∧ ((answered states0_10 arrivals0_2.pkt).any fun o => decide (states0_10.ni.outst = [o]) && (decide (states0_10.ni.ovfPairs = []) && (decide (states0_10.cmds.length = 1) && states0_10.cmds.any fun c => decide (o.owner = Owner.cmd c.k c.q c.seq 0) && (decide (arrivals0_2.pkt.cmk ≠ 2) && (decide (arrivals0_2.pkt.opc = 10) && decide (c.opc = 5)))))) = true) ∧
    ((Runs states0_8) ∧ ((answered states0_8 arrivals0_3.pkt).length = 1) ∧ ((answered states0_8 arrivals0_3.pkt).any fun o => decide (states0_8.ni.outst = [o]) && (decide (states0_8.ni.ovfPairs = []) && (decide (states0_8.cmds.length = 1) && states0_8.cmds.any fun c => decide (o.owner = Owner.cmd c.k c.q c.seq 0) && (decide (arrivals0_3.pkt.cmk ≠ 2) && decide (arrivals0_3.pkt.opc = 11))))) = true) ∧
    ((Runs states0_8) ∧ ((answered states0_8 arrivals0_3.pkt).length = 1) ∧ ((answered states0_8 arrivals0_3.pkt).any fun o => decide (states0_8.ni.outst = [o]) && (decide (states0_8.ni.ovfPairs = []) && (decide (states0_8.cmds.length = 1) && states0_8.cmds.any fun c => decide (o.owner = Owner.cmd c.k c.q c.seq 0) && (decide (arrivals0_3.pkt.cmk ≠ 2) && decide (arrivals0_3.pkt.opc ≠ 8))))) = true) ∧
    ((Runs states0_8) ∧ ((answered states0_8 arrivals0_0.pkt).length = 1) ∧ ((answered states0_8 arrivals0_0.pkt).any fun o => decide (states0_8.ni.outst = [o]) && (decide (states0_8.ni.ovfPairs = []) && (decide (states0_8.cmds.length = 1) && states0_8.cmds.any fun c => decide (o.owner = Owner.cmd c.k c.q c.seq 0) && (decide (arrivals0_0.pkt.cmk ≠ 2) && decide (arrivals0_0.pkt.opc ≠ 9))))) = true) ∧
    ((Runs states0_8) ∧ ((answered states0_8 arrivals0_0.pkt).length = 1) ∧ ((answered states0_8 arrivals0_0.pkt).any fun o => decide (states0_8.ni.outst = [o]) && (decide (states0_8.ni.ovfPairs = []) && (decide (states0_8.cmds.length = 1) && states0_8.cmds.any fun c => decide (o.owner = Owner.cmd c.k c.q c.seq 0) && (decide (arrivals0_0.pkt.cmk ≠ 2) && decide (arrivals0_0.pkt.opc ≠ 10))))) = true) ∧
    ((Runs states0_8) ∧ ((answered states0_8 arrivals0_0.pkt).length = 1) ∧ ((answered states0_8 arrivals0_0.pkt).any fun o => decide (states0_8.ni.outst = [o]) && (decide (states0_8.ni.ovfPairs = []) && (decide (states0_8.cmds.length = 1) && states0_8.cmds.any fun c => decide (o.owner = Owner.cmd c.k c.q c.seq 0) && (decide (arrivals0_0.pkt.cmk ≠ 2) && decide (arrivals0_0.pkt.opc ≠ 11))))) = true) := by
  refine ⟨?_, ?_, ?_, ?_, ?_, ?_, ?_, ?_⟩ <;> decide +kernel
/-- The hypotheses of Obligations.InterfaceSending, its part on echo cuts rate. -/
theorem witness_EchoCutsRate :
    ((Runs states0_1) ∧ ((answered states0_1 arrivals0_4.pkt).length = 1) ∧ ((answered states0_1 arrivals0_4.pkt).any fun o => decide (o.owner = Owner.answer) && (decide (o.wid = Wid.slot 0) && (decide (states0_1.ni.ovfPairs = []) && (decide (arrivals0_4.pkt.opc = 8) && (decide (arrivals0_4.pkt.cmk = 2) && (decide (0 < 65536) && decide (usPast states0_1.clock (Max.max 1 (states0_1.rd F.RTE_CCTL_GAP)) (states0_1.window 0).lastCut = true))))))) = true) := by decide +kernel
end Network

namespace Queue
def put (l : List Byte) (xs : List (Nat × Nat × Nat)) : List Byte := xs.foldl (fun l x => (l.take x.1 ++ leBytes x.2.1 x.2.2 ++ l.drop (x.1 + x.2.1))) l
def de (opc : Nat) (xs : List (Nat × Nat × Nat)) : Desc := ⟨5, put (List.replicate 64 0) ((0,1,opc) :: xs)⟩
def ds : List Desc := [de 0 [], de 0 [(20,1,1)], de 0x20 [], de 1 [(2,2,0x8003),(6,6,2)], de 1 [(2,2,0x8003),(6,6,0)], de 1 [], de 2 [(18,2,3),(24,8,7)], de 2 [(18,2,3),(24,8,7),(20,1,1)], de 0xD [], de 0xE [], de 0xE [(24,1,1),(16,6,64)], 
  de 3 [(40,8,32),(16,6,64),(24,6,128)], de 3 [(40,8,33)], de 3 [(36,1,1),(40,8,32),(16,6,64),(24,6,128)], de 3 [(36,1,3),(40,8,32),(16,6,64),(24,6,80)], de 3 [(36,1,2),(40,8,32),(16,6,64),(24,6,128)], de 4 [(26,1,1),(40,8,32),(32,8,5)], de 4 [(40,8,32)], de 5 [(27,1,1)], de 5 [(26,1,1),(27,1,1)], de 0xF [(16,1,1),(20,4,9),(24,4,2)], de 0xF [(16,1,7),(20,4,9),(24,4,2)]]
def qu (d : List Desc) : Queue := {head := 6, tail := 8, ahead := d, ring := [(6, List.replicate 64 1)], base := 4096}
def kn (d : List Desc) : Kennel := {st := .open, ktag := 7, feat := BitVec.allOnes 64, nWh := 8, wh := [(3,1)], queues := [(1, {head := 9, tail := 12}), (2, qu d)], rankN := 2, ranks := [(0,0x10009)], root := some 0}
def st (d : List Desc) : State := {upS with pool := {mem := tbls [(0,3+256*5)]}, knl := [(1, kn d)], time := 9000*77}
def cmds : List Cmd := [{k:=1,q:=2,seq:=5,desc:=(de 1 [(16,4,3)]).bytes,opc:=1}, {k:=1,q:=2,seq:=5,desc:=(de 1 []).bytes,opc:=1}, {k:=1,q:=2,seq:=5,desc:=(de 0 []).bytes,opc:=0,done:=true},{k:=1,q:=2,seq:=5,desc:=(de 0 [(1,1,4)]).bytes,opc:=0,done:=true}]
def states0 : List State := ds.map (fun d => st [d]) ++ [{st [] with part := .s}, st [], {st [] with pool := {}}, {st (List.replicate 16 (de 0 [])) with part := .s}] ++ cmds.map (fun c => {st [] with cmds := [c]})
def states0_0 : State := states0[0]'(by decide +kernel)
def states0_1 : State := states0[1]'(by decide +kernel)
def states0_11 : State := states0[11]'(by decide +kernel)
def states0_12 : State := states0[12]'(by decide +kernel)
def states0_13 : State := states0[13]'(by decide +kernel)
def states0_15 : State := states0[15]'(by decide +kernel)
def states0_16 : State := states0[16]'(by decide +kernel)
def states0_17 : State := states0[17]'(by decide +kernel)
def states0_18 : State := states0[18]'(by decide +kernel)
def states0_19 : State := states0[19]'(by decide +kernel)
def states0_2 : State := states0[2]'(by decide +kernel)
def states0_20 : State := states0[20]'(by decide +kernel)
def states0_21 : State := states0[21]'(by decide +kernel)
def states0_22 : State := states0[22]'(by decide +kernel)
def states0_24 : State := states0[24]'(by decide +kernel)
def states0_25 : State := states0[25]'(by decide +kernel)
def states0_26 : State := states0[26]'(by decide +kernel)
def states0_27 : State := states0[27]'(by decide +kernel)
def states0_28 : State := states0[28]'(by decide +kernel)
def states0_29 : State := states0[29]'(by decide +kernel)
def states0_3 : State := states0[3]'(by decide +kernel)
def states0_5 : State := states0[5]'(by decide +kernel)
def states0_6 : State := states0[6]'(by decide +kernel)
def states0_7 : State := states0[7]'(by decide +kernel)
def states0_8 : State := states0[8]'(by decide +kernel)
def states0_9 : State := states0[9]'(by decide +kernel)
/-- The hypotheses of Obligations.QueueProgress, its part on descriptor reads. -/
theorem witness_DescriptorReads :
    ((1 < 4096) ∧ (Runs states0_22) ∧ (Option.any (fun x => decide ((states0_22.kennel 1).st = KSt.open) && (decide (states0_22.fatal = false) && (decide (stopping states0_22 = false) && (decide (states0_22.dieOut = false) && (decide (x.head ≠ x.tail) && (decide (x.ahead.length < 16) && (decide ¬x.head ∈ x.skip && (decide (states0_22.scent 1 = none) && decide (states0_22.part = Part.s))))))))) (states0_22.queue 1 1)) = true) ∧
    ((1 < 4096) ∧ (Runs states0_0) ∧ (Option.any (fun x => decide ((states0_0.kennel 1).st = KSt.open) && (decide (states0_0.fatal = false) && (decide (stopping states0_0 = false) && (decide (states0_0.dieOut = false) && (decide (x.head ≠ x.tail) && (decide (x.ahead.length < 16) && (decide ¬x.head ∈ x.skip && (decide (states0_0.scent 1 = none) && (decide (states0_0.part ≠ Part.s) && (true && let va := x.base + 64 * (BitVec.toNat x.head % 2 ^ x.log2); Option.any (fun pa => decide ((pageEntry states0_0 1 (va / 2 ^ 21)).isSome = true) && (decide (states0_0.cryptoErr = false) && (decide (blockLost states0_0 (pa / 64) = false) && decide (states0_0.pool.errsOf (pa / 64) = [])))) (physAddr states0_0 1 va))))))))))) (states0_0.queue 1 1)) = true) ∧
    ((1 < 4096) ∧ (Runs states0_24) ∧ (Option.any (fun x => decide ((states0_24.kennel 1).st = KSt.open) && (decide (states0_24.fatal = false) && (decide (stopping states0_24 = false) && (decide (states0_24.dieOut = false) && (decide (x.head ≠ x.tail) && (decide (x.ahead.length < 16) && (decide ¬x.head ∈ x.skip && (decide (states0_24.scent 1 = none) && (decide (states0_24.part ≠ Part.s) && decide (pageEntry states0_24 1 ((x.base + 64 * (BitVec.toNat x.head % 2 ^ x.log2)) / 2 ^ 21) = none)))))))))) (states0_24.queue 1 1)) = true) ∧
    ((1 < 4096) ∧ (Runs states0_25) ∧ (Option.any (fun x => decide ((states0_25.kennel 1).st ≠ KSt.open ∨ x.head = x.tail ∨ 16 ≤ x.ahead.length)) (states0_25.queue 1 2)) = true) ∧
    ((1 < 4096) ∧ (Runs states0_0) ∧ (states0_0.queue 1 3 = none)) := by
  refine ⟨?_, ?_, ?_, ?_, ?_⟩ <;> decide +kernel
/-- The hypotheses of Obligations.WaitsAndSignals, its part on nop and wait. -/
theorem witness_NopAndWait :
    ((Option.any (fun x => Option.any (fun d => decide (Issuable states0_0 1 2 x d) && (decide (d.opc = 0) && (decide (HeaderOk states0_0 1 d) && decide (nonzero d 16 63 = false)))) x.ahead.head?) (states0_0.queue 1 2)) = true) ∧
    ((Option.any (fun x => Option.any (fun d => decide (Issuable states0_1 1 2 x d) && (decide (d.opc = 0) && (decide (HeaderOk states0_1 1 d) && decide (nonzero d 16 63 = true)))) x.ahead.head?) (states0_1.queue 1 2)) = true) ∧
    ((Option.any (fun x => Option.any (fun d => decide (Issuable states0_2 1 2 x d) && decide (16 ≤ d.opc)) x.ahead.head?) (states0_2.queue 1 2)) = true) ∧
    ((Option.any (fun x => Option.any (fun d => decide (Issuable states0_3 1 2 x d) && (decide (1 ≤ d.opc) && decide (d.opc < 16))) x.ahead.head?) (states0_3.queue 1 2)) = true) ∧
    ((Option.any (fun x => Option.any (fun d => decide (Issuable states0_3 1 2 x d) && (decide (d.opc = 1) && (decide (HeaderOk states0_3 1 d) && (decide (d.wen = true) && decide (nonzero d 20 63 = false))))) x.ahead.head?) (states0_3.queue 1 2)) = true) ∧
    ((Option.any (fun x => Option.any (fun d => decide (Issuable states0_5 1 2 x d) && (decide (d.opc = 1) && (decide (HeaderOk states0_5 1 d) && decide (d.wen = false)))) x.ahead.head?) (states0_5.queue 1 2)) = true) := by
  refine ⟨?_, ?_, ?_, ?_, ?_, ?_⟩ <;> decide +kernel
/-- The hypotheses of Obligations.WaitsAndSignals, its part on wait times out. -/
theorem witness_WaitTimesOut :
    ((states0_26.cmds.length = 1) ∧ (states0_26.cmds.any fun c => decide (c.k < 4096) && (decide (Runs states0_26) && (decide (c.opc = 1) && (decide (c.done = false) && (decide (field c.desc 16 4 ≠ 0) && decide (c.status = 0)))))) = true) ∧
    ((states0_27.cmds.length = 1) ∧ (states0_27.cmds.any fun c => decide (c.k < 4096) && (decide (Runs states0_27) && (decide (c.opc = 1) && (decide (c.done = false) && decide (field c.desc 16 4 = 0))))) = true) := by
  refine ⟨?_, ?_⟩ <;> decide +kernel
/-- The hypotheses of Obligations.WaitsAndSignals, its part on signal fence timestamp. -/
theorem witness_SignalFenceTimestamp :
    ((Option.any (fun x => Option.any (fun d => decide (Issuable states0_6 1 2 x d) && (decide (HeaderOk states0_6 1 d) && (decide (d.opc = 2) && (decide (states0_6.cmds = []) && (decide (states0_6.dieOut = false) && (decide (field d.bytes 20 1 = 0) && (decide (nonzero d 21 23 = false) && (decide (nonzero d 32 63 = false) && (decide (field d.bytes 18 2 < (states0_6.kennel 1).nWh) && decide (field d.bytes 18 2 < 4096)))))))))) x.ahead.head?) (states0_6.queue 1 2)) = true) ∧
    ((Option.any (fun x => Option.any (fun d => decide (Issuable states0_7 1 2 x d) && (decide (HeaderOk states0_7 1 d) && (decide (d.opc = 2) && (decide (field d.bytes 20 1 = 1) && (decide (nonzero d 21 23 = false) && (decide (nonzero d 32 63 = false) && (decide (field d.bytes 18 2 < 4096) && decide ((rankEid states0_7 1 (field d.bytes 16 2)).fst = 0)))))))) x.ahead.head?) (states0_7.queue 1 2)) = true) ∧
    ((Option.any (fun x => Option.any (fun d => decide (Issuable states0_8 1 2 x d) && (decide (HeaderOk states0_8 1 d) && (decide (d.opc = 13) && (decide (field d.bytes 16 1 = 0) && decide (nonzero d 17 63 = false))))) x.ahead.head?) (states0_8.queue 1 2)) = true) ∧
    ((Option.any (fun x => Option.any (fun d => decide (Issuable states0_9 1 2 x d) && (decide (HeaderOk states0_9 1 d) && (decide (d.opc = 14) && (decide (field d.bytes 24 1 = 0) && (decide (nonzero d 22 23 = false) && decide (nonzero d 25 63 = false)))))) x.ahead.head?) (states0_9.queue 1 2)) = true) := by
  refine ⟨?_, ?_, ?_, ?_⟩ <;> decide +kernel
/-- The hypotheses of Obligations.MovesAndLaunchesIssue, its part on moving commands issue. -/
theorem witness_MovingCommandsIssue :
    ((Option.any (fun x => Option.any (fun d => decide (Issuable states0_11 1 2 x d) && (decide (HeaderOk states0_11 1 d) && (decide (d.opc = 3) && (decide (field d.bytes 36 1 = 0) && (decide (nonzero d 22 23 = false) && (decide (nonzero d 30 31 = false) && (decide (nonzero d 37 39 = false) && (decide (nonzero d 48 63 = false) && (decide (field d.bytes 16 6 % 16 = 0) && (decide (field d.bytes 24 6 % 16 = 0) && (decide (field d.bytes 40 8 ≠ 0) && (decide (field d.bytes 40 8 % 16 = 0) && (decide (field d.bytes 40 8 ≤ 2 ^ 40) && (decide ((rankEid states0_11 1 (field d.bytes 32 2)).fst = 0) && decide ((rankEid states0_11 1 (field d.bytes 34 2)).fst = 0))))))))))))))) x.ahead.head?) (states0_11.queue 1 2)) = true) ∧
    ((Option.any (fun x => Option.any (fun d => decide (Issuable states0_12 1 2 x d) && (decide (HeaderOk states0_12 1 d) && (decide (d.opc = 3) && (decide (field d.bytes 36 1 = 0) && (decide (nonzero d 22 23 = false) && (decide (nonzero d 30 31 = false) && (decide (nonzero d 37 39 = false) && (decide (nonzero d 48 63 = false) && (decide (field d.bytes 16 6 % 16 = 0) && (decide (field d.bytes 24 6 % 16 = 0) && decide (field d.bytes 40 8 = 0 ∨ field d.bytes 40 8 % 16 ≠ 0))))))))))) x.ahead.head?) (states0_12.queue 1 2)) = true) ∧
    ((Option.any (fun x => Option.any (fun d => decide (Issuable states0_13 1 2 x d) && (decide (HeaderOk states0_13 1 d) && (decide (d.opc = 3) && (decide (field d.bytes 36 1 = 1 ∨ field d.bytes 36 1 = 3) && (decide (nonzero d 22 23 = false) && (decide (nonzero d 30 31 = false) && (decide (nonzero d 37 39 = false) && (decide (nonzero d 48 63 = false) && (decide (field d.bytes 16 6 % 16 = 0) && (decide (field d.bytes 24 6 % 16 = 0) && (decide (field d.bytes 40 8 ≠ 0) && (decide (field d.bytes 40 8 % 16 = 0) && (decide (field d.bytes 40 8 ≤ 2 ^ 40) && (decide (field d.bytes 36 1 = 1 → (rankEid states0_13 1 (field d.bytes 34 2)).fst = 0) && (decide ((states0_13.kennel 1).feature 1 = true) && (decide (mapped states0_13 1 (field d.bytes 16 6) (field d.bytes 40 8) = true) && (decide (field d.bytes 36 1 = 3 → mapped states0_13 1 (field d.bytes 24 6) (field d.bytes 40 8) = true) && decide (poolCheck states0_13 1 (field d.bytes 16 6) (PoolOp.read (Min.min 4096 (field d.bytes 40 8))) false = none)))))))))))))))))) x.ahead.head?) (states0_13.queue 1 2)) = true) ∧
    ((Option.any (fun x => Option.any (fun d => decide (Issuable states0_15 1 2 x d) && (decide (HeaderOk states0_15 1 d) && (decide (d.opc = 3) && (decide (field d.bytes 36 1 = 2) && (decide (nonzero d 22 23 = false) && (decide (nonzero d 30 31 = false) && (decide (nonzero d 37 39 = false) && (decide (nonzero d 48 63 = false) && (decide (field d.bytes 16 6 % 16 = 0) && (decide (field d.bytes 24 6 % 16 = 0) && (decide (field d.bytes 40 8 ≠ 0) && (decide (field d.bytes 40 8 % 16 = 0) && (decide (field d.bytes 40 8 ≤ 2 ^ 40) && (decide ((rankEid states0_15 1 (field d.bytes 32 2)).fst = 0) && (decide ((states0_15.kennel 1).feature 1 = true) && decide (mapped states0_15 1 (field d.bytes 24 6) (field d.bytes 40 8) = true)))))))))))))))) x.ahead.head?) (states0_15.queue 1 2)) = true) ∧
    ((Option.any (fun x => Option.any (fun d => decide (Issuable states0_16 1 2 x d) && (decide (HeaderOk states0_16 1 d) && (decide (d.opc = 4) && (decide (field d.bytes 26 1 = 1) && (decide (nonzero d 22 23 = false) && (decide (nonzero d 27 31 = false) && (decide (nonzero d 48 63 = false) && (decide (field d.bytes 16 6 % 16 = 0) && (decide (field d.bytes 40 8 % 16 = 0) && (decide (field d.bytes 40 8 ≠ 0) && (decide (field d.bytes 40 8 ≤ 2 ^ 40) && (decide ((states0_16.kennel 1).feature 1 = true) && (decide (mapped states0_16 1 (field d.bytes 16 6) (field d.bytes 40 8) = true) && let w := patternBytes (List.take 8 (List.drop 32 d.bytes)) (Min.min 4096 (field d.bytes 40 8)); decide (poolCheck states0_16 1 (field d.bytes 16 6) (PoolOp.write w) false = none)))))))))))))) x.ahead.head?) (states0_16.queue 1 2)) = true) ∧
    ((Option.any (fun x => Option.any (fun d => decide (Issuable states0_17 1 2 x d) && (decide (HeaderOk states0_17 1 d) && (decide (d.opc = 4) && (decide (field d.bytes 26 1 = 0) && (decide (nonzero d 22 23 = false) && (decide (nonzero d 27 31 = false) && (decide (nonzero d 48 63 = false) && (decide (field d.bytes 16 6 % 16 = 0) && (decide (field d.bytes 40 8 % 16 = 0) && (decide (field d.bytes 40 8 ≠ 0) && (decide (field d.bytes 40 8 ≤ 2 ^ 40) && decide ((rankEid states0_17 1 (field d.bytes 24 2)).fst = 0)))))))))))) x.ahead.head?) (states0_17.queue 1 2)) = true) ∧
    ((Option.any (fun x => Option.any (fun d => decide (Issuable states0_18 1 2 x d) && (decide (HeaderOk states0_18 1 d) && (decide (d.opc = 5) && (decide (field d.bytes 27 1 < 4) && (decide (nonzero d 22 23 = false) && (decide (nonzero d 28 31 = false) && (decide (nonzero d 48 63 = false) && (decide (field d.bytes 16 6 % (descAtomic d.bytes).align = 0) && (decide ((states0_18.kennel 1).repro = false ∨ field d.bytes 27 1 ≠ 2) && (decide (field d.bytes 26 1 = 0) && decide ((rankEid states0_18 1 (field d.bytes 24 2)).fst = 0))))))))))) x.ahead.head?) (states0_18.queue 1 2)) = true) ∧
    ((Option.any (fun x => Option.any (fun d => decide (Issuable states0_19 1 2 x d) && (decide (HeaderOk states0_19 1 d) && (decide (d.opc = 5) && (decide (field d.bytes 27 1 < 4) && (decide (nonzero d 22 23 = false) && (decide (nonzero d 28 31 = false) && (decide (nonzero d 48 63 = false) && (decide (field d.bytes 16 6 % (descAtomic d.bytes).align = 0) && (decide ((states0_19.kennel 1).repro = false ∨ field d.bytes 27 1 ≠ 2) && (decide (field d.bytes 26 1 = 1) && (decide ((states0_19.kennel 1).feature 1 = true) && (decide ((states0_19.kennel 1).feature 2 = true) && (decide (mapped states0_19 1 (field d.bytes 16 6) (descAtomic d.bytes).len = true) && decide (poolCheck states0_19 1 (field d.bytes 16 6) (descAtomic d.bytes) false = none)))))))))))))) x.ahead.head?) (states0_19.queue 1 2)) = true) := by
  refine ⟨?_, ?_, ?_, ?_, ?_, ?_, ?_, ?_⟩ <;> decide +kernel
/-- The hypotheses of Obligations.QueueProgress, its part on cancel reaches. -/
theorem witness_CancelReaches :
    ((Option.any (fun x => Option.any (fun d => decide (Issuable states0_21 1 2 x d) && (decide (HeaderOk states0_21 1 d) && (decide (d.opc = 15) && (decide (field d.bytes 16 1 < 16) && (decide (field d.bytes 16 1 ≠ 2) && (decide (nonzero d 17 19 = false) && (decide (nonzero d 28 63 = false) && (decide (field d.bytes 24 4 ≠ 0) && (decide (field d.bytes 24 4 ≤ 65536) && decide (states0_21.queue 1 (field d.bytes 16 1) = none)))))))))) x.ahead.head?) (states0_21.queue 1 2)) = true) ∧
    ((Option.any (fun x => Option.any (fun d => decide (Issuable states0_20 1 2 x d) && (decide (HeaderOk states0_20 1 d) && (decide (d.opc = 15) && (decide (field d.bytes 16 1 < 16) && (decide (field d.bytes 16 1 ≠ 2) && (decide (nonzero d 17 19 = false) && (decide (nonzero d 28 63 = false) && (decide (field d.bytes 24 4 ≠ 0) && (decide (field d.bytes 24 4 ≤ 65536) && Option.any (fun y => decide (y.ahead = []) && (decide (issuedOf states0_20 1 (field d.bytes 16 1) = []) && (decide (y.skip = []) && (decide (BitVec.ofNat 32 (field d.bytes 20 4) = y.head) && decide (field d.bytes 24 4 ≤ BitVec.toNat (y.tail - y.head)))))) (states0_20.queue 1 (field d.bytes 16 1))))))))))) x.ahead.head?) (states0_20.queue 1 2)) = true) := by
  refine ⟨?_, ?_⟩ <;> decide +kernel
/-- The hypotheses of Obligations.QueueProgress, its part on command completes. -/
theorem witness_CommandCompletes :
    ((states0_26.cmds.length = 1) ∧ (states0_26.cmds.any fun c => decide (c.k < 4096) && (decide (Runs states0_26) && (decide (c.coll = none) && (decide (states0_26.dieOut = false) && decide (isDone states0_26 c = false))))) = true) ∧
    ((states0_28.cmds.length = 1) ∧ (states0_28.cmds.any fun c => decide (c.k < 4096) && (decide (Runs states0_28) && (decide (c.coll = none) && (decide (states0_28.dieOut = false) && (decide (isDone states0_28 c = true) && (decide (c.opc ≠ 3) && (decide (c.opc ≠ 4) && (decide (bit c.sigw 15 = false) && (decide ((states0_28.kennel c.k).held = []) && let code := if c.status ≠ 0 then c.status else if c.cancelLost = true then Code.cancelLost else Code.ok; decide ((c.quiet && code == 0) = false) && decide ((states0_28.kennel c.k).ringFull = false)))))))))) = true) ∧
    ((states0_29.cmds.length = 1) ∧ (states0_29.cmds.any fun c => decide (c.k < 4096) && (decide (Runs states0_29) && (decide (c.coll = none) && (decide (states0_29.dieOut = false) && (decide (isDone states0_29 c = true) && (decide (c.opc ≠ 3) && (decide (c.opc ≠ 4) && (decide (bit c.sigw 15 = false) && (decide ((states0_29.kennel c.k).held = []) && let code := if c.status ≠ 0 then c.status else if c.cancelLost = true then Code.cancelLost else Code.ok; decide ((c.quiet && code == 0) = true)))))))))) = true) := by
  refine ⟨?_, ?_, ?_⟩ <;> decide +kernel
end Queue

namespace Command
def put (l : List Byte) (xs : List (Nat × Nat × Nat)) : List Byte := xs.foldl (fun l x => (l.take x.1 ++ leBytes x.2.1 x.2.2 ++ l.drop (x.1 + x.2.1))) l
def de (opc : Nat) (xs : List (Nat × Nat × Nat)) : Desc := ⟨5, put (List.replicate 64 0) ((0,1,opc) :: xs)⟩
def co (o : Nat) : Desc := de o [(16,2,1),(20,1,14),(40,8,64),(48,2,0),(58,6,0x40)]
def cos : List Desc := [7,8,9,10,11,12].map co ++ [7,8,9,10,11,12].map (fun o => de o [(16,2,1),(20,1,14),(40,8,64),(48,2,0xFFFF)]) ++ [de 7 [(16,2,2)], de 6 [(16,6,0x1000),(40,2,1),(44,4,9)], de 6 [(16,6,0x1000),(40,2,2),(44,4,9)]]
def qu (d : List Desc) : Queue := {head := 6, tail := 8, ahead := d, ring := [(6, List.replicate 64 1)], base := 4096}
def kn (d : List Desc) : Kennel := {st := .open, ktag := 7, feat := BitVec.allOnes 64, nWh := 8, wh := [(3,1)], queues := [(1, {head := 9, tail := 12}), (2, qu d)], rankN := 2, ranks := [(0,0x10009)], root := some 0}
def img0 : List Byte := leBytes 4 0x48435653 ++ leBytes 2 1 ++ leBytes 2 1 ++ List.replicate 244 0
def tbl : List Byte := leBytes 8 288 ++ leBytes 4 1 ++ leBytes 4 0
def img : List Byte := img0 ++ leBytes 4 (crc32c (img0 ++ tbl)) ++ tbl ++ List.replicate 48 0
def st (d : List Desc) (q : Nat) : State := let s := {upS with knl := [(1, kn d)], time := 9000*77, pool := ({mem := tbls [(0,3+256*5)]}:Pool).setBytes (5*2^21+0x1000) img }
  let s := ((s.wr F.RTV_QUOTA_QUOTA q 1).wr F.CMP_OWN_KENNEL 1 0).wr F.CMP_OWN_VALID 1 0
  {s with spg := {s.spg with active := {s.spg.active with grp := [(1,(5,1+2^15+2*2^22,0,0))]}}}
def states0 : List State := cos.map (fun d => st [d] 200) ++ (cos.take 2).map (fun d => st [d] 0)
def states0_0 : State := states0[0]'(by decide +kernel)
def states0_13 : State := states0[13]'(by decide +kernel)
def states0_14 : State := states0[14]'(by decide +kernel)
def states0_15 : State := states0[15]'(by decide +kernel)
def states0_4 : State := states0[4]'(by decide +kernel)
/-- The hypotheses of Obligations.MovesAndLaunchesIssue, its part on launch issues. -/
theorem witness_LaunchIssues :
    ((Option.any (fun x => Option.any (fun d => decide (Issuable states0_14 1 2 x d) && (decide (d.opc = 6) && let s1 := touchImage 1 (launchArgs d.bytes) (modQueue 1 2 (fun y => { y with ahead := List.drop 1 y.ahead }) states0_14); decide (launchStatus s1 1 d ≠ 0))) x.ahead.head?) (states0_14.queue 1 2)) = true) ∧
    ((Option.any (fun x => Option.any (fun d => decide (Issuable states0_13 1 2 x d) && (decide (d.opc = 6) && let s1 := touchImage 1 (launchArgs d.bytes) (modQueue 1 2 (fun y => { y with ahead := List.drop 1 y.ahead }) states0_13); decide (launchStatus s1 1 d = 0) && decide (s1.hnd.todo = []))) x.ahead.head?) (states0_13.queue 1 2)) = true) := by
  refine ⟨?_, ?_⟩ <;> decide +kernel
/-- The hypotheses of Obligations.CollectivesIssue. -/
theorem witness_CollectivesIssue :
    ((Option.any (fun x => Option.any (fun d => decide (Issuable states0_4 1 2 x d) && [(Instr.bcast 1 2, 7), (Instr.bcastv 1 2, 8), (Instr.reduce 1 2, 9), (Instr.reducev 1 2, 10), (Instr.allred 1 2, 11), (Instr.update 1 2, 12)].any fun r => decide (d.opc = r.snd) && let s0 := modQueue 1 2 (fun y => { y with ahead := List.drop 1 y.ahead }) states0_4; decide (collStatus (translate 1 (collUses (collOf s0 1 2 d.seq d.bytes false) (field d.bytes 58 6)) (collStatus s0 1 d) s0) 1 d ≠ 0)) x.ahead.head?) (states0_4.queue 1 2)) = true) ∧
    ((Option.any (fun x => Option.any (fun d => decide (Issuable states0_15 1 2 x d) && [(Instr.bcast 1 2, 7), (Instr.bcastv 1 2, 8), (Instr.reduce 1 2, 9), (Instr.reducev 1 2, 10), (Instr.allred 1 2, 11), (Instr.update 1 2, 12)].any fun r => decide (d.opc = r.snd) && let s0 := modQueue 1 2 (fun y => { y with ahead := List.drop 1 y.ahead }) states0_15; let need := { (collOf (issuedAs states0_15 1 2 (issuedCmd states0_15 1 2 d)) 1 2 d.seq d.bytes (issuedCmd states0_15 1 2 d).repro) with repro := (collOf (issuedAs states0_15 1 2 (issuedCmd states0_15 1 2 d)) 1 2 d.seq d.bytes (issuedCmd states0_15 1 2 d).repro).repro || states0_15.rdB F.DET_CTL_NOFAST }.need (states0_15.rd F.RTV_CTL_WIN + 1); decide (collStatus (translate 1 (collUses (collOf s0 1 2 d.seq d.bytes false) (field d.bytes 58 6)) (collStatus s0 1 d) s0) 1 d = 0) && (decide (stagingBytes < need ∨ quotaBytes states0_15 1 < need) && decide (∀ (z : Coll), z ∈ states0_15.rtv.colls → z.id ≠ states0_15.rtv.nextId))) x.ahead.head?) (states0_15.queue 1 2)) = true) ∧
    ((Option.any (fun x => Option.any (fun d => decide (Issuable states0_0 1 2 x d) && [(Instr.bcast 1 2, 7), (Instr.bcastv 1 2, 8), (Instr.reduce 1 2, 9), (Instr.reducev 1 2, 10), (Instr.allred 1 2, 11), (Instr.update 1 2, 12)].any fun r => decide (d.opc = r.snd) && let s0 := modQueue 1 2 (fun y => { y with ahead := List.drop 1 y.ahead }) states0_0; let need := { (collOf (issuedAs states0_0 1 2 (issuedCmd states0_0 1 2 d)) 1 2 d.seq d.bytes (issuedCmd states0_0 1 2 d).repro) with repro := (collOf (issuedAs states0_0 1 2 (issuedCmd states0_0 1 2 d)) 1 2 d.seq d.bytes (issuedCmd states0_0 1 2 d).repro).repro || states0_0.rdB F.DET_CTL_NOFAST }.need (states0_0.rd F.RTV_CTL_WIN + 1); decide (collStatus (translate 1 (collUses (collOf s0 1 2 d.seq d.bytes false) (field d.bytes 58 6)) (collStatus s0 1 d) s0) 1 d = 0) && (decide (need ≤ stagingBytes) && (decide (need ≤ quotaBytes states0_0 1) && (decide ((collOf (issuedAs states0_0 1 2 (issuedCmd states0_0 1 2 d)) 1 2 d.seq d.bytes (issuedCmd states0_0 1 2 d).repro).stoch = false) && decide (r.snd = 12 → (collRead 1 (field d.bytes 58 6) 64 (issuedAs states0_0 1 2 (issuedCmd states0_0 1 2 d))).fst = 0 ∧ (collRead 1 (field d.bytes 58 6) 64 (issuedAs states0_0 1 2 (issuedCmd states0_0 1 2 d))).snd.snd.hnd.todo = []))))) x.ahead.head?) (states0_0.queue 1 2)) = true) := by
  refine ⟨?_, ?_, ?_⟩ <;> decide +kernel
end Command

namespace Access
def pk (opc len addr : Nat) (pl : List Byte) : Packet := { dst := 0, src := 4, ktag := 7, win := 3, psn := 4, addr := BitVec.ofNat 48 addr, vc := 0, opc := BitVec.ofNat 6 opc, len := BitVec.ofNat 9 len, fen := false, cmk := 0, epb := false, dln := 0, twn := false, col := 0, hop := 3, gen := 2, rsv := 0, payload := pl, check := 0 }
def ar (opc len addr : Nat) (pl : List Byte) : Arrival := ⟨3, pk opc len addr (pl ++ List.replicate (16*len - pl.length) 0), 0⟩
def B := 0x400000000000
def ars : List Arrival := [ar 1 1 (B+0x2000) [11], ar 1 1 (B+0x2000) (leBytes 4 500), ar 2 1 (B+0x2000) [2], ar 1 4 (B+0x2800) ((List.range 64).map (BitVec.ofNat 8)), ar 1 8 (B+0x2800) ((List.range 128).map (BitVec.ofNat 8)), ar 1 7 (B+0x2800) [], ar 2 1 (B+0x100000000+24) [1],ar 1 1 (B+0x100000000+24) [9,0,0,0,0,0,0,0,5], ar 4 1 (B+0x100000000+24) [9], ar 6 1 (B+0x100000000+24) [1,0,0,0,0,0,0,0,5],ar 4 1 (B+0x100000000+24*8) [9],
  ar 2 1 (B+0x200000000+0) [2],  ar 2 1 (B+0x200000000+0x1000) [2], ar 1 1 (B+0x300000000+0x10) [3], ar 1 1 (B+0x300000000+0x10) [13], ar 2 1 (B+0x300000000) [2],ar 2 1 (B+0x300000000+0x1020) [2], ar 1 2 (B+0x300000000+0x120) [0xFF], ar 1 1 (B+0x500000000) [5], {ar 1 1 (B+0x2000) [11] with pkt := {(ar 1 1 (B+0x2000) [11]).pkt with ktag := 9}}]
def qu (t : Nat) : Queue := {head := 6, tail := BitVec.ofNat 32 t, base := 4096}
def kn (t : Nat) : Kennel := {st := .open, ktag := 7, feat := BitVec.allOnes 64, nWh := 8, wh := [(3,1)], queues := [(1, {head := 9, tail := 12}), (2, qu t)], rankN := 2, ranks := [(0,0x10009)], root := some 0, viewMask := 1, ctail := 5, chead := 1, recs := [(1, List.replicate 32 7)]}
def arrivals0 : List Arrival := ars
def route3 (s : State) : State := let s := s.setPort 7 {st:=.active}; {s with spg := {s.spg with active := {s.spg.active with regs := [fkey F.RTE_SELF_SELF 0, fkey F.RTE_LOCAL_KIND 3, fkey F.RTE_LOCAL_KIND 4,fkey F.RTE_LOCAL_PORT 4].zip [0,2,1,7] |>.foldl (fun r x => Tbl.set r x.1 x.2) s.spg.active.regs}}}
def st (k : Kennel) : State := route3 {upS with pool := {mem := tbls [(0,3+256*5)]}, knl := [(1, k)], time := 9000*77, binds := [(7,1)], csr := [(5,5)], cmds := [{k:=1,q:=2,seq:=5,desc := (List.replicate 2 0 ++ leBytes 4 3 ++ leBytes 6 2 ++ List.replicate 52 0),opc:=1}]}
def states0 : List State := [st (kn 7), {st (kn 7) with part := .s}, {st (kn (6+64)) with part := .s}, st {kn 7 with st := .created}, upS]
def routeG : State := let s := upS.setPort 137 {st:=.active}; {s with spg := {s.spg with active := {s.spg.active with regs := [fkey F.RTE_SELF_SELF 0, fkey F.RTE_LOCAL_KIND 3, fkey F.RTE_LOCAL_KIND 4,fkey F.RTE_LOCAL_PORT 4].zip [0,2,1,137] |>.foldl (fun r x => Tbl.set r x.1 x.2) s.spg.active.regs}}}
def states1 : List State := [routeG, (upS).setPort 80 {st := .active}]
def packets0 : List Packet := [{pk 1 1 0 [] with src := 4}]
def states2 : List State := [st (kn 7), {st (kn 7) with part := .s}]
def arrivals0_0 : Arrival := arrivals0[0]'(by decide +kernel)
def arrivals0_10 : Arrival := arrivals0[10]'(by decide +kernel)
def arrivals0_11 : Arrival := arrivals0[11]'(by decide +kernel)
def arrivals0_12 : Arrival := arrivals0[12]'(by decide +kernel)
def arrivals0_13 : Arrival := arrivals0[13]'(by decide +kernel)
def arrivals0_14 : Arrival := arrivals0[14]'(by decide +kernel)
def arrivals0_15 : Arrival := arrivals0[15]'(by decide +kernel)
def arrivals0_16 : Arrival := arrivals0[16]'(by decide +kernel)
def arrivals0_17 : Arrival := arrivals0[17]'(by decide +kernel)
def arrivals0_18 : Arrival := arrivals0[18]'(by decide +kernel)
def arrivals0_19 : Arrival := arrivals0[19]'(by decide +kernel)
def arrivals0_2 : Arrival := arrivals0[2]'(by decide +kernel)
def arrivals0_3 : Arrival := arrivals0[3]'(by decide +kernel)
def arrivals0_4 : Arrival := arrivals0[4]'(by decide +kernel)
def arrivals0_5 : Arrival := arrivals0[5]'(by decide +kernel)
def arrivals0_6 : Arrival := arrivals0[6]'(by decide +kernel)
def arrivals0_7 : Arrival := arrivals0[7]'(by decide +kernel)
def arrivals0_8 : Arrival := arrivals0[8]'(by decide +kernel)
def arrivals0_9 : Arrival := arrivals0[9]'(by decide +kernel)
def packets0_0 : Packet := packets0[0]'(by decide +kernel)
def states0_0 : State := states0[0]'(by decide +kernel)
def states0_1 : State := states0[1]'(by decide +kernel)
def states0_2 : State := states0[2]'(by decide +kernel)
def states0_3 : State := states0[3]'(by decide +kernel)
def states1_0 : State := states1[0]'(by decide +kernel)
def states2_0 : State := states2[0]'(by decide +kernel)
/-- The hypotheses of Obligations.DoorbellsAndPush, its part on doorbell accesses. -/
theorem witness_DoorbellAccesses :
    ((Runs states0_0) ∧ (arrivals0_19.pkt.ktag ≠ 0) ∧ (isTail arrivals0_19.pkt = true) ∧ (servedKennel states0_0 arrivals0_19.pkt.ktag = none)) ∧
    ((Runs states0_3) ∧ (arrivals0_0.pkt.ktag ≠ 0) ∧ (Option.any (fun k => decide ((states0_3.kennel k).st ≠ KSt.open) && decide (isTail arrivals0_0.pkt = true)) (servedKennel states0_3 arrivals0_0.pkt.ktag)) = true) ∧
    ((Runs states0_3) ∧ (arrivals0_3.pkt.ktag ≠ 0) ∧ (Option.any (fun k => decide ((states0_3.kennel k).st ≠ KSt.open) && decide (isPush arrivals0_3.pkt = true)) (servedKennel states0_3 arrivals0_3.pkt.ktag)) = true) ∧
    ((Runs states0_3) ∧ (arrivals0_2.pkt.ktag ≠ 0) ∧ (Option.any (fun k => decide ((states0_3.kennel k).st ≠ KSt.open) && decide (isBellRead arrivals0_2.pkt = true)) (servedKennel states0_3 arrivals0_2.pkt.ktag)) = true) ∧
    ((Runs states0_0) ∧ (arrivals0_2.pkt.ktag ≠ 0) ∧ (Option.any (fun k => decide ((states0_0.kennel k).st = KSt.open) && (decide (offOf arrivals0_2.pkt / 4096 < 16) && Option.any (fun x => decide (isBellRead arrivals0_2.pkt = true) && (decide (pageOffOf arrivals0_2.pkt = 0) && decide (rlenOf arrivals0_2.pkt = 2))) (states0_0.queue k (offOf arrivals0_2.pkt / 4096)))) (servedKennel states0_0 arrivals0_2.pkt.ktag)) = true) ∧
    ((Runs states0_0) ∧ (arrivals0_2.pkt.ktag ≠ 0) ∧ (isTail arrivals0_2.pkt = false)) ∧
    ((Runs states0_0) ∧ (arrivals0_0.pkt.ktag ≠ 0) ∧ (isPush arrivals0_0.pkt = false)) ∧
    ((Runs states0_0) ∧ (arrivals0_0.pkt.ktag ≠ 0) ∧ (isBellRead arrivals0_0.pkt = false)) := by
  refine ⟨?_, ?_, ?_, ?_, ?_, ?_, ?_, ?_⟩ <;> decide +kernel
/-- The hypotheses of Obligations.DoorbellsAndPush, its part on push writes. -/
theorem witness_PushWrites :
    ((Runs states0_0) ∧ (isPush arrivals0_5.pkt = true) ∧ (arrivals0_5.pkt.ktag ≠ 0) ∧ (Option.any (fun k => decide ((states0_0.kennel k).st = KSt.open) && (decide (offOf arrivals0_5.pkt / 4096 < 16) && Option.any (fun x => decide (pageOffOf arrivals0_5.pkt ≠ 2048 ∨ arrivals0_5.pkt.len.toNat % 4 ≠ 0 ∨ arrivals0_5.pkt.len = 0 ∨ 128 < arrivals0_5.pkt.len.toNat)) (states0_0.queue k (offOf arrivals0_5.pkt / 4096)))) (servedKennel states0_0 arrivals0_5.pkt.ktag)) = true) ∧
    ((Runs states0_2) ∧ (isPush arrivals0_3.pkt = true) ∧ (arrivals0_3.pkt.ktag ≠ 0) ∧ (Option.any (fun k => decide ((states0_2.kennel k).st = KSt.open) && (decide (offOf arrivals0_3.pkt / 4096 < 16) && Option.any (fun x => decide (1 ≤ 1) && (decide (1 ≤ 32) && (decide (pageOffOf arrivals0_3.pkt = 2048) && (decide (arrivals0_3.pkt.len.toNat = 4 * 1) && decide (x.free < 1))))) (states0_2.queue k (offOf arrivals0_3.pkt / 4096)))) (servedKennel states0_2 arrivals0_3.pkt.ktag)) = true) ∧
    ((Runs states0_1) ∧ (isPush arrivals0_3.pkt = true) ∧ (arrivals0_3.pkt.ktag ≠ 0) ∧ (Option.any (fun k => decide ((states0_1.kennel k).st = KSt.open) && (decide (offOf arrivals0_3.pkt / 4096 < 16) && Option.any (fun x => decide (1 ≤ 1) && (decide (1 ≤ 32) && (decide (pageOffOf arrivals0_3.pkt = 2048) && (decide (arrivals0_3.pkt.len.toNat = 4 * 1) && (decide (1 ≤ x.free) && decide (states0_1.part = Part.s)))))) (states0_1.queue k (offOf arrivals0_3.pkt / 4096)))) (servedKennel states0_1 arrivals0_3.pkt.ktag)) = true) ∧
    ((Runs states0_1) ∧ (isPush arrivals0_4.pkt = true) ∧ (arrivals0_4.pkt.ktag ≠ 0) ∧ (Option.any (fun k => decide ((states0_1.kennel k).st = KSt.open) && (decide (offOf arrivals0_4.pkt / 4096 < 16) && Option.any (fun x => decide (1 ≤ 2) && (decide (2 ≤ 32) && (decide (pageOffOf arrivals0_4.pkt = 2048) && (decide (arrivals0_4.pkt.len.toNat = 4 * 2) && (decide (2 ≤ x.free) && (decide (states0_1.part = Part.s) && decide (1 < 2))))))) (states0_1.queue k (offOf arrivals0_4.pkt / 4096)))) (servedKennel states0_1 arrivals0_4.pkt.ktag)) = true) ∧
    ((Runs states0_0) ∧ (isPush arrivals0_3.pkt = true) ∧ (arrivals0_3.pkt.ktag ≠ 0) ∧ (Option.any (fun k => decide ((states0_0.kennel k).st = KSt.open) && (decide (offOf arrivals0_3.pkt / 4096 < 16) && Option.any (fun x => decide (1 ≤ 1) && (decide (1 ≤ 32) && (decide (pageOffOf arrivals0_3.pkt = 2048) && (decide (arrivals0_3.pkt.len.toNat = 4 * 1) && (decide (1 ≤ x.free) && (decide (states0_0.part ≠ Part.s) && let slot := BitVec.toNat x.tail % 2 ^ x.log2; decide (slot + 1 ≤ 2 ^ x.log2) && (decide ((x.base + 64 * slot) % 2 ^ 21 + 64 * 1 ≤ 2 ^ 21) && (decide (arrivals0_3.pkt.payload.length = 64 * 1) && (decide ((x.base + 64 * slot) % 64 = 0) && (decide (poolCheck states0_0 k (x.base + 64 * slot) (PoolOp.write arrivals0_3.pkt.payload) false = none) && (decide (badFormat states0_0 k ((x.base + 64 * slot) / 2 ^ 21) = false) && (decide ((blocksOf states0_0 k (x.base + 64 * slot) (64 * 1)).any (blockLost states0_0) = false) && (decide (mirrorPages states0_0 k (x.base + 64 * slot) (64 * 1) = []) && (decide (mirrorPages (writeVa k (x.base + 64 * slot) arrivals0_3.pkt.payload states0_0) k (x.base + 64 * slot) (64 * 1) = []) && (decide (states0_0.pool.accs = []) && Option.any (fun pa => true) (physAddr states0_0 k (x.base + 64 * slot))))))))))))))))) (states0_0.queue k (offOf arrivals0_3.pkt / 4096)))) (servedKennel states0_0 arrivals0_3.pkt.ktag)) = true) := by
  refine ⟨?_, ?_, ?_, ?_, ?_⟩ <;> decide +kernel
/-- The hypotheses of Obligations.WhistleAccessesAndValues, its part on whistle accesses. -/
theorem witness_WhistleAccesses :
    ((Runs states0_0) ∧ (arrivals0_6.pkt.ktag ≠ 0) ∧ (Option.any (fun k => decide (states0_0.scent k = none) && (decide (states0_0.dieOut = false) && (decide (offOf arrivals0_6.pkt % 8 = 0) && (decide (isWhistle arrivals0_6.pkt 2 = true) && (decide (rlenOf arrivals0_6.pkt = 1) && decide (offOf arrivals0_6.pkt / 8 + 2 * 1 ≤ (states0_0.kennel k).nWh)))))) (servedKennel states0_0 arrivals0_6.pkt.ktag)) = true) ∧
    ((Runs states0_0) ∧ (arrivals0_7.pkt.ktag ≠ 0) ∧ (Option.any (fun k => decide (states0_0.scent k = none) && (decide (states0_0.dieOut = false) && (decide (offOf arrivals0_7.pkt % 8 = 0) && (decide (isWhistle arrivals0_7.pkt 1 = true) && (decide (arrivals0_7.pkt.len = 1) && decide (offOf arrivals0_7.pkt / 8 + 2 ≤ (states0_0.kennel k).nWh)))))) (servedKennel states0_0 arrivals0_7.pkt.ktag)) = true) ∧
    ((Runs states0_0) ∧ (arrivals0_8.pkt.ktag ≠ 0) ∧ (Option.any (fun k => decide (states0_0.scent k = none) && (decide (states0_0.dieOut = false) && (decide (offOf arrivals0_8.pkt % 8 = 0) && (decide (isWhistle arrivals0_8.pkt 4 = true) && decide (offOf arrivals0_8.pkt / 8 + 1 ≤ (states0_0.kennel k).nWh))))) (servedKennel states0_0 arrivals0_8.pkt.ktag)) = true) ∧
    ((Runs states0_0) ∧ (arrivals0_9.pkt.ktag ≠ 0) ∧ (Option.any (fun k => decide (states0_0.scent k = none) && (decide (states0_0.dieOut = false) && (decide (offOf arrivals0_9.pkt % 8 = 0) && (decide (isWhistle arrivals0_9.pkt 6 = true) && decide (offOf arrivals0_9.pkt / 8 + 1 ≤ (states0_0.kennel k).nWh))))) (servedKennel states0_0 arrivals0_9.pkt.ktag)) = true) ∧
    ((Runs states0_0) ∧ (arrivals0_10.pkt.ktag ≠ 0) ∧ (Option.any (fun k => decide (states0_0.scent k = none) && (decide (states0_0.dieOut = false) && (decide (offOf arrivals0_10.pkt % 8 = 0) && (decide (isWhistle arrivals0_10.pkt 4 = true) && decide ((states0_0.kennel k).nWh ≤ offOf arrivals0_10.pkt / 8))))) (servedKennel states0_0 arrivals0_10.pkt.ktag)) = true) ∧
    ((Runs states0_0) ∧ (arrivals0_0.pkt.ktag ≠ 0) ∧ (Option.any (fun k => decide (states0_0.scent k = none) && (decide (states0_0.dieOut = false) && (decide (offOf arrivals0_0.pkt % 8 = 0) && decide (isWhistle arrivals0_0.pkt 2 = false)))) (servedKennel states0_0 arrivals0_0.pkt.ktag)) = true) ∧
    ((Runs states0_0) ∧ (arrivals0_0.pkt.ktag ≠ 0) ∧ (Option.any (fun k => decide (states0_0.scent k = none) && (decide (states0_0.dieOut = false) && (decide (offOf arrivals0_0.pkt % 8 = 0) && decide (isWhistle arrivals0_0.pkt 1 = false)))) (servedKennel states0_0 arrivals0_0.pkt.ktag)) = true) ∧
    ((Runs states0_0) ∧ (arrivals0_0.pkt.ktag ≠ 0) ∧ (Option.any (fun k => decide (states0_0.scent k = none) && (decide (states0_0.dieOut = false) && (decide (offOf arrivals0_0.pkt % 8 = 0) && decide (isWhistle arrivals0_0.pkt 4 = false)))) (servedKennel states0_0 arrivals0_0.pkt.ktag)) = true) ∧
    ((Runs states0_0) ∧ (arrivals0_0.pkt.ktag ≠ 0) ∧ (Option.any (fun k => decide (states0_0.scent k = none) && (decide (states0_0.dieOut = false) && (decide (offOf arrivals0_0.pkt % 8 = 0) && decide (isWhistle arrivals0_0.pkt 6 = false)))) (servedKennel states0_0 arrivals0_0.pkt.ktag)) = true) := by
  refine ⟨?_, ?_, ?_, ?_, ?_, ?_, ?_, ?_, ?_⟩ <;> decide +kernel
/-- The hypotheses of Obligations.ViewAndRingAccesses. -/
theorem witness_ViewAndRingAccesses :
    ((Runs states0_0) ∧ (arrivals0_11.pkt.ktag ≠ 0) ∧ (Option.any (fun k => decide (isCounterRead arrivals0_11.pkt = true) && (decide (offOf arrivals0_11.pkt % 8 = 0) && (decide (offOf arrivals0_11.pkt + 16 * rlenOf arrivals0_11.pkt ≤ 45056) && let offs := List.map (fun i => offOf arrivals0_11.pkt + 8 * i) (upto (2 * rlenOf arrivals0_11.pkt)); decide (∀ (o : Nat), o ∈ offs → bit (states0_0.kennel k).viewMask (viewBit o) = true)))) (servedKennel states0_0 arrivals0_11.pkt.ktag)) = true) ∧
    ((Runs states0_0) ∧ (arrivals0_12.pkt.ktag ≠ 0) ∧ (Option.any (fun k => decide (isCounterRead arrivals0_12.pkt = true) && (decide (offOf arrivals0_12.pkt % 8 = 0) && (decide (offOf arrivals0_12.pkt + 16 * rlenOf arrivals0_12.pkt ≤ 45056) && let offs := List.map (fun i => offOf arrivals0_12.pkt + 8 * i) (upto (2 * rlenOf arrivals0_12.pkt)); offs.any fun o => decide (bit (states0_0.kennel k).viewMask (viewBit o) = false)))) (servedKennel states0_0 arrivals0_12.pkt.ktag)) = true) ∧
    ((Runs states0_0) ∧ (arrivals0_13.pkt.ktag ≠ 0) ∧ (Option.any (fun k => decide (isCheadWrite arrivals0_13.pkt = true) && (decide (offOf arrivals0_13.pkt = 16) && (decide (arrivals0_13.pkt.len = 1) && (decide (field arrivals0_13.pkt.payload 4 12 = 0) && (decide ((states0_0.kennel k).held = []) && decide (BitVec.toNat (BitVec.ofNat 32 (field arrivals0_13.pkt.payload 0 4) - (states0_0.kennel k).chead) ≤ BitVec.toNat ((states0_0.kennel k).ctail - (states0_0.kennel k).chead))))))) (servedKennel states0_0 arrivals0_13.pkt.ktag)) = true) ∧
    ((Runs states0_0) ∧ (arrivals0_14.pkt.ktag ≠ 0) ∧ (Option.any (fun k => decide (isCheadWrite arrivals0_14.pkt = true) && (decide (offOf arrivals0_14.pkt = 16) && (decide (arrivals0_14.pkt.len = 1) && (decide (field arrivals0_14.pkt.payload 4 12 = 0) && (decide ((states0_0.kennel k).held = []) && decide (BitVec.toNat ((states0_0.kennel k).ctail - (states0_0.kennel k).chead) < BitVec.toNat (BitVec.ofNat 32 (field arrivals0_14.pkt.payload 0 4) - (states0_0.kennel k).chead))))))) (servedKennel states0_0 arrivals0_14.pkt.ktag)) = true) ∧
    ((Runs states0_0) ∧ (arrivals0_15.pkt.ktag ≠ 0) ∧ (Option.any (fun k => decide (isRingRead arrivals0_15.pkt = true) && (decide (offOf arrivals0_15.pkt = 0) && decide (rlenOf arrivals0_15.pkt = 2))) (servedKennel states0_0 arrivals0_15.pkt.ktag)) = true) ∧
    ((Runs states0_0) ∧ (arrivals0_16.pkt.ktag ≠ 0) ∧ (Option.any (fun k => decide (isRingRead arrivals0_16.pkt = true) && (decide (4096 ≤ offOf arrivals0_16.pkt) && (decide (offOf arrivals0_16.pkt % 16 = 0) && decide (offOf arrivals0_16.pkt + 16 * rlenOf arrivals0_16.pkt ≤ 4096 + 32 * 2 ^ (states0_0.kennel k).cqLog)))) (servedKennel states0_0 arrivals0_16.pkt.ktag)) = true) ∧
    ((Runs states0_3) ∧ (arrivals0_17.pkt.ktag ≠ 0) ∧ (Option.any (fun k => decide (isKfeaWrite arrivals0_17.pkt = true) && (decide (offOf arrivals0_17.pkt = 288) && (decide (arrivals0_17.pkt.len = 2) && (decide ((states0_3.kennel k).st = KSt.created) && (decide ((states0_3.kennel k).everOpen = false) && decide ((states0_3.kennel k).repro = false)))))) (servedKennel states0_3 arrivals0_17.pkt.ktag)) = true) ∧
    ((Runs states0_0) ∧ (arrivals0_17.pkt.ktag ≠ 0) ∧ (Option.any (fun k => decide (isKfeaWrite arrivals0_17.pkt = true) && (decide (offOf arrivals0_17.pkt = 288) && (decide (arrivals0_17.pkt.len = 2) && decide ((states0_0.kennel k).st ≠ KSt.created)))) (servedKennel states0_0 arrivals0_17.pkt.ktag)) = true) ∧
    ((Runs states0_0) ∧ (arrivals0_18.pkt.ktag ≠ 0) ∧ (Option.any (fun k => decide (opcClass arrivals0_18.pkt.opc.toNat = some 0) && decide (servedElsewhere arrivals0_18.pkt = false)) (servedKennel states0_0 arrivals0_18.pkt.ktag)) = true) ∧
    ((Runs states0_0) ∧ (arrivals0_0.pkt.ktag ≠ 0) ∧ (Option.any (fun k => decide (servedElsewhere arrivals0_0.pkt = true)) (servedKennel states0_0 arrivals0_0.pkt.ktag)) = true) ∧
    ((Runs states0_0) ∧ (arrivals0_0.pkt.ktag ≠ 0) ∧ (Option.any (fun k => decide (isCounterRead arrivals0_0.pkt = false)) (servedKennel states0_0 arrivals0_0.pkt.ktag)) = true) ∧
    ((Runs states0_0) ∧ (arrivals0_0.pkt.ktag ≠ 0) ∧ (Option.any (fun k => decide (isCheadWrite arrivals0_0.pkt = false)) (servedKennel states0_0 arrivals0_0.pkt.ktag)) = true) ∧
    ((Runs states0_0) ∧ (arrivals0_0.pkt.ktag ≠ 0) ∧ (Option.any (fun k => decide (isRingRead arrivals0_0.pkt = false)) (servedKennel states0_0 arrivals0_0.pkt.ktag)) = true) ∧
    ((Runs states0_0) ∧ (arrivals0_0.pkt.ktag ≠ 0) ∧ (Option.any (fun k => decide (isKfeaWrite arrivals0_0.pkt = false)) (servedKennel states0_0 arrivals0_0.pkt.ktag)) = true) := by
  refine ⟨?_, ?_, ?_, ?_, ?_, ?_, ?_, ?_, ?_, ?_, ?_, ?_, ?_, ?_⟩ <;> decide +kernel
/-- The hypotheses of Obligations.ViewAndRingAccesses, its part on answers are formed. -/
theorem witness_AnswersAreFormed :
    ((packets0_0.twn = false) ∧ (let p := (have __src := answerHead packets0_0 8 8 []; { __src with epb := states1_0.spg.epb }).seal; decide (route states1_0 states1_0.spg.active (internalPos p) p = (RouteRes.port 137 2 0#2, states1_0))) = true) := by decide +kernel
/-- The hypotheses of Obligations.WhistleAccessesAndValues, its part on whistle values. -/
theorem witness_WhistleValues :
    ((8 ≠ 8 ∨ 1 ≠ 8)) ∧
    ((states2_0.cmds.any fun c => decide (c.k = 1) && (decide (c.opc = 1) && (decide (field c.desc 2 2 % 4096 = 3) && decide (field c.desc 6 6 ≤ (2#64).toNat)))) = true) := by
  refine ⟨?_, ?_⟩ <;> decide +kernel
end Access

namespace Pool
def pk (opc len addr : Nat) (pl : List Byte) : Packet := { dst := 0, src := 4, ktag := 7, win := 3, psn := 4, addr := BitVec.ofNat 48 addr, vc := 0, opc := BitVec.ofNat 6 opc, len := BitVec.ofNat 9 len, fen := false, cmk := 0, epb := false, dln := 0, twn := false, col := 0, hop := 3, gen := 2, rsv := 0, payload := pl, check := 0 }
def ar (opc len addr : Nat) (pl : List Byte) : Arrival := ⟨3, pk opc len addr (pl ++ List.replicate (16*len - pl.length) 0), 0⟩
def ars : List Arrival := [ar 2 1 0x40 [2], ar 1 1 0x40 [9,8,7], ar 3 1 0x44 [9], ar 4 1 0x48 [5], ar 5 1 0x44 [0,0,0x80,0x3f], ar 6 1 0x40 [9,0,0,0,0,0,0,0,5], ar 2 1 0x200040 [1], ar 2 1 0x41 [1], ar 1 1 0x400000 [4], ar 1 1 0x600000 [4]]
def kn : Kennel := {st := .open, ktag := 7, feat := BitVec.allOnes 64, rankN := 2, ranks := [(0,0x10009)], root := some 0}
def route3 (s : State) : State := let s := s.setPort 7 {st:=.active}; {s with spg := {s.spg with active := {s.spg.active with regs := [fkey F.RTE_SELF_SELF 0, fkey F.RTE_LOCAL_KIND 3, fkey F.RTE_LOCAL_KIND 4,fkey F.RTE_LOCAL_PORT 4].zip [0,2,1,7] |>.foldl (fun r x => Tbl.set r x.1 x.2) s.spg.active.regs}}}
def st (k : Kennel) : State := route3 {upS with pool := {mem := tbls [(0,3+256*5), (2,1+256*6), (3,11+256*5)]}, knl := [(1, k), (3, k)], time := 9000*77, binds := [(7,1)], csr := [(5,5)]}
def mem (s : State) : State := {s with pool := s.pool.setBytes (5*2^21+64) [9,0,0,0,0,0,0,0,3]}
def arrivals0 : List Arrival := ars
def poolOps0 : List PoolOp := [.read 16, .write [1,2], .faddF32 3, .faddI64 3, .cas 3 4]
def states0 : List State := [mem (st kn), mem (st {kn with feat := 1}), mem (st {kn with feat := 2}), mem (st {kn with repro := true, feat := BitVec.allOnes 64}), mem {st kn with part := .s}]
def ac (op : PoolOp) (n : Nat := 0) : PoolAcc := {id := 9, k := 1, va := 64+n, op := op, asker := .fabric (pk 2 1 64 []) 3}
def poolAccs0 : List PoolAcc := [ac (.read 16), ac (.write [1,2,3,4,5,6,7,8,9,10,11,12,13,14,15,0]), ac (.faddI32 5), ac (.faddI64 5), ac (.faddF32 0x3f800000), ac (.cas 9 6), ac (.cas 8 6)]
def packets0 : List Packet := [pk 2 1 64 []]
def states1 : List State := poolAccs0.map fun a => let s := mem (st kn); {s with pool := {s.pool with accs := [a], drain := [0,1]}}
def accessors0 : List Accessor := [.monitor, .debug]
def ou : Outst := ⟨{pk 1 1 64 [] with}, 1, false, .mirror 9, 16, 5, 1⟩
def b0 := mem (st kn)
def mv : Move := {id := 3, ctr := 0, op := .postRead 288 64 0 1, issued := 0}
def pg : Prog := {id := 4, k := 1, q := 2, seq := 5, ncore := 1, static := true, placed := none, sealed_ := false, repro := false, paddr := 0, aadr := 0, step := 0, seed := 0}
def sl : State := {b0.wr F.POL_STS_CUR 1 with cyc := 288, isl := {b0.isl with cores := [(0, {prog := some 4, moves := [mv]})], progs := [pg]}}
def states2 : List State := [sl, {b0.wr F.POL_STS_CUR 1 with cyc := 288}, {b0.wr F.FEA_ACCEPT_BITS 31 with pool := {b0.pool with slots := [(3,5)]}}, b0.wr F.FEA_ACCEPT_BITS 31, b0, {b0 with ni := {b0.ni with outst := [ou]}}, b0.wr F.POL_STS_CUR 1,  {b0 with pool := {b0.pool with inval := some (some 1, 2), accs := [ac (.read 16)]}}, {b0 with pool := {b0.pool with inval := some (some 1, 20), accs := [ac (.read 16)]}}, b0.wr F.POL_MODE_PEND 1, {b0.wr F.POL_MODE_PEND 1 with cyc := 23041}, {b0 with csr := []}]
def states3 : List State := [b0.wr F.POL_SCRUB_EN 0, b0, b0.wr F.POL_SCRUB_EN 1, {b0.wr F.POL_SCRUB_EN 1 with pool := {b0.pool with scrubPos := 196608 * 32768 - 1}}]
def accessors0_1 : Accessor := accessors0[1]'(by decide +kernel)
def arrivals0_0 : Arrival := arrivals0[0]'(by decide +kernel)
def arrivals0_2 : Arrival := arrivals0[2]'(by decide +kernel)
def arrivals0_6 : Arrival := arrivals0[6]'(by decide +kernel)
def arrivals0_8 : Arrival := arrivals0[8]'(by decide +kernel)
def packets0_0 : Packet := packets0[0]'(by decide +kernel)
def poolOps0_0 : PoolOp := poolOps0[0]'(by decide +kernel)
def poolOps0_1 : PoolOp := poolOps0[1]'(by decide +kernel)
def poolOps0_2 : PoolOp := poolOps0[2]'(by decide +kernel)
def poolOps0_3 : PoolOp := poolOps0[3]'(by decide +kernel)
def states0_0 : State := states0[0]'(by decide +kernel)
def states0_1 : State := states0[1]'(by decide +kernel)
def states1_0 : State := states1[0]'(by decide +kernel)
def states1_1 : State := states1[1]'(by decide +kernel)
def states1_2 : State := states1[2]'(by decide +kernel)
def states1_3 : State := states1[3]'(by decide +kernel)
def states1_4 : State := states1[4]'(by decide +kernel)
def states1_5 : State := states1[5]'(by decide +kernel)
def states1_6 : State := states1[6]'(by decide +kernel)
def states2_0 : State := states2[0]'(by decide +kernel)
def states2_1 : State := states2[1]'(by decide +kernel)
def states2_10 : State := states2[10]'(by decide +kernel)
def states2_2 : State := states2[2]'(by decide +kernel)
def states2_3 : State := states2[3]'(by decide +kernel)
def states2_5 : State := states2[5]'(by decide +kernel)
def states2_7 : State := states2[7]'(by decide +kernel)
def states2_8 : State := states2[8]'(by decide +kernel)
def states2_9 : State := states2[9]'(by decide +kernel)
def states3_0 : State := states3[0]'(by decide +kernel)
def states3_1 : State := states3[1]'(by decide +kernel)
def states3_3 : State := states3[3]'(by decide +kernel)
/-- The hypotheses of Obligations.PoolAccesses. -/
theorem witness_PoolAccesses :
    ((Runs states0_0) ∧ (arrivals0_0.pkt.ktag ≠ 0) ∧ (Option.any (fun k => decide (states0_0.scent k = none) && [(Instr.poolRead arrivals0_0, 2, PoolOp.read (16 * rlenOf arrivals0_0.pkt)), (Instr.poolWrite arrivals0_0, 1, PoolOp.write arrivals0_0.pkt.payload), (Instr.poolFaddI32 arrivals0_0, 3, PoolOp.faddI32 (BitVec.ofNat 32 (field arrivals0_0.pkt.payload 0 4))), (Instr.poolFaddI64 arrivals0_0, 4, PoolOp.faddI64 (BitVec.ofNat 64 (field arrivals0_0.pkt.payload 0 8))), (Instr.poolFaddF32 arrivals0_0, 5, PoolOp.faddF32 (BitVec.ofNat 32 (field arrivals0_0.pkt.payload 0 4))), (Instr.poolCas64 arrivals0_0, 6, PoolOp.cas (BitVec.ofNat 64 (field arrivals0_0.pkt.payload 0 8)) (BitVec.ofNat 64 (field arrivals0_0.pkt.payload 8 8)))].any fun r => decide (isPool arrivals0_0.pkt r.snd.fst = false)) (servedKennel states0_0 arrivals0_0.pkt.ktag)) = true) ∧
    ((Runs states0_0) ∧ (arrivals0_0.pkt.ktag ≠ 0) ∧ (Option.any (fun k => decide (states0_0.scent k = none) && [(Instr.poolRead arrivals0_0, 2, PoolOp.read (16 * rlenOf arrivals0_0.pkt)), (Instr.poolWrite arrivals0_0, 1, PoolOp.write arrivals0_0.pkt.payload), (Instr.poolFaddI32 arrivals0_0, 3, PoolOp.faddI32 (BitVec.ofNat 32 (field arrivals0_0.pkt.payload 0 4))), (Instr.poolFaddI64 arrivals0_0, 4, PoolOp.faddI64 (BitVec.ofNat 64 (field arrivals0_0.pkt.payload 0 8))), (Instr.poolFaddF32 arrivals0_0, 5, PoolOp.faddF32 (BitVec.ofNat 32 (field arrivals0_0.pkt.payload 0 4))), (Instr.poolCas64 arrivals0_0, 6, PoolOp.cas (BitVec.ofNat 64 (field arrivals0_0.pkt.payload 0 8)) (BitVec.ofNat 64 (field arrivals0_0.pkt.payload 8 8)))].any fun r => decide (isPool arrivals0_0.pkt r.snd.fst = true) && (decide (∀ (q : Nat), q ∈ pagesOf arrivals0_0.pkt.addr.toNat r.snd.snd.len → badFormat states0_0 k q = false) && decide (poolCheck states0_0 k arrivals0_0.pkt.addr.toNat r.snd.snd (fromMate arrivals0_0 states0_0) = none))) (servedKennel states0_0 arrivals0_0.pkt.ktag)) = true) ∧
    ((Runs states0_0) ∧ (arrivals0_6.pkt.ktag ≠ 0) ∧ (Option.any (fun k => decide (states0_0.scent k = none) && [(Instr.poolRead arrivals0_6, 2, PoolOp.read (16 * rlenOf arrivals0_6.pkt)), (Instr.poolWrite arrivals0_6, 1, PoolOp.write arrivals0_6.pkt.payload), (Instr.poolFaddI32 arrivals0_6, 3, PoolOp.faddI32 (BitVec.ofNat 32 (field arrivals0_6.pkt.payload 0 4))), (Instr.poolFaddI64 arrivals0_6, 4, PoolOp.faddI64 (BitVec.ofNat 64 (field arrivals0_6.pkt.payload 0 8))), (Instr.poolFaddF32 arrivals0_6, 5, PoolOp.faddF32 (BitVec.ofNat 32 (field arrivals0_6.pkt.payload 0 4))), (Instr.poolCas64 arrivals0_6, 6, PoolOp.cas (BitVec.ofNat 64 (field arrivals0_6.pkt.payload 0 8)) (BitVec.ofNat 64 (field arrivals0_6.pkt.payload 8 8)))].any fun r => decide (isPool arrivals0_6.pkt r.snd.fst = true) && (decide (∀ (q : Nat), q ∈ pagesOf arrivals0_6.pkt.addr.toNat r.snd.snd.len → badFormat states0_0 k q = false) && Option.any (fun code => true) (poolCheck states0_0 k arrivals0_6.pkt.addr.toNat r.snd.snd (fromMate arrivals0_6 states0_0)))) (servedKennel states0_0 arrivals0_6.pkt.ktag)) = true) ∧
    ((Runs states0_1) ∧ (arrivals0_0.pkt.ktag ≠ 0) ∧ (Option.any (fun k => decide (states0_1.scent k = none) && (decide (states0_1.hasPool = true) && (decide (states0_1.cryptoErr = false) && (decide (states0_1.dieOut = false) && decide ((states0_1.kennel k).feature 1 = false))))) (servedKennel states0_1 arrivals0_0.pkt.ktag)) = true) ∧
    ((Runs states0_1) ∧ (arrivals0_0.pkt.ktag ≠ 0) ∧ (Option.any (fun k => decide (states0_1.scent k = none) && (decide (states0_1.hasPool = true) && (decide (states0_1.cryptoErr = false) && (decide (states0_1.dieOut = false) && (decide (poolOps0_2.isAtomic = true) && decide ((states0_1.kennel k).feature 2 = false)))))) (servedKennel states0_1 arrivals0_0.pkt.ktag)) = true) ∧
    ((Runs states0_0) ∧ (arrivals0_2.pkt.ktag ≠ 0) ∧ (Option.any (fun k => decide (states0_0.scent k = none) && (decide (states0_0.hasPool = true) && (decide (states0_0.cryptoErr = false) && (decide (states0_0.dieOut = false) && (decide ((states0_0.kennel k).feature 1 = true) && (decide ((states0_0.kennel k).feature 2 = true) && decide (arrivals0_2.pkt.addr.toNat % poolOps0_0.align ≠ 0))))))) (servedKennel states0_0 arrivals0_2.pkt.ktag)) = true) ∧
    ((Runs states0_0) ∧ (arrivals0_6.pkt.ktag ≠ 0) ∧ (Option.any (fun k => decide (states0_0.scent k = none) && (decide (states0_0.hasPool = true) && (decide (states0_0.cryptoErr = false) && (decide (states0_0.dieOut = false) && (decide ((states0_0.kennel k).feature 1 = true) && (decide ((states0_0.kennel k).feature 2 = true) && (decide (arrivals0_6.pkt.addr.toNat % poolOps0_0.align = 0) && (decide (pagesOf arrivals0_6.pkt.addr.toNat poolOps0_0.len = [arrivals0_6.pkt.addr.toNat / 2 ^ 21]) && decide (pageEntry states0_0 k (arrivals0_6.pkt.addr.toNat / 2 ^ 21) = none))))))))) (servedKennel states0_0 arrivals0_6.pkt.ktag)) = true) ∧
    ((Runs states0_0) ∧ (arrivals0_8.pkt.ktag ≠ 0) ∧ (Option.any (fun k => decide (states0_0.scent k = none) && (decide (states0_0.hasPool = true) && (decide (states0_0.cryptoErr = false) && (decide (states0_0.dieOut = false) && (decide ((states0_0.kennel k).feature 1 = true) && (decide ((states0_0.kennel k).feature 2 = true) && (decide (arrivals0_8.pkt.addr.toNat % poolOps0_1.align = 0) && (decide (pagesOf arrivals0_8.pkt.addr.toNat poolOps0_1.len = [arrivals0_8.pkt.addr.toNat / 2 ^ 21]) && Option.any (fun e => decide (poolOps0_1.isWrite = true) && decide (Pte.w e = false ∨ Pte.mt e = true ∧ false = false)) (pageEntry states0_0 k (arrivals0_8.pkt.addr.toNat / 2 ^ 21)))))))))) (servedKennel states0_0 arrivals0_8.pkt.ktag)) = true) ∧
    ((Runs states0_0) ∧ (arrivals0_0.pkt.ktag ≠ 0) ∧ (Option.any (fun k => decide (states0_0.scent k = none) && (decide (states0_0.hasPool = true) && (decide (states0_0.cryptoErr = false) && (decide (states0_0.dieOut = false) && (decide ((states0_0.kennel k).feature 1 = true) && (decide ((states0_0.kennel k).feature 2 = true) && (decide (arrivals0_0.pkt.addr.toNat % poolOps0_0.align = 0) && (decide (pagesOf arrivals0_0.pkt.addr.toNat poolOps0_0.len = [arrivals0_0.pkt.addr.toNat / 2 ^ 21]) && Option.any (fun e => decide (poolOps0_0.isWrite = false)) (pageEntry states0_0 k (arrivals0_0.pkt.addr.toNat / 2 ^ 21)))))))))) (servedKennel states0_0 arrivals0_0.pkt.ktag)) = true) ∧
    ((Runs states0_0) ∧ (arrivals0_0.pkt.ktag ≠ 0) ∧ (Option.any (fun k => decide (states0_0.scent k = none) && (decide (states0_0.hasPool = true) && (decide (states0_0.cryptoErr = false) && (decide (states0_0.dieOut = false) && (decide ((states0_0.kennel k).feature 1 = true) && (decide ((states0_0.kennel k).feature 2 = true) && (decide (arrivals0_0.pkt.addr.toNat % poolOps0_2.align = 0) && (decide (pagesOf arrivals0_0.pkt.addr.toNat poolOps0_2.len = [arrivals0_0.pkt.addr.toNat / 2 ^ 21]) && Option.any (fun e => decide (Pte.w e = true) && (decide (Pte.mt e = false) && decide (poolOps0_2 = PoolOp.faddF32 3#32))) (pageEntry states0_0 k (arrivals0_0.pkt.addr.toNat / 2 ^ 21)))))))))) (servedKennel states0_0 arrivals0_0.pkt.ktag)) = true) ∧
    ((Runs states0_0) ∧ (arrivals0_0.pkt.ktag ≠ 0) ∧ (Option.any (fun k => decide (states0_0.scent k = none) && (decide (states0_0.hasPool = true) && (decide (states0_0.cryptoErr = false) && (decide (states0_0.dieOut = false) && (decide ((states0_0.kennel k).feature 1 = true) && (decide ((states0_0.kennel k).feature 2 = true) && (decide (arrivals0_0.pkt.addr.toNat % poolOps0_3.align = 0) && (decide (pagesOf arrivals0_0.pkt.addr.toNat poolOps0_3.len = [arrivals0_0.pkt.addr.toNat / 2 ^ 21]) && Option.any (fun e => decide (Pte.w e = true) && (decide (Pte.mt e = false) && decide (poolOps0_3 = PoolOp.faddI64 3#64))) (pageEntry states0_0 k (arrivals0_0.pkt.addr.toNat / 2 ^ 21)))))))))) (servedKennel states0_0 arrivals0_0.pkt.ktag)) = true) := by
  refine ⟨?_, ?_, ?_, ?_, ?_, ?_, ?_, ?_, ?_, ?_, ?_⟩ <;> decide +kernel
/-- The hypotheses of Obligations.PoolServing. -/
theorem witness_PoolServing :
    ((Runs states1_0) ∧ (states1_0.pool.accs.length = 1) ∧ (states1_0.pool.accs.any fun a => decide (a.asker = Asker.fabric packets0_0 3) && (decide (a.served = false) && (decide (states1_0.rd F.POL_STS_CUR = 0) && (decide (states1_0.pool.retrain = false) && (decide (states1_0.scent a.k = none) && (decide (states1_0.dieOut = false) && (decide (states1_0.cryptoErr = false) && (decide (states1_0.rd F.POL_STS_STKUP = 255) && (decide (states1_0.pool.errs = []) && (decide (a.parts = []) && decide (a.op = PoolOp.read 16))))))))))) = true) ∧
    ((Runs states1_1) ∧ (states1_1.pool.accs.length = 1) ∧ (states1_1.pool.accs.any fun a => decide (a.asker = Asker.fabric packets0_0 3) && (decide (a.served = false) && (decide (states1_1.rd F.POL_STS_CUR = 0) && (decide (states1_1.pool.retrain = false) && (decide (states1_1.scent a.k = none) && (decide (states1_1.dieOut = false) && (decide (states1_1.cryptoErr = false) && (decide (states1_1.rd F.POL_STS_STKUP = 255) && (decide (states1_1.pool.errs = []) && (decide (a.parts = []) && (decide (a.op = PoolOp.write [1, 2, 3, 4, 5, 6, 7, 8, 9, 10, 11, 12, 13, 14, 15, 0]) && decide ((fun d => mirrorPages (writeVa a.k a.va d states1_1) a.k a.va d.length = []) [1, 2, 3, 4, 5, 6, 7, 8, 9, 10, 11, 12, 13, 14, 15, 0])))))))))))) = true) ∧
    ((Runs states1_2) ∧ (states1_2.pool.accs.length = 1) ∧ (states1_2.pool.accs.any fun a => decide (a.asker = Asker.fabric packets0_0 3) && (decide (a.served = false) && (decide (states1_2.rd F.POL_STS_CUR = 0) && (decide (states1_2.pool.retrain = false) && (decide (states1_2.scent a.k = none) && (decide (states1_2.dieOut = false) && (decide (states1_2.cryptoErr = false) && (decide (states1_2.rd F.POL_STS_STKUP = 255) && (decide (states1_2.pool.errs = []) && (decide (a.parts = []) && (decide (a.op = PoolOp.faddI32 5#32) && decide ((fun d => mirrorPages (writeVa a.k a.va d states1_2) a.k a.va d.length = []) (leBytes 4 ((leVal (readVa states1_2 a.k a.va a.op.len) + (5#32).toNat) % 2 ^ 32)))))))))))))) = true) ∧
    ((Runs states1_3) ∧ (states1_3.pool.accs.length = 1) ∧ (states1_3.pool.accs.any fun a => decide (a.asker = Asker.fabric packets0_0 3) && (decide (a.served = false) && (decide (states1_3.rd F.POL_STS_CUR = 0) && (decide (states1_3.pool.retrain = false) && (decide (states1_3.scent a.k = none) && (decide (states1_3.dieOut = false) && (decide (states1_3.cryptoErr = false) && (decide (states1_3.rd F.POL_STS_STKUP = 255) && (decide (states1_3.pool.errs = []) && (decide (a.parts = []) && (decide (a.op = PoolOp.faddI64 5#64) && decide ((fun d => mirrorPages (writeVa a.k a.va d states1_3) a.k a.va d.length = []) (leBytes 8 ((leVal (readVa states1_3 a.k a.va a.op.len) + (5#64).toNat) % 2 ^ 64)))))))))))))) = true) ∧
    ((Runs states1_4) ∧ (states1_4.pool.accs.length = 1) ∧ (states1_4.pool.accs.any fun a => decide (a.asker = Asker.fabric packets0_0 3) && (decide (a.served = false) && (decide (states1_4.rd F.POL_STS_CUR = 0) && (decide (states1_4.pool.retrain = false) && (decide (states1_4.scent a.k = none) && (decide (states1_4.dieOut = false) && (decide (states1_4.cryptoErr = false) && (decide (states1_4.rd F.POL_STS_STKUP = 255) && (decide (states1_4.pool.errs = []) && (decide (a.parts = []) && (decide (a.op = PoolOp.faddF32 1065353216#32) && decide ((fun d => mirrorPages (writeVa a.k a.va d states1_4) a.k a.va d.length = []) (leBytes 4 (add32 (leVal (readVa states1_4 a.k a.va a.op.len)) (1065353216#32).toNat)))))))))))))) = true) ∧
    ((Runs states1_5) ∧ (states1_5.pool.accs.length = 1) ∧ (states1_5.pool.accs.any fun a => decide (a.asker = Asker.fabric packets0_0 3) && (decide (a.served = false) && (decide (states1_5.rd F.POL_STS_CUR = 0) && (decide (states1_5.pool.retrain = false) && (decide (states1_5.scent a.k = none) && (decide (states1_5.dieOut = false) && (decide (states1_5.cryptoErr = false) && (decide (states1_5.rd F.POL_STS_STKUP = 255) && (decide (states1_5.pool.errs = []) && (decide (a.parts = []) && (decide (a.op = PoolOp.cas 9#64 6#64) && (decide (leVal (readVa states1_5 a.k a.va a.op.len) = (9#64).toNat) && decide ((fun d => mirrorPages (writeVa a.k a.va d states1_5) a.k a.va d.length = []) (leBytes 8 (6#64).toNat)))))))))))))) = true) ∧
    ((Runs states1_6) ∧ (states1_6.pool.accs.length = 1) ∧ (states1_6.pool.accs.any fun a => decide (a.asker = Asker.fabric packets0_0 3) && (decide (a.served = false) && (decide (states1_6.rd F.POL_STS_CUR = 0) && (decide (states1_6.pool.retrain = false) && (decide (states1_6.scent a.k = none) && (decide (states1_6.dieOut = false) && (decide (states1_6.cryptoErr = false) && (decide (states1_6.rd F.POL_STS_STKUP = 255) && (decide (states1_6.pool.errs = []) && (decide (a.parts = []) && (decide (a.op = PoolOp.cas 8#64 6#64) && decide (leVal (readVa states1_6 a.k a.va a.op.len) ≠ (8#64).toNat)))))))))))) = true) ∧
    ((Runs states1_0) ∧ (states1_0.pool.accs.length = 1) ∧ (states1_0.pool.accs.any fun a => decide (a.asker = Asker.fabric packets0_0 3) && (decide (a.served = false) && (decide (states1_0.rd F.POL_STS_CUR = 0) && (decide (states1_0.pool.retrain = false) && (decide (states1_0.scent a.k = none) && (decide (states1_0.dieOut = false) && (decide (states1_0.cryptoErr = false) && (decide (states1_0.rd F.POL_STS_STKUP = 255) && (decide (states1_0.pool.errs = []) && (decide (a.parts = []) && (decide (a.op = PoolOp.read 16) && (decide ((readBlocks states1_0 a.k a.va a.op).length = 1) && (readBlocks states1_0 a.k a.va a.op).any fun b => decide (9 < 38) && decide (decodeErrs [(9, (5#16).toNat)] = Decoded.corrected 9 (5#16).toNat))))))))))))) = true) ∧
    ((Runs states1_0) ∧ (states1_0.pool.accs.length = 1) ∧ (states1_0.pool.accs.any fun a => decide (a.asker = Asker.fabric packets0_0 3) && (decide (a.served = false) && (decide (states1_0.rd F.POL_STS_CUR = 0) && (decide (states1_0.pool.retrain = false) && (decide (states1_0.scent a.k = none) && (decide (states1_0.dieOut = false) && (decide (states1_0.cryptoErr = false) && (decide (states1_0.rd F.POL_STS_STKUP = 255) && (decide (states1_0.pool.errs = []) && (decide (a.parts = []) && (decide (a.op = PoolOp.read 16) && (decide ((readBlocks states1_0 a.k a.va a.op).length = 1) && (readBlocks states1_0 a.k a.va a.op).any fun b => decide ((disturb [{ block := (5 * 2 ^ 21 + 64) / 64, sym := 3, mask := 7 }, { block := (5 * 2 ^ 21 + 64) / 64, sym := 30, mask := 7 }] states1_0).pool.isBad b = true))))))))))))) = true) ∧
    ((Runs states1_0) ∧ (states1_0.pool.accs.length = 1) ∧ (states1_0.pool.accs.any fun a => decide (a.asker = Asker.fabric packets0_0 3) && (decide (a.served = false) && (decide (states1_0.rd F.POL_STS_CUR = 0) && (decide (states1_0.pool.retrain = false) && (decide (states1_0.scent a.k = none) && (decide (states1_0.dieOut = false) && (decide (states1_0.cryptoErr = false) && (decide (states1_0.rd F.POL_STS_STKUP = 255) && (decide (states1_0.pool.errs = []) && (decide (a.parts = []) && decide (16 ≠ a.id))))))))))) = true) := by
  refine ⟨?_, ?_, ?_, ?_, ?_, ?_, ?_, ?_, ?_, ?_⟩ <;> decide +kernel
/-- The hypotheses of Obligations.PoolServing, its part on pool bytes. -/
theorem witness_PoolBytes :
    (([1, 2, 3, 4, 5, 6, 7, 8, 9, 10, 11, 12, 13, 14, 15, 0] ≠ []) ∧ (9 / 2 ^ 21 = (9 + [1, 2, 3, 4, 5, 6, 7, 8, 9, 10, 11, 12, 13, 14, 15, 0].length - 1) / 2 ^ 21) ∧ (Option.any (fun pa => decide (9 < [1, 2, 3, 4, 5, 6, 7, 8, 9, 10, 11, 12, 13, 14, 15, 0].length)) (physAddr states1_0 1 9)) = true) ∧
    (([1, 2, 3, 4, 5, 6, 7, 8, 9, 10, 11, 12, 13, 14, 15, 0] ≠ []) ∧ (9 / 2 ^ 21 = (9 + [1, 2, 3, 4, 5, 6, 7, 8, 9, 10, 11, 12, 13, 14, 15, 0].length - 1) / 2 ^ 21) ∧ (Option.any (fun pa => decide (9 < pa ∨ pa + [1, 2, 3, 4, 5, 6, 7, 8, 9, 10, 11, 12, 13, 14, 15, 0].length ≤ 9)) (physAddr states1_0 1 9)) = true) ∧
    (([1, 2, 3, 4, 5, 6, 7, 8, 9, 10, 11, 12, 13, 14, 15, 0] ≠ []) ∧ (9 / 2 ^ 21 = (9 + [1, 2, 3, 4, 5, 6, 7, 8, 9, 10, 11, 12, 13, 14, 15, 0].length - 1) / 2 ^ 21) ∧ (Option.any (fun pa => decide (pageEntry (writeVa 1 9 [1, 2, 3, 4, 5, 6, 7, 8, 9, 10, 11, 12, 13, 14, 15, 0] states1_0) 1 (9 / 2 ^ 21) = pageEntry states1_0 1 (9 / 2 ^ 21))) (physAddr states1_0 1 9)) = true) ∧
    (([1, 2, 3, 4, 5, 6, 7, 8, 9, 10, 11, 12, 13, 14, 15, 0] ≠ []) ∧ (9 / 2 ^ 21 = (9 + [1, 2, 3, 4, 5, 6, 7, 8, 9, 10, 11, 12, 13, 14, 15, 0].length - 1) / 2 ^ 21) ∧ (Option.any (fun pa => decide (MemOk states1_0)) (physAddr states1_0 1 9)) = true) ∧
    (([1, 2, 3, 4, 5, 6, 7, 8, 9, 10, 11, 12, 13, 14, 15, 0] ≠ []) ∧ (9 / 2 ^ 21 = (9 + [1, 2, 3, 4, 5, 6, 7, 8, 9, 10, 11, 12, 13, 14, 15, 0].length - 1) / 2 ^ 21) ∧ (Option.any (fun pa => true) (physAddr states1_0 1 9)) = true) := by
  refine ⟨?_, ?_, ?_, ?_, ?_⟩ <;> decide +kernel
/-- The hypotheses of Obligations.PoolMaintenance, its part on pool upkeep. -/
theorem witness_PoolUpkeep :
    ((Runs states2_5) ∧ (states2_5.ni.outst.length = 1) ∧ (states2_5.ni.outst.any fun o => decide (o.owner = Owner.mirror 9) && (decide (states2_5.pool.accs = []) && (decide (states2_5.ni.queue = []) && (decide (states2_5.tray.resync = none) && (decide (effSev states2_5 723 ≤ 1) && (decide (stickyBit states2_5 723 = false) && (decide (quietSource states2_5 723 = false) && (decide (o.kennel < 4096) && Option.any (fun e => decide (Pte.stale e = false)) (pageEntry states2_5 o.kennel (o.pkt.addr.toNat / 2 ^ 21)))))))))) = true) ∧
    ((Runs states2_0) ∧ (states2_0.ni.outst = [])) ∧
    ((Runs states2_2) ∧ (9 < 1280) ∧ (states2_2.rd F.POL_STS_CUR = 0)) ∧
    ((Runs states2_0) ∧ (16 < 1280) ∧ (states2_0.rd F.POL_STS_CUR = 1) ∧ (BitVec.toNat states2_0.cyc % 18 = 0) ∧ (BitVec.toNat states2_0.cyc / 18 % 1280 = 16) ∧ ((slotEntry states2_0 16).kind = 0) ∧ ((slotEntry states2_0 16).core = 0) ∧ (0 < 32) ∧ ((states2_0.core 0).moves.length = 1) ∧ ((states2_0.core 0).moves.any fun m => decide (m.served = false) && (decide (m.op = MoveOp.postRead (BitVec.toNat states2_0.cyc) 64 0 1) && Option.any (fun p => decide (p.k = 1) && (decide (64 < 2 ^ 64) && (decide (∀ (q : Nat), q ∈ pagesOf 64 64 → badFormat states2_0 1 q = false) && (decide (poolCheck states2_0 1 64 (PoolOp.read 64) false = none) && (decide (states2_0.rd F.POL_STS_STKUP = 255) && decide (states2_0.pool.errs = [])))))) (coreProg states2_0 0))) = true) ∧
    ((Runs states2_1) ∧ (16 < 1280) ∧ (states2_1.rd F.POL_STS_CUR = 1) ∧ (BitVec.toNat states2_1.cyc % 18 = 0) ∧ (BitVec.toNat states2_1.cyc / 18 % 1280 = 16) ∧ ((slotEntry states2_1 16).kind = 3 ∨ (slotEntry states2_1 16).kind = 0 ∧ entryClaimed states2_1 (BitVec.toNat states2_1.cyc) = false)) ∧
    ((Runs states2_0) ∧ (states2_0.hasPool = true) ∧ (states2_0.dieOut = false) ∧ (states2_0.pool.inval = none)) ∧
    ((Runs states2_0) ∧ (states2_0.hasPool = true) ∧ (states2_0.dieOut = false) ∧ (quietSource states2_0 720 = false) ∧ (stickyBit states2_0 720 = false) ∧ (effSev states2_0 720 ≤ 1) ∧ (accessors0_1 ≠ Accessor.monitor)) ∧
    ((Runs states2_7) ∧ (Option.any (fun r => decide (∀ (a : PoolAcc), a ∈ states2_7.pool.accs → r.snd ≤ a.id)) states2_7.pool.inval) = true) ∧
    ((Runs states2_8) ∧ (Option.any (fun r => decide (states2_8.pool.accs.length = 1) && states2_8.pool.accs.any fun a => decide (a.id < r.snd) && decide (r.fst = some a.k)) states2_8.pool.inval) = true) ∧
    ((Runs states2_0) ∧ (states2_0.hasPool = true) ∧ (states2_0.dieOut = false) ∧ (states2_0.rd F.POL_STS_CUR = 1)) ∧
    ((Runs states2_3) ∧ (states2_3.hasPool = true) ∧ (states2_3.dieOut = false) ∧ (states2_3.feature 4 = true) ∧ (states2_3.rd F.CLK_STS_HBMPT = 0) ∧ (states2_3.rd F.POL_STS_CUR = 0) ∧ (tableOk states2_3 = true)) ∧
    ((Runs states2_2) ∧ (states2_2.hasPool = true) ∧ (states2_2.dieOut = false) ∧ (states2_2.feature 4 = true) ∧ (states2_2.rd F.CLK_STS_HBMPT = 0) ∧ (states2_2.rd F.POL_STS_CUR = 0) ∧ (tableOk states2_2 = false)) ∧
    ((Runs states2_9) ∧ (states2_9.rd F.POL_MODE_PEND = 1) ∧ (BitVec.toNat states2_9.cyc % 23040 = 0) ∧ (∀ (p : Prog), p ∈ states2_9.isl.progs → p.static = false)) ∧
    ((Runs states2_10) ∧ (states2_10.rd F.POL_MODE_PEND = 1) ∧ (BitVec.toNat states2_10.cyc % 23040 ≠ 0)) ∧
    ((Runs states2_0) ∧ (1 < 8)) := by
  refine ⟨?_, ?_, ?_, ?_, ?_, ?_, ?_, ?_, ?_, ?_, ?_, ?_, ?_, ?_, ?_⟩ <;> decide +kernel
/-- The hypotheses of Obligations.PoolMaintenance, its part on patrol scrub. -/
theorem witness_PatrolScrub :
    ((Runs states3_0) ∧ (states3_0.hasPool = true) ∧ (states3_0.dieOut = false) ∧ (states3_0.pool.retrain = false) ∧ (states3_0.rd F.POL_STS_CUR = 0) ∧ (states3_0.rd F.POL_SCRUB_EN = 0)) ∧
    ((Runs states3_1) ∧ (states3_1.hasPool = true) ∧ (states3_1.dieOut = false) ∧ (states3_1.pool.retrain = false) ∧ (states3_1.rd F.POL_STS_CUR = 0) ∧ (states3_1.rd F.POL_SCRUB_EN = 1) ∧ (states3_1.rd F.POL_STS_STKUP = 255) ∧ (states3_1.pool.errsOf states3_1.pool.scrubPos = []) ∧ (states3_1.pool.scrubPos + 1 < 196608 * 32768) ∧ (9 < 38) ∧ (decodeErrs [(9, (5#16).toNat)] = Decoded.corrected 9 (5#16).toNat)) ∧
    ((Runs states3_3) ∧ (states3_3.hasPool = true) ∧ (states3_3.dieOut = false) ∧ (states3_3.pool.retrain = false) ∧ (states3_3.rd F.POL_STS_CUR = 0) ∧ (states3_3.rd F.POL_SCRUB_EN = 1) ∧ (states3_3.rd F.POL_STS_STKUP = 255) ∧ (states3_3.pool.errsOf states3_3.pool.scrubPos = []) ∧ (states3_3.pool.scrubPos + 1 = 196608 * 32768)) := by
  refine ⟨?_, ?_, ?_⟩ <;> decide +kernel
end Pool

namespace Kennel
def kn : Kennel := {st := .created, ktag := 7, feat := BitVec.allOnes 64, rankN := 2, ranks := [(0,0x10009)], nWh := 8, root := some 0, key := some 3, queues := [(2, {head := 3, tail := 6, base := 0, log2 := 6})]}
def st (k : Kennel) : State := {(upS.wr F.FEA_LOCK_LOCK 1).wr F.POL_MONRGN_FIRST 100000 with pool := {mem := tbls [(0,3+256*5), (2,1+256*6), (3,11+256*5)]}, knl := [(1, k), (3, {k with ktag := 9, key := none, root := some 262144})], time := 9000*77, binds := [(7,1)],  klp := {upS.klp with keys := [(3,[1,2]), (4,[2])]}}
def cm : Cmd := {k:=1,q:=2,seq:=5,desc := (List.replicate 2 0 ++ leBytes 4 3 ++ leBytes 6 2 ++ List.replicate 52 0),opc:=1}
def states0 : List State := [st kn, st {kn with feat := 0}, st {kn with st := .open}, st {kn with st := .resetting}, st {kn with st := .closing}, {st {kn with st := .open} with cmds := [cm]}, st {kn with key := none, root := none, queues := []}, {st kn with knl := (List.range 4096).map fun i => (i, kn)}]
def armed (b : Bank) : State := {st kn with spg := {upS.spg with armed := some { tf := 0, version := 1, master := 2, op := 1, newEpb := true }, staged := some b}}
def states1 : List State := [upS, {st {kn with root := some 262144} with pool := {}}, {upS with klp := {upS.klp with lcs := 0}}, st kn, st {kn with feat := 0}, st {kn with st := .open}, st {kn with st := .resetting}, st {kn with key := none, root := none, queues := []}, armed {roles := [(3,1)]}, armed {roles := [(6,1)]}]
def states0_0 : State := states0[0]'(by decide +kernel)
def states0_1 : State := states0[1]'(by decide +kernel)
def states0_2 : State := states0[2]'(by decide +kernel)
def states0_3 : State := states0[3]'(by decide +kernel)
def states0_4 : State := states0[4]'(by decide +kernel)
def states0_5 : State := states0[5]'(by decide +kernel)
def states0_7 : State := states0[7]'(by decide +kernel)
def states1_0 : State := states1[0]'(by decide +kernel)
def states1_1 : State := states1[1]'(by decide +kernel)
def states1_2 : State := states1[2]'(by decide +kernel)
def states1_3 : State := states1[3]'(by decide +kernel)
/-- The hypotheses of Obligations.KennelLifecycle. -/
theorem witness_KennelLifecycle :
    ((Runs states0_0) ∧ (servesCalls states0_0 = true) ∧ (states0_0.rd F.FEA_LOCK_LOCK = 1) ∧ (3#64 ≠ 0) ∧ ((3#64).toNat ≤ 65535) ∧ ((3#64).toNat ≤ 15) ∧ (1 ≤ (3#64).toNat) ∧ ((3#64).toNat ≤ 4096) ∧ (6 ≤ (6#64).toNat) ∧ ((6#64).toNat ≤ 16) ∧ (liveKennel states0_0 (BitVec.ofNat 16 (3#64).toNat) = none) ∧ (states0_0.quarTags.contains (BitVec.ofNat 16 (3#64).toNat) = false) ∧ (states0_0.lastGen.find (3#64).toNat ≠ some (3#64).toNat) ∧ (whistlesUsed states0_0 + (3#64).toNat ≤ 1048576) ∧ (storageUsed states0_0 + (8 * (3#64).toNat + 32 * 2 ^ (6#64).toNat) ≤ storageRoom states0_0) ∧ (Option.any (fun k => true) (freeKennel states0_0)) = true) ∧
    ((Runs states0_7) ∧ (servesCalls states0_7 = true) ∧ (states0_7.rd F.FEA_LOCK_LOCK = 1) ∧ (3#64 ≠ 0) ∧ ((3#64).toNat ≤ 65535) ∧ ((3#64).toNat ≤ 15) ∧ (1 ≤ (3#64).toNat) ∧ ((3#64).toNat ≤ 4096) ∧ (6 ≤ (6#64).toNat) ∧ ((6#64).toNat ≤ 16) ∧ (liveKennel states0_7 (BitVec.ofNat 16 (3#64).toNat) = none) ∧ (states0_7.quarTags.contains (BitVec.ofNat 16 (3#64).toNat) = false) ∧ (states0_7.lastGen.find (3#64).toNat ≠ some (3#64).toNat) ∧ (whistlesUsed states0_7 + (3#64).toNat ≤ 1048576) ∧ (storageUsed states0_7 + (8 * (3#64).toNat + 32 * 2 ^ (6#64).toNat) ≤ storageRoom states0_7)) ∧
    ((Runs states0_1) ∧ (servesCalls states0_1 = true) ∧ ((1#64).toNat < 4096) ∧ ((states0_1.kennel (1#64).toNat).st = KSt.created) ∧ ((states0_1.kennel (1#64).toNat).queues ≠ []) ∧ ((states0_1.kennel (1#64).toNat).feature 1 = false) ∧ (ringUnmapped states0_1 (1#64).toNat = false)) ∧
    ((Runs states0_2) ∧ (servesCalls states0_2 = true) ∧ ((3#64).toNat < 4096) ∧ ((states0_2.kennel (3#64).toNat).st = KSt.open) ∧ (states0_2.isl.progs = []) ∧ (states0_2.ni.outst = []) ∧ (states0_2.ni.queue = []) ∧ ((states0_2.kennel (3#64).toNat).held = []) ∧ (∀ (c : Cmd), c ∈ states0_2.cmds → c.k ≠ (3#64).toNat)) ∧
    ((Runs states0_5) ∧ (servesCalls states0_5 = true) ∧ ((1#64).toNat < 4096) ∧ ((states0_5.kennel (1#64).toNat).st = KSt.open) ∧ (states0_5.isl.progs = []) ∧ (states0_5.ni.outst = []) ∧ (states0_5.ni.queue = []) ∧ ((states0_5.kennel (1#64).toNat).held = []) ∧ (states0_5.cmds.length = 1) ∧ (states0_5.cmds.any fun c => decide (c.k = (1#64).toNat) && (decide (c.q < 16) && (decide (c.quiet = false) && (decide (c.coll = none) && (decide (bit c.sigw 15 = false) && (decide (states0_5.dieOut = false) && decide ((states0_5.kennel (1#64).toNat).ringFull = false))))))) = true) ∧
    ((Runs states0_0) ∧ (servesCalls states0_0 = true) ∧ ((3#64).toNat < 4096) ∧ ((states0_0.kennel (3#64).toNat).st ≠ KSt.open)) ∧
    ((Runs states0_0) ∧ (servesCalls states0_0 = true) ∧ ((3#64).toNat < 4096) ∧ ((states0_0.kennel (3#64).toNat).st = KSt.created) ∧ (states0_0.cmds = []) ∧ (states0_0.isl.progs = []) ∧ (states0_0.ni.outst = []) ∧ (states0_0.ni.queue = []) ∧ ((states0_0.kennel (3#64).toNat).held = []) ∧ (states0_0.pool.accs = [])) ∧
    ((Runs states0_0) ∧ (servesCalls states0_0 = true) ∧ ((0#64).toNat < 4096) ∧ ((states0_0.kennel (0#64).toNat).st ≠ KSt.created) ∧ ((states0_0.kennel (0#64).toNat).st ≠ KSt.open)) ∧
    ((Runs states0_3) ∧ (3 < 4096) ∧ ((states0_3.kennel 3).st = KSt.resetting)) ∧
    ((Runs states0_0) ∧ (3 < 4096) ∧ ((states0_0.kennel 3).st ≠ KSt.resetting)) ∧
    ((Runs states0_4) ∧ (3 < 4096) ∧ ((states0_4.kennel 3).st = KSt.closing)) ∧
    ((Runs states0_0) ∧ (3 < 4096) ∧ ((states0_0.kennel 3).st ≠ KSt.closing)) := by
  refine ⟨?_, ?_, ?_, ?_, ?_, ?_, ?_, ?_, ?_, ?_, ?_, ?_⟩ <;> decide +kernel
theorem kn_live : kn.live = true := by decide
theorem witness_KennelLifecycle_full : freeKennel states0_7 = none := by
  have h : states0_7.knl = (List.range 4096).map fun i => (i, kn) := rfl
  have e : (states0_7.knl.filter fun x => x.2.live).map (·.1) = List.range 4096 := by
    rw [h]; simp [List.filter_map, List.map_map, Function.comp_def, kn_live]
  unfold freeKennel
  rw [e]; simp [lowestFree, upto]
/-- The hypotheses of Obligations.KennelGrants. -/
theorem witness_KennelGrants :
    ((Runs states1_2) ∧ (servesCalls states1_2 = false)) ∧
    ((Runs states1_0) ∧ (servesCalls states1_0 = true) ∧ (4095 < (8388608#64).toNat)) ∧
    ((Runs states1_1) ∧ (servesCalls states1_1 = true) ∧ ((3#64).toNat < 4096) ∧ ((3#64).toNat < 144) ∧ ((states1_1.kennel (3#64).toNat).st = KSt.created ∨ (states1_1.kennel (3#64).toNat).st = KSt.open) ∧ (states1_1.role (3#64).toNat = 0) ∧ (∀ (b : Bank), armedBank states1_1 = some b → b.role (3#64).toNat = 0) ∧ (boundKennel states1_1 (3#64).toNat = none)) ∧
    ((Runs states1_1) ∧ (servesCalls states1_1 = true) ∧ ((3#64).toNat < 4096) ∧ ((100#64).toNat < 144) ∧ ((states1_1.kennel (3#64).toNat).st = KSt.created ∨ (states1_1.kennel (3#64).toNat).st = KSt.open) ∧ (states1_1.role (100#64).toNat ≠ 0 ∨ ∃ b, armedBank states1_1 = some b ∧ b.role (100#64).toNat ≠ 0)) ∧
    ((Runs states1_1) ∧ (servesCalls states1_1 = true) ∧ ((1#64).toNat < 4096) ∧ ((7#64).toNat < 144) ∧ ((states1_1.kennel (1#64).toNat).st = KSt.created ∨ (states1_1.kennel (1#64).toNat).st = KSt.open) ∧ (boundKennel states1_1 (7#64).toNat = some (1#64).toNat)) ∧
    ((Runs states1_1) ∧ (servesCalls states1_1 = true) ∧ ((3#64).toNat < 4096) ∧ ((3#64).toNat < 144) ∧ ((states1_1.kennel (3#64).toNat).st = KSt.created ∨ (states1_1.kennel (3#64).toNat).st = KSt.open) ∧ (boundKennel states1_1 (3#64).toNat ≠ some (3#64).toNat)) ∧
    ((Runs states1_1) ∧ (servesCalls states1_1 = true) ∧ ((3#64).toNat < 4096) ∧ ((3#64).toNat ≤ 7) ∧ ((states1_1.kennel (3#64).toNat).st = KSt.created ∨ (states1_1.kennel (3#64).toNat).st = KSt.open)) ∧
    ((Runs states1_1) ∧ (servesCalls states1_1 = true) ∧ ((3#64).toNat < 4096) ∧ ((states1_1.kennel (3#64).toNat).st = KSt.created) ∧ (1 ≤ (3#64).toNat) ∧ ((3#64).toNat ≤ 65536) ∧ ((3#64).toNat < 2 ^ 40) ∧ (states1_1.part ≠ Part.s) ∧ (inMonitor states1_1 (3#64).toNat (4 * (3#64).toNat) = false)) ∧
    ((Runs states1_1) ∧ (servesCalls states1_1 = true) ∧ ((3#64).toNat < 4096) ∧ ((states1_1.kennel (3#64).toNat).st = KSt.created) ∧ (states1_1.hasPool = true) ∧ ((states1_1.kennel (3#64).toNat).feature 1 = true) ∧ ((0#64).toNat % 65536 = 0) ∧ ((0#64).toNat < 196608 * 2 ^ 21) ∧ ((states1_1.kennel (3#64).toNat).root ≠ some (0#64).toNat)) ∧
    ((Runs states1_1) ∧ (servesCalls states1_1 = true) ∧ ((3#64).toNat < 4096) ∧ ((states1_1.kennel (3#64).toNat).st = KSt.created) ∧ ((4#64).toNat < 4096) ∧ (slotFull states1_1 (4#64).toNat = true) ∧ (slotBound states1_1 (4#64).toNat = false) ∧ ((states1_1.kennel (3#64).toNat).key = none)) ∧
    ((Runs states1_1) ∧ (servesCalls states1_1 = true) ∧ ((3#64).toNat < 4096) ∧ ((states1_1.kennel (3#64).toNat).st = KSt.created) ∧ ((0#64).toNat < 4096) ∧ (slotFull states1_1 (0#64).toNat = false)) ∧
    ((Runs states1_1) ∧ (servesCalls states1_1 = true) ∧ ((3#64).toNat < 4096) ∧ ((states1_1.kennel (3#64).toNat).st = KSt.created) ∧ ((3#64).toNat < 16) ∧ ((states1_1.kennel (3#64).toNat).queues.find (3#64).toNat = none) ∧ (6 ≤ (6#64).toNat) ∧ ((6#64).toNat ≤ 16) ∧ (states1_1.part ≠ Part.s) ∧ ((0#64).toNat % Min.min (64 * 2 ^ (6#64).toNat) (2 ^ 21) = 0) ∧ ((0#64).toNat < 2 ^ 46) ∧ (Option.any (fun num => true) (lowestFree (queueNums states1_1) 16384)) = true) ∧
    ((Runs states1_1) ∧ (servesCalls states1_1 = true) ∧ ((3#64).toNat < 4096) ∧ (3 < 32) ∧ ((states1_1.kennel (3#64).toNat).st = KSt.created ∨ (states1_1.kennel (3#64).toNat).st = KSt.open) ∧ ((states1_1.kennel (3#64).toNat).feature 5 = true) ∧ (bit states1_1.part.cores 3 = true) ∧ ((states1_1.core 3).st = CSt.free) ∧ (states1_1.rd F.CMP_OWN_VALID 3 = 0) ∧ (heldCores states1_1 (3#64).toNat = [])) ∧
    ((Runs states1_1) ∧ (servesCalls states1_1 = true) ∧ ((1#64).toNat < 4096) ∧ (states1_1.hasPool = true) ∧ ((0#64).toNat % 2 ^ 21 = 0) ∧ ((0#64).toNat < 2 ^ 46) ∧ ((3#64).toNat ≤ 196607) ∧ ((states1_1.kennel (1#64).toNat).st = KSt.created ∨ (states1_1.kennel (1#64).toNat).st = KSt.open) ∧ (let page := (0#64).toNat / 2 ^ 21; decide (0#64 = 0 ∨ 0#64 = 2) && (decide (pageHeld states1_1 (3#64).toNat = false) && (decide ((3#64).toNat < states1_1.rd F.POL_MONRGN_FIRST) && (decide (Pte.v (entry2 states1_1 (1#64).toNat page) = false) && (decide ((states1_1.kennel (1#64).toNat).key.isSome = true) && (decide ((states1_1.kennel (1#64).toNat).feature 1 = true) && Option.any (fun r => Option.any (fun a => true) (entryAddr (ensureTable (1#64).toNat page (zeroPage (3#64).toNat states1_1)) (1#64).toNat page)) (states1_1.kennel (1#64).toNat).root)))))) = true) ∧
    ((Runs states1_3) ∧ (servesCalls states1_3 = true) ∧ ((1#64).toNat < 4096) ∧ (states1_3.hasPool = true) ∧ ((0#64).toNat % 2 ^ 21 = 0) ∧ ((0#64).toNat < 2 ^ 46) ∧ ((3#64).toNat ≤ 196607) ∧ ((states1_3.kennel (1#64).toNat).st = KSt.created ∨ (states1_3.kennel (1#64).toNat).st = KSt.open) ∧ (let page := (0#64).toNat / 2 ^ 21; decide (Pte.v (entry2 states1_3 (1#64).toNat page) = true) && (decide (states1_3.pool.accs = []) && decide (states1_3.tray.resync = none))) = true) ∧
    ((Runs states1_3) ∧ (servesCalls states1_3 = true) ∧ ((1#64).toNat < 4096) ∧ (states1_3.hasPool = true) ∧ ((0#64).toNat % 2 ^ 21 = 0) ∧ ((0#64).toNat < 2 ^ 46) ∧ ((3#64).toNat ≤ 196607) ∧ ((states1_3.kennel (1#64).toNat).st = KSt.created ∨ (states1_3.kennel (1#64).toNat).st = KSt.open) ∧ (let page := (0#64).toNat / 2 ^ 21; decide (Pte.v (entry2 states1_3 (1#64).toNat page) = true) && (decide (states1_3.pool.accs = []) && decide (0#64 = 0 ∨ 0#64 = 2))) = true) ∧
    ((Runs states1_1) ∧ (servesCalls states1_1 = true) ∧ ((3#64).toNat < 4096) ∧ (states1_1.hasPool = true) ∧ ((0#64).toNat % 2 ^ 21 = 0) ∧ ((0#64).toNat < 2 ^ 46) ∧ ((3#64).toNat ≤ 196607) ∧ ((states1_1.kennel (3#64).toNat).st = KSt.created ∨ (states1_1.kennel (3#64).toNat).st = KSt.open) ∧ (let page := (0#64).toNat / 2 ^ 21; decide (Pte.v (entry2 states1_1 (3#64).toNat page) = false)) = true) := by
  refine ⟨?_, ?_, ?_, ?_, ?_, ?_, ?_, ?_, ?_, ?_, ?_, ?_, ?_, ?_, ?_, ?_, ?_⟩ <;> decide +kernel
end Kennel

namespace Collective
def pk (opc len addr src : Nat) (pl : List Byte) : Packet := { dst := 0, src := BitVec.ofNat 16 src, ktag := 7, win := 3, psn := 4, addr := BitVec.ofNat 48 addr, vc := 0, opc := BitVec.ofNat 6 opc, len := BitVec.ofNat 9 len, fen := false, cmk := 0, epb := false, dln := 0, twn := false, col := 0, hop := 3, gen := 2, rsv := 0, payload := pl, check := 0 }
def ar (opc len addr src : Nat) (pl : List Byte) : Arrival := ⟨3, (pk opc len addr src (pl ++ List.replicate (16*len - pl.length) 5)).seal, 0⟩
def ars : List Arrival := [{ar 0x10 2 (collAddr 3 0 4 0) 11 [] with pkt := {(ar 0x10 2 (collAddr 3 0 4 0) 11 []).pkt with check := 0}}, ar 0x10 2 (collAddr 3 0 4 0) 11 [], ar 0x10 2 (collAddr 3 0 5 0) 11 [], ar 0x10 2 (collAddr 3 0 1 0) 11 [], ar 0x10 2 (collAddr 3 0 4 0) 14 [], ar 0x11 256 (collAddr 3 0 4 0) 13 [], ar 1 2 0 13 []]
def arrivals0 : List Arrival := ars
def ms : List Stage := [⟨0, [11,12], none⟩]
def co : Coll := {id := 5, k := 1, q := 2, seq := 5, opc := 0xB, group := 3, stages := ms, nstg := 1, topLead := true, repro := true, len := 64, admitted := true, cseq := some 4}
def d4 : List Byte := (upto 16).flatMap fun i => leBytes 4 (0x3f800000 + i * 0x1000)
def cb : Coll := {co with staged := [(pieceKey 0 0 0 0, d4), (pieceKey 0 1 0 0, d4.reverse)]}
def cd : Coll := {co with stages := [⟨1, [12, 13], some 0⟩], topLead := false, inF := 1, outF := 0, len := 16384}
def cs : List Coll := [co, cb, {cb with rechecked := [0]}, cd]
def cm : Cmd := {k:=1,q:=2,seq:=5,desc := [0x0B] ++ List.replicate 3 0 ++ [0,0] ++ List.replicate 10 0 ++ [3,0,0,0,14,0,0,0] ++ List.replicate 16 0 ++ leBytes 8 64 ++ [255,255] ++ List.replicate 14 0,opc:=0xB, coll := some 5}
def kn : Kennel := {st := .open, ktag := 7, feat := BitVec.allOnes 64, queues := [(2, {head := 3, tail := 6, base := 0, log2 := 6, collWait := true})]}
def rst : State := upS.wr F.RTV_QUOTA_QUOTA 200 1
def st (cs : List Coll) : State := {rst with knl := [(1, kn)], time := 9000*77, rtv := {rst.rtv with colls := cs, next := [(1*8192+3, 6)]}, cmds := [cm], spg := {rst.spg with active := {rst.spg.active with grp := [(3, 1 + 4, 1 + 2 * 2^22 + 1 * 2^15, 0, 0)]}}}
def cself : Coll := {co with self_ := true}
def sp : State := {st [cself] with pool := {mem := tbls [(0,3+256*5)]}, knl := [(1, {kn with root := some 0})]}
def colls1 : List Coll := cs ++ [cself]
def states1 : List State := [{st [] with ni := {inbox := [ar 0x10 2 (collAddr 3 0 4 32) 11 [], ar 0x10 2 (collAddr 3 0 5 0) 11 []]}}, st [], (st []).wr F.RTV_QUOTA_QUOTA 0 1, sp] ++ cs.map fun c => st [c]
def ct : Coll := {cb with cameAt := some (9000*77)}
def cn : Coll := {co with admitted := false, cseq := none}
def gn (s : State) : List Coll := (regroup s cn).toList
def ss : List State := [(st (gn (st [cn]))).wr F.RTV_LANES_UP 0, st [cn], {st [cn] with csr := []}, {(st [cn]).wr F.RTV_QUOTA_QUOTA 4 1 with rtv := {(st [cn]).rtv with colls := [cn], early := List.replicate 240 (ar 0x10 256 (collAddr 3 0 5 0) 11 [])}}, st [co], (st [co]).wr F.RTV_LANES_TESTING 1, (st [cn]).wr F.RTV_QUOTA_QUOTA 0 1]
def states2 : List State := ss ++ [st [ct]]
def states3 : List State := cs.map fun c => st [c]
def arrivals0_0 : Arrival := arrivals0[0]'(by decide +kernel)
def arrivals0_1 : Arrival := arrivals0[1]'(by decide +kernel)
def arrivals0_2 : Arrival := arrivals0[2]'(by decide +kernel)
def arrivals0_4 : Arrival := arrivals0[4]'(by decide +kernel)
def arrivals0_5 : Arrival := arrivals0[5]'(by decide +kernel)
def colls1_0 : Coll := colls1[0]'(by decide +kernel)
def states1_0 : State := states1[0]'(by decide +kernel)
def states1_1 : State := states1[1]'(by decide +kernel)
def states1_2 : State := states1[2]'(by decide +kernel)
def states1_3 : State := states1[3]'(by decide +kernel)
def states1_4 : State := states1[4]'(by decide +kernel)
def states1_7 : State := states1[7]'(by decide +kernel)
def states2_0 : State := states2[0]'(by decide +kernel)
def states2_1 : State := states2[1]'(by decide +kernel)
def states2_3 : State := states2[3]'(by decide +kernel)
def states2_4 : State := states2[4]'(by decide +kernel)
def states2_5 : State := states2[5]'(by decide +kernel)
def states2_6 : State := states2[6]'(by decide +kernel)
def states2_7 : State := states2[7]'(by decide +kernel)
def states3_1 : State := states3[1]'(by decide +kernel)
def states3_2 : State := states3[2]'(by decide +kernel)
/-- The hypotheses of Obligations.CollectivePackets. -/
theorem witness_CollectivePackets :
    ((Runs states1_0) ∧ (arrivals0_5.pkt.ktag ≠ 0) ∧ (Option.any (fun k => decide (arrivals0_5.pkt.opc ≠ 16)) (servedKennel states1_0 arrivals0_5.pkt.ktag)) = true) ∧
    ((Runs states1_0) ∧ (arrivals0_0.pkt.ktag ≠ 0) ∧ (Option.any (fun k => decide (arrivals0_0.pkt.opc ≠ 17)) (servedKennel states1_0 arrivals0_0.pkt.ktag)) = true) ∧
    ((Runs states1_0) ∧ (arrivals0_0.pkt.ktag ≠ 0) ∧ (Option.any (fun k => decide (arrivals0_0.pkt.opc = 16) && decide (behind arrivals0_0 states1_0 = true)) (servedKennel states1_0 arrivals0_0.pkt.ktag)) = true) ∧
    ((Runs states1_1) ∧ (arrivals0_0.pkt.ktag ≠ 0) ∧ (Option.any (fun k => decide (arrivals0_0.pkt.opc = 16) && (decide (behind arrivals0_0 states1_1 = false) && (decide (flyingOn states1_1 k (collAddrOf arrivals0_0.pkt).group = none) && let d := ((collAddrOf arrivals0_0.pkt).cseq + 16 - nextTag states1_1 k (collAddrOf arrivals0_0.pkt).group) % 16; decide (8 ≤ d)))) (servedKennel states1_1 arrivals0_0.pkt.ktag)) = true) ∧
    ((Runs states1_1) ∧ (arrivals0_2.pkt.ktag ≠ 0) ∧ (Option.any (fun k => decide (arrivals0_2.pkt.opc = 16) && (decide (behind arrivals0_2 states1_1 = false) && (decide (flyingOn states1_1 k (collAddrOf arrivals0_2.pkt).group = none) && let d := ((collAddrOf arrivals0_2.pkt).cseq + 16 - nextTag states1_1 k (collAddrOf arrivals0_2.pkt).group) % 16; decide (d < 8) && decide (stagingRoom states1_1 k (16 * arrivals0_2.pkt.len.toNat) = true)))) (servedKennel states1_1 arrivals0_2.pkt.ktag)) = true) ∧
    ((Runs states1_2) ∧ (arrivals0_2.pkt.ktag ≠ 0) ∧ (Option.any (fun k => decide (arrivals0_2.pkt.opc = 16) && (decide (behind arrivals0_2 states1_2 = false) && (decide (flyingOn states1_2 k (collAddrOf arrivals0_2.pkt).group = none) && let d := ((collAddrOf arrivals0_2.pkt).cseq + 16 - nextTag states1_2 k (collAddrOf arrivals0_2.pkt).group) % 16; decide (d < 8) && decide (stagingRoom states1_2 k (16 * arrivals0_2.pkt.len.toNat) = false)))) (servedKennel states1_2 arrivals0_2.pkt.ktag)) = true) ∧
    ((Runs states1_3) ∧ (arrivals0_4.pkt.ktag ≠ 0) ∧ (Option.any (fun k => decide (states1_3.rtv.colls.length = 1) && states1_3.rtv.colls.any fun c => decide (c.flying = true) && (decide (c.k = k) && (decide (c.group = (collAddrOf arrivals0_4.pkt).group) && (decide (c.cseq = some (collAddrOf arrivals0_4.pkt).cseq) && (decide ((collAddrOf arrivals0_4.pkt).cseq < 16) && (decide (states1_3.rtv.early = []) && (decide (c.redo = []) && (decide (c.isVar = false) && (decide (c.phase = 0) && (decide (0 < c.cap) && (decide (c.spread = []) && (decide (c.done = 0) && (decide (c.stopAt = none) && (decide (c.chunk ≥ 14) && (decide (behind arrivals0_4 states1_3 = false) && (decide (arrivals0_4.pkt.opc = 16) && decide (c.expects arrivals0_4.pkt false = none))))))))))))))))) (servedKennel states1_3 arrivals0_4.pkt.ktag)) = true) ∧
    ((Runs states1_3) ∧ (arrivals0_1.pkt.ktag ≠ 0) ∧ (Option.any (fun k => decide (states1_3.rtv.colls.length = 1) && states1_3.rtv.colls.any fun c => decide (c.flying = true) && (decide (c.k = k) && (decide (c.group = (collAddrOf arrivals0_1.pkt).group) && (decide (c.cseq = some (collAddrOf arrivals0_1.pkt).cseq) && (decide ((collAddrOf arrivals0_1.pkt).cseq < 16) && (decide (states1_3.rtv.early = []) && (decide (c.redo = []) && (decide (c.isVar = false) && (decide (c.phase = 0) && (decide (0 < c.cap) && (decide (c.spread = []) && (decide (c.done = 0) && (decide (c.stopAt = none) && (decide (c.chunk ≥ 14) && (decide (behind arrivals0_1 states1_3 = false) && (decide (arrivals0_1.pkt.opc = 16) && Option.any (fun m => decide ((collAddrOf arrivals0_1.pkt).off ≠ declOff) && Option.any (fun r => decide (c.inWindow (collAddrOf arrivals0_1.pkt).stg (r.fst / c.kBlocks) = true) && (decide (c.down = []) && (decide (c.topLead = true) && (decide (c.isReduce = false) && decide (entersWhole arrivals0_1.pkt = true))))) (c.place arrivals0_1.pkt false)) (c.expects arrivals0_1.pkt false))))))))))))))))) (servedKennel states1_3 arrivals0_1.pkt.ktag)) = true) ∧
    ((Runs states1_3) ∧ (arrivals0_0.pkt.ktag ≠ 0) ∧ (Option.any (fun k => decide (states1_3.rtv.colls.length = 1) && states1_3.rtv.colls.any fun c => decide (c.flying = true) && (decide (c.k = k) && (decide (c.group = (collAddrOf arrivals0_0.pkt).group) && (decide (c.cseq = some (collAddrOf arrivals0_0.pkt).cseq) && (decide ((collAddrOf arrivals0_0.pkt).cseq < 16) && (decide (states1_3.rtv.early = []) && (decide (c.redo = []) && (decide (c.isVar = false) && (decide (c.phase = 0) && (decide (0 < c.cap) && (decide (c.spread = []) && (decide (c.done = 0) && (decide (c.stopAt = none) && (decide (c.chunk ≥ 14) && (decide (behind arrivals0_0 states1_3 = false) && (decide (arrivals0_0.pkt.opc = 16) && Option.any (fun m => decide ((collAddrOf arrivals0_0.pkt).off ≠ declOff) && Option.any (fun r => decide (c.inWindow (collAddrOf arrivals0_0.pkt).stg (r.fst / c.kBlocks) = true) && (decide (c.down = []) && (decide (c.topLead = true) && (decide (c.isReduce = false) && (decide (entersWhole arrivals0_0.pkt = false) && decide (c.status = 0)))))) (c.place arrivals0_0.pkt false)) (c.expects arrivals0_0.pkt false))))))))))))))))) (servedKennel states1_3 arrivals0_0.pkt.ktag)) = true) ∧
    ((Runs states1_7) ∧ (arrivals0_5.pkt.ktag ≠ 0) ∧ (Option.any (fun k => decide (states1_7.rtv.colls.length = 1) && states1_7.rtv.colls.any fun c => decide (c.flying = true) && (decide (c.k = k) && (decide (c.group = (collAddrOf arrivals0_5.pkt).group) && (decide (c.cseq = some (collAddrOf arrivals0_5.pkt).cseq) && (decide ((collAddrOf arrivals0_5.pkt).cseq < 16) && (decide (states1_7.rtv.early = []) && (decide (c.redo = []) && (decide (c.isVar = false) && (decide (c.phase = 0) && (decide (0 < c.cap) && (decide (c.spread = []) && (decide (c.done = 0) && (decide (c.stopAt = none) && (decide (c.chunk ≥ 14) && (decide (behind arrivals0_5 states1_7 = false) && (decide (arrivals0_5.pkt.opc = 17) && Option.any (fun m => decide ((collAddrOf arrivals0_5.pkt).off ≠ declOff) && (decide (c.takes arrivals0_5.pkt true = true) && (decide (entersWhole arrivals0_5.pkt = true) && (decide ((c.place arrivals0_5.pkt true).isSome = true) && (decide (c.isReduce = false) && (decide (c.isBcast = false) && (decide (c.topLead = false) && decide (∀ (b : Nat), b < ceilDiv c.cap (blockElems c.inF) → ((c.landResult arrivals0_5.pkt).result b).length < c.resultLen c.cap b)))))))) (c.expects arrivals0_5.pkt true))))))))))))))))) (servedKennel states1_7 arrivals0_5.pkt.ktag)) = true) ∧
    ((Runs states1_3) ∧ (arrivals0_0.pkt.ktag ≠ 0) ∧ (Option.any (fun k => decide (states1_3.rtv.colls.length = 1) && states1_3.rtv.colls.any fun c => decide (c.flying = true) && (decide (c.ownBlocks.length = 1) && c.ownBlocks.any fun b => Option.any (fun r => decide (poolCheck states1_3 c.k r.fst (PoolOp.read r.snd) false = none)) (c.ownRange b))) (servedKennel states1_3 arrivals0_0.pkt.ktag)) = true) ∧
    ((Runs states1_4) ∧ (arrivals0_0.pkt.ktag ≠ 0) ∧ (Option.any (fun k => decide (states1_4.rtv.colls.length = 1) && states1_4.rtv.colls.any fun c => decide (c.ownBlocks = [])) (servedKennel states1_4 arrivals0_0.pkt.ktag)) = true) ∧
    ((Runs states1_0) ∧ (arrivals0_0.pkt.ktag ≠ 0) ∧ (Option.any (fun k => decide ((collAddrOf arrivals0_0.pkt).off ≠ declOff) && Option.any (fun r => decide (colls1_0.staged.find (pieceKey (collAddrOf arrivals0_0.pkt).stg 0 r.fst r.snd) = none) && let d := List.take (Min.min (colls1_0.inputBytes (collAddrOf arrivals0_0.pkt).stg (entriesIn colls1_0.inF colls1_0.cap r.fst) - 4096 * r.snd) 4096) arrivals0_0.pkt.payload; decide (d ≠ [])) (colls1_0.place arrivals0_0.pkt false)) (servedKennel states1_0 arrivals0_0.pkt.ktag)) = true) := by
  refine ⟨?_, ?_, ?_, ?_, ?_, ?_, ?_, ?_, ?_, ?_, ?_, ?_, ?_⟩ <;> decide +kernel
/-- The hypotheses of Obligations.CollectiveProgress, its part on collective flight. -/
theorem witness_CollectiveFlight :
    ((Runs states2_1) ∧ (states2_1.rtv.colls.length = 1) ∧ (states2_1.rtv.colls.any fun c => decide (states2_1.cmds.length = 1) && states2_1.cmds.any fun x => decide (x.k = c.k) && (decide (x.q = c.q) && (decide (x.seq = c.seq) && (decide (c.k < 4096) && (decide (states2_1.dieOut = false) && (decide (x.coll = some c.id) && (decide (c.admitted = false) && (decide (c.isOver = false) && Option.any (fun n => decide (n.isVar = false) && (decide (n.down = []) && (decide (n.spread = []) && (decide (n.redo = []) && (decide (n.stopAt = none) && (decide (n.phase = 0) && (decide (n.done = 0) && (decide (0 < n.cap) && (decide (14 ≤ n.chunk) && (decide (states2_1.scent c.k = none) && (decide (states2_1.rd F.DET_CTL_NOFAST = 0) && (decide (states2_1.rd F.RTV_LANES_UP ≠ 0) && (decide (List.length states2_1.rtv.next < 16384) && (decide (states2_1.rtv.early = []) && (decide (n.need (states2_1.rd F.RTV_CTL_WIN + 1) ≤ stagingBytes) && (decide (n.need (states2_1.rd F.RTV_CTL_WIN + 1) ≤ quotaBytes states2_1 c.k) && decide (stagingRoom { states2_1 with rtv := have __src := states2_1.rtv; { __src with colls := [n] } } c.k (n.need (states2_1.rd F.RTV_CTL_WIN + 1)) = true))))))))))))))))) (regroup states2_1 c))))))))) = true) ∧
    ((Runs states2_6) ∧ (states2_6.rtv.colls.length = 1) ∧ (states2_6.rtv.colls.any fun c => decide (states2_6.cmds.length = 1) && states2_6.cmds.any fun x => decide (x.k = c.k) && (decide (x.q = c.q) && (decide (x.seq = c.seq) && (decide (c.k < 4096) && (decide (states2_6.dieOut = false) && (decide (x.coll = some c.id) && (decide (c.admitted = false) && (decide (c.isOver = false) && Option.any (fun n => decide (n.isVar = false) && (decide (n.down = []) && (decide (n.spread = []) && (decide (n.redo = []) && (decide (n.stopAt = none) && (decide (n.phase = 0) && (decide (n.done = 0) && (decide (0 < n.cap) && (decide (14 ≤ n.chunk) && (decide (states2_6.scent c.k = none) && (decide (states2_6.rd F.DET_CTL_NOFAST = 0) && (decide (states2_6.rd F.RTV_LANES_UP ≠ 0) && (decide (List.length states2_6.rtv.next < 16384) && (decide (quotaBytes states2_6 c.k < n.need (states2_6.rd F.RTV_CTL_WIN + 1)) && decide (c.prog = none))))))))))))))) (regroup states2_6 c))))))))) = true) ∧
    ((Runs states2_3) ∧ (states2_3.rtv.colls.length = 1) ∧ (states2_3.rtv.colls.any fun c => decide (states2_3.cmds.length = 1) && states2_3.cmds.any fun x => decide (x.k = c.k) && (decide (x.q = c.q) && (decide (x.seq = c.seq) && (decide (c.k < 4096) && (decide (states2_3.dieOut = false) && (decide (x.coll = some c.id) && (decide (c.admitted = false) && (decide (c.isOver = false) && Option.any (fun n => decide (n.isVar = false) && (decide (n.down = []) && (decide (n.spread = []) && (decide (n.redo = []) && (decide (n.stopAt = none) && (decide (n.phase = 0) && (decide (n.done = 0) && (decide (0 < n.cap) && (decide (14 ≤ n.chunk) && (decide (states2_3.scent c.k = none) && (decide (states2_3.rd F.DET_CTL_NOFAST = 0) && (decide (states2_3.rd F.RTV_LANES_UP ≠ 0) && (decide (List.length states2_3.rtv.next < 16384) && (decide (n.need (states2_3.rd F.RTV_CTL_WIN + 1) ≤ quotaBytes states2_3 c.k) && (decide (n.need (states2_3.rd F.RTV_CTL_WIN + 1) ≤ stagingBytes) && decide (stagingRoom { states2_3 with rtv := have __src := states2_3.rtv; { __src with colls := [n] } } c.k (n.need (states2_3.rd F.RTV_CTL_WIN + 1)) = false)))))))))))))))) (regroup states2_3 c))))))))) = true) ∧
    ((Runs states2_0) ∧ (states2_0.rtv.colls.length = 1) ∧ (states2_0.rtv.colls.any fun c => decide (states2_0.cmds.length = 1) && states2_0.cmds.any fun x => decide (x.k = c.k) && (decide (x.q = c.q) && (decide (x.seq = c.seq) && (decide (c.k < 4096) && (decide (states2_0.dieOut = false) && (decide (x.coll = some c.id) && (decide (c.admitted = false) && (decide (c.isOver = false) && (decide (c.status = 0) && Option.any (fun n => decide (n = c) && (decide (n.isBcast = false) && (decide (states2_0.scent c.k = none) && (decide (states2_0.rd F.DET_CTL_NOFAST = 0) && (decide (states2_0.rd F.RTV_LANES_UP = 0) && (decide (n.need (states2_0.rd F.RTV_CTL_WIN + 1) ≤ stagingBytes) && decide (n.need (states2_0.rd F.RTV_CTL_WIN + 1) ≤ quotaBytes states2_0 c.k))))))) (regroup states2_0 c)))))))))) = true) ∧
    ((Runs states2_7) ∧ (states2_7.rtv.colls.length = 1) ∧ (states2_7.rtv.colls.any fun c => decide (states2_7.cmds.length = 1) && states2_7.cmds.any fun x => decide (x.k = c.k) && (decide (x.q = c.q) && (decide (x.seq = c.seq) && (decide (c.k < 4096) && (decide (states2_7.dieOut = false) && (decide (c.flying = true) && (decide (c.cameAt = some states2_7.time) && (decide (c.lateMask = 0) && decide (c.upMissing = false))))))))) = true) ∧
    ((Runs states2_4) ∧ (states2_4.rtv.colls.length = 1) ∧ (states2_4.rtv.colls.any fun c => decide (states2_4.cmds.length = 1) && states2_4.cmds.any fun x => decide (x.k = c.k) && (decide (x.q = c.q) && (decide (x.seq = c.seq) && (decide (c.k < 4096) && (decide (states2_4.dieOut = false) && (decide (c.flying = true) && (decide (c.status = 0) && (decide (c.cameAt ≠ some states2_4.time ∨ c.lateMask ≠ 0 ∨ c.upMissing = true) && decide (c.prog = none))))))))) = true) ∧
    ((Runs states2_0) ∧ (states2_0.rtv.colls.length = 1) ∧ (states2_0.rtv.colls.any fun c => decide (states2_0.cmds.length = 1) && states2_0.cmds.any fun x => decide (x.k = c.k) && (decide (x.q = c.q) && (decide (x.seq = c.seq) && (decide (c.k < 4096) && (decide (states2_0.dieOut = false) && decide (c.flying = false)))))) = true) ∧
    ((Runs states2_5) ∧ (states2_5.rtv.colls.length = 1) ∧ (states2_5.rtv.colls.any fun c => decide (states2_5.cmds.length = 1) && states2_5.cmds.any fun x => decide (x.k = c.k) && (decide (x.q = c.q) && (decide (x.seq = c.seq) && (decide (c.k < 4096) && (decide (states2_5.dieOut = false) && (decide (states2_5.rd F.RTV_LANES_TESTING = 1) && decide (clearBits (states2_5.rd F.RTV_LANES_UP) (1#16).toNat ≠ 0))))))) = true) ∧
    ((Runs states2_0) ∧ (states2_0.rtv.colls.length = 1) ∧ (states2_0.rtv.colls.any fun c => decide (states2_0.cmds.length = 1) && states2_0.cmds.any fun x => decide (x.k = c.k) && (decide (x.q = c.q) && (decide (x.seq = c.seq) && (decide (c.k < 4096) && (decide (states2_0.dieOut = false) && decide (states2_0.rd F.RTV_LANES_TESTING = 0)))))) = true) := by
  refine ⟨?_, ?_, ?_, ?_, ?_, ?_, ?_, ?_, ?_⟩ <;> decide +kernel
/-- The hypotheses of Obligations.CollectiveProgress, its part on block results. -/
theorem witness_BlockResults :
    ((Runs states3_1) ∧ (states3_1.rtv.colls.length = 1) ∧ (states3_1.rtv.colls.any fun c => decide (states3_1.cmds.length = 1) && states3_1.cmds.any fun x => decide (x.k = c.k) && (decide (x.q = c.q) && (decide (x.seq = c.seq) && (decide (c.flying = true) && (decide (c.status = 0) && (decide (c.phase = 0) && (decide (c.stopAt = none) && (decide (c.opc = 11) && (decide (c.stages = [{ level := 0, members := [11, 12], me := none }]) && (decide (c.topLead = true) && (decide (c.self_ = false) && (decide (c.inF = 0) && (decide (c.outF = 0) && (decide (c.rop = 0) && (decide (c.repro = true) && (decide (c.root = 65535) && (decide (c.len % 16 = 0) && (decide (0 < c.len) && (decide (c.len ≤ 4096) && (decide (14 ≤ c.chunk) && (decide (1 ≤ c.w) && (decide (c.nstg = 1) && (decide (c.passed = []) && (decide (c.down = []) && (decide (c.spread = []) && (decide (c.outst = []) && (decide (c.redo = []) && (decide (c.done = 0) && (decide (c.unreached = 0) && (decide (states3_1.rtv.early = []) && (decide (states3_1.rd F.RTV_LANES_TESTING = 0) && (decide (states3_1.rd F.RTV_LANES_UP ≠ 0) && (decide ((c.input 0 0 0).length = c.len) && decide ((c.input 0 1 0).length = c.len)))))))))))))))))))))))))))))))))) = true) ∧
    ((Runs states3_1) ∧ (states3_1.rtv.colls.length = 1) ∧ (states3_1.rtv.colls.any fun c => decide (states3_1.cmds.length = 1) && states3_1.cmds.any fun x => decide (x.k = c.k) && (decide (x.q = c.q) && (decide (x.seq = c.seq) && (decide (c.flying = true) && (decide (c.status = 0) && (decide (c.phase = 0) && (decide (c.stopAt = none) && (decide (c.opc = 11) && (decide (c.stages = [{ level := 0, members := [11, 12], me := none }]) && (decide (c.topLead = true) && (decide (c.self_ = false) && (decide (c.inF = 0) && (decide (c.outF = 0) && (decide (c.rop = 0) && (decide (c.repro = true) && (decide (c.root = 65535) && (decide (c.len % 16 = 0) && (decide (0 < c.len) && (decide (c.len ≤ 4096) && (decide (14 ≤ c.chunk) && (decide (1 ≤ c.w) && (decide (c.nstg = 1) && (decide (c.passed = []) && (decide (c.down = []) && (decide (c.spread = []) && (decide (c.outst = []) && (decide (c.redo = []) && (decide (c.done = 0) && (decide (c.unreached = 0) && (decide (states3_1.rtv.early = []) && (decide (states3_1.rd F.RTV_LANES_TESTING = 0) && (decide (states3_1.rd F.RTV_LANES_UP ≠ 0) && (decide ((c.input 0 0 0).length = c.len) && (decide ((c.input 0 1 0).length = c.len) && decide (c.rechecked = []))))))))))))))))))))))))))))))))))) = true) ∧
    ((Runs states3_2) ∧ (states3_2.rtv.colls.length = 1) ∧ (states3_2.rtv.colls.any fun c => decide (states3_2.cmds.length = 1) && states3_2.cmds.any fun x => decide (x.k = c.k) && (decide (x.q = c.q) && (decide (x.seq = c.seq) && (decide (c.flying = true) && (decide (c.status = 0) && (decide (c.phase = 0) && (decide (c.stopAt = none) && (decide (c.opc = 11) && (decide (c.stages = [{ level := 0, members := [11, 12], me := none }]) && (decide (c.topLead = true) && (decide (c.self_ = false) && (decide (c.inF = 0) && (decide (c.outF = 0) && (decide (c.rop = 0) && (decide (c.repro = true) && (decide (c.root = 65535) && (decide (c.len % 16 = 0) && (decide (0 < c.len) && (decide (c.len ≤ 4096) && (decide (14 ≤ c.chunk) && (decide (1 ≤ c.w) && (decide (c.nstg = 1) && (decide (c.passed = []) && (decide (c.down = []) && (decide (c.spread = []) && (decide (c.outst = []) && (decide (c.redo = []) && (decide (c.done = 0) && (decide (c.unreached = 0) && (decide (states3_2.rtv.early = []) && (decide (states3_2.rd F.RTV_LANES_TESTING = 0) && (decide (states3_2.rd F.RTV_LANES_UP ≠ 0) && (decide ((c.input 0 0 0).length = c.len) && (decide ((c.input 0 1 0).length = c.len) && (decide (c.rechecked = [0]) && (decide (effSev states3_2 724 ≤ 4) && (decide (quietSource states3_2 724 = false) && decide (stickyBit states3_2 724 = false)))))))))))))))))))))))))))))))))))))) = true) ∧
    ((Runs states3_1) ∧ (states3_1.rtv.colls.length = 1) ∧ (states3_1.rtv.colls.any fun c => decide (states3_1.cmds.length = 1) && states3_1.cmds.any fun x => decide (x.k = c.k) && (decide (x.q = c.q) && (decide (x.seq = c.seq) && (decide (c.flying = true) && (decide (c.status = 0) && (decide (c.phase = 0) && (decide (c.stopAt = none) && (decide (c.opc = 11) && (decide (c.stages = [{ level := 0, members := [11, 12], me := none }]) && (decide (c.topLead = true) && (decide (c.self_ = false) && (decide (c.inF = 0) && (decide (c.outF = 0) && (decide (c.rop = 0) && (decide (c.repro = true) && (decide (c.root = 65535) && (decide (c.len % 16 = 0) && (decide (0 < c.len) && (decide (c.len ≤ 4096) && (decide (14 ≤ c.chunk) && (decide (1 ≤ c.w) && (decide (c.nstg = 1) && (decide (c.passed = []) && (decide (c.down = []) && (decide (c.spread = []) && (decide (c.outst = []) && (decide (c.redo = []) && (decide (c.done = 0) && (decide (c.unreached = 0) && (decide (states3_1.rtv.early = []) && (decide (states3_1.rd F.RTV_LANES_TESTING = 0) && (decide (states3_1.rd F.RTV_LANES_UP ≠ 0) && (decide ((c.input 0 0 0).length = c.len) && (decide ((c.input 0 1 0).length = c.len) && decide (11 ≠ c.id))))))))))))))))))))))))))))))))))) = true) := by
  refine ⟨?_, ?_, ?_, ?_⟩ <;> decide +kernel
end Collective

namespace Program
def kn : Kennel := {st := .open, ktag := 7, feat := BitVec.allOnes 64, wh := [(3,9)], nWh := 8, root := some 0, key := some 3}
def pg : Prog := {id := 4, k := 1, q := 2, seq := 5, ncore := 1, static := false, placed := none, sealed_ := false, repro := false, paddr := 0x1000, aadr := 77, step := 5, seed := 9}
def cm : Cmd := {k:=1,q:=2,seq:=5,desc := List.replicate 64 0,opc:=6, prog := some 4}
def own (s : State) (c : Nat) : State := (s.wr F.CMP_OWN_VALID 1 c).wr F.CMP_OWN_KENNEL 1 c
def img : List Byte := leBytes 4 0x48435653 ++ leBytes 2 1 ++ leBytes 2 1 ++ List.replicate 248 0 ++ leBytes 8 512 ++ leBytes 8 2 ++ List.replicate 240 0 ++ List.replicate 64 7
def st (p : Prog) (x : Core) : State := {own upS 5 with knl := [(1, kn)], cyc := 1000, pool := ({mem := tbls [(0,3+256*5)]}:Pool).setBytes (5*2^21+0x1000) img, time := 9000*77, isl := {upS.isl with cores := [(5, x)], progs := [p]}, cmds := [cm]}
def progs0 : List Prog := [pg, {pg with ncore := 4000}, {pg with cores := [5]}, {pg with cores := [5], loaded := [0], lastLoad := 7}, {pg with cores := [5], loaded := [0], lastLoad := 7, running := true, t0 := some 30, tlim := 4}]
def xs : List Core := [{st := .idle}, {st := .free}, {st := .load, prog := some 4, level := 64}, {st := .run, prog := some 4, level := 64}, {st := .run, prog := some 4, level := 64, ended := some 99}, {st := .scrub}]
def states0 : List State := progs0.flatMap fun p => xs.map fun x => (st p x).wr F.CMP_SCRUB_BUSY 32
def mv : Move := {id := 3, ctr := 4, op := .postRead 784 64 5 1, issued := 0, served := true, data := [[1,2,3]]}
def x0 : Core := {st := .run, prog := some 4, level := 64, banks := [(999,3),(1000,4)]}
def ys : List Core := [{x0 with pend := [⟨0, 999, .s 4 7⟩]}, {x0 with pend := [⟨0, 1001, .s 4 7⟩]}, {x0 with pend := [⟨0, 999, .p 4 true⟩], p := 1}, {x0 with pend := [⟨0, 999, .v 4 [7,8]⟩]}, {x0 with pend := [⟨0, 999, .step 7⟩]}, {x0 with moves := [mv], net := [⟨1001, 2, 5, [1,2,3]⟩]}, {x0 with moves := [{mv with data := [], op := .postRead 64 64 5 1}], net := [⟨1000, 2, 5, [1,2,3]⟩]}, {x0 with waiting := some (.whistle 3 8), moves := [{mv with op := .postRead 5 64 5 1}]}, {x0 with waiting := some (.whistle 3 18)}, {x0 with moves := [{mv with data := [[1,2,3]], op := .postRead 783 64 5 1}]}]
def states1 : List State := (ys.map fun x => st {pg with cores := [5], running := true} x) ++ [{st {pg with cores := [5]} (ys[9]?.getD {}) with cyc := 999},{st {pg with cores := [5]} (ys[5]?.getD {}) with cyc := 998}]
def states0_0 : State := states0[0]'(by decide +kernel)
def states0_1 : State := states0[1]'(by decide +kernel)
def states0_12 : State := states0[12]'(by decide +kernel)
def states0_2 : State := states0[2]'(by decide +kernel)
def states0_20 : State := states0[20]'(by decide +kernel)
def states0_24 : State := states0[24]'(by decide +kernel)
def states0_28 : State := states0[28]'(by decide +kernel)
def states0_5 : State := states0[5]'(by decide +kernel)
def states0_6 : State := states0[6]'(by decide +kernel)
def states1_0 : State := states1[0]'(by decide +kernel)
def states1_1 : State := states1[1]'(by decide +kernel)
def states1_2 : State := states1[2]'(by decide +kernel)
def states1_3 : State := states1[3]'(by decide +kernel)
def states1_4 : State := states1[4]'(by decide +kernel)
def states1_5 : State := states1[5]'(by decide +kernel)
def states1_6 : State := states1[6]'(by decide +kernel)
def states1_7 : State := states1[7]'(by decide +kernel)
def states1_8 : State := states1[8]'(by decide +kernel)
/-- The hypotheses of Obligations.ProgramLifecycle. -/
theorem witness_ProgramLifecycle :
    ((Runs states0_6) ∧ (states0_6.isl.progs.length = 1) ∧ (states0_6.isl.progs.any fun p => decide (states0_6.cmds.length = 1) && states0_6.cmds.any fun x => decide (x.k = p.k) && (decide (x.q = p.q) && (decide (x.seq = p.seq) && (decide (x.prog = some p.id) && (decide (p.update = none) && (decide (p.k < 4096) && (decide (x.status = 0) && (decide (p.cores = []) && decide (overCap states0_6 p = true))))))))) = true) ∧
    ((Runs states0_0) ∧ (states0_0.isl.progs.length = 1) ∧ (states0_0.isl.progs.any fun p => decide (states0_0.cmds.length = 1) && states0_0.cmds.any fun x => decide (x.k = p.k) && (decide (x.q = p.q) && (decide (x.seq = p.seq) && (decide (x.prog = some p.id) && (decide (p.update = none) && (decide (p.k < 4096) && (decide (p.cores = []) && (decide (overCap states0_0 p = false) && (decide (p.static = false) && (decide (capRoom states0_0 p = true) && Option.any (fun l => true) (coresFor states0_0 p))))))))))) = true) ∧
    ((Runs states0_1) ∧ (states0_1.isl.progs.length = 1) ∧ (states0_1.isl.progs.any fun p => decide (states0_1.cmds.length = 1) && states0_1.cmds.any fun x => decide (x.k = p.k) && (decide (x.q = p.q) && (decide (x.seq = p.seq) && (decide (x.prog = some p.id) && (decide (p.update = none) && (decide (p.k < 4096) && (decide (p.cores = []) && (decide (overCap states0_1 p = false) && (decide (p.static = false) && (decide (capRoom states0_1 p = true) && decide (coresFor states0_1 p = none))))))))))) = true) ∧
    ((Runs states0_12) ∧ (states0_12.isl.progs.length = 1) ∧ (states0_12.isl.progs.any fun p => decide (states0_12.cmds.length = 1) && states0_12.cmds.any fun x => decide (x.k = p.k) && (decide (x.q = p.q) && (decide (x.seq = p.seq) && (decide (x.prog = some p.id) && (decide (p.update = none) && (decide (p.k < 4096) && decide (p.cores ≠ []))))))) = true) ∧
    ((Runs states0_2) ∧ (states0_2.isl.progs.length = 1) ∧ (states0_2.isl.progs.any fun p => decide (states0_2.cmds.length = 1) && states0_2.cmds.any fun x => decide (x.k = p.k) && (decide (x.q = p.q) && (decide (x.seq = p.seq) && (decide (x.prog = some p.id) && (decide (p.update = none) && (decide (p.k < 4096) && (decide (5 < 32) && (decide ((states0_2.core 5).prog = some p.id) && (decide ((states0_2.core 5).st = CSt.load) && (decide (p.loaded.contains (states0_2.core 5).lidx = false) && (decide ((readImage states0_2 p.k { p with aadr := 0, step := 0, tlim := 0, seed := 0, reserved := false }).cores.isSome = true) && (decide ((readImage states0_2 p.k { p with aadr := 0, step := 0, tlim := 0, seed := 0, reserved := false }).segs.isSome = true) && (decide (states0_2.pool.errs = []) && decide (((loadRanges p (readImage states0_2 p.k { p with aadr := 0, step := 0, tlim := 0, seed := 0, reserved := false }) (states0_2.core 5).lidx).all fun r => mapped states0_2 p.k r.fst r.snd && !unreadable states0_2 p.k r.fst r.snd) = true)))))))))))))) = true) ∧
    ((Runs states0_0) ∧ (states0_0.isl.progs.length = 1) ∧ (states0_0.isl.progs.any fun p => decide (states0_0.cmds.length = 1) && states0_0.cmds.any fun x => decide (x.k = p.k) && (decide (x.q = p.q) && (decide (x.seq = p.seq) && (decide (x.prog = some p.id) && (decide (p.update = none) && (decide (p.k < 4096) && (decide (4 < 32) && decide ((states0_0.core 4).st ≠ CSt.load)))))))) = true) ∧
    ((Runs states0_20) ∧ (states0_20.isl.progs.length = 1) ∧ (states0_20.isl.progs.any fun p => decide (states0_20.cmds.length = 1) && states0_20.cmds.any fun x => decide (x.k = p.k) && (decide (x.q = p.q) && (decide (x.seq = p.seq) && (decide (x.prog = some p.id) && (decide (p.update = none) && (decide (p.k < 4096) && (decide (startable states0_20 p = true) && (decide (states0_20.det.barriers = []) && decide (states0_20.scent p.k = none))))))))) = true) ∧
    ((Runs states0_0) ∧ (states0_0.isl.progs.length = 1) ∧ (states0_0.isl.progs.any fun p => decide (states0_0.cmds.length = 1) && states0_0.cmds.any fun x => decide (x.k = p.k) && (decide (x.q = p.q) && (decide (x.seq = p.seq) && (decide (x.prog = some p.id) && (decide (p.update = none) && (decide (p.k < 4096) && decide (startable states0_0 p = false))))))) = true) ∧
    ((Runs states0_28) ∧ (states0_28.isl.progs.length = 1) ∧ (states0_28.isl.progs.any fun p => decide (states0_28.cmds.length = 1) && states0_28.cmds.any fun x => decide (x.k = p.k) && (decide (x.q = p.q) && (decide (x.seq = p.seq) && (decide (x.prog = some p.id) && (decide (p.update = none) && (decide (p.k < 4096) && (decide (allEnded states0_28 p = true) && (decide (states0_28.scent p.k = none) && decide (x.status = 0))))))))) = true) ∧
    ((Runs states0_0) ∧ (states0_0.isl.progs.length = 1) ∧ (states0_0.isl.progs.any fun p => decide (states0_0.cmds.length = 1) && states0_0.cmds.any fun x => decide (x.k = p.k) && (decide (x.q = p.q) && (decide (x.seq = p.seq) && (decide (x.prog = some p.id) && (decide (p.update = none) && (decide (p.k < 4096) && decide (allEnded states0_0 p = false))))))) = true) ∧
    ((Runs states0_24) ∧ (states0_24.isl.progs.length = 1) ∧ (states0_24.isl.progs.any fun p => decide (states0_24.cmds.length = 1) && states0_24.cmds.any fun x => decide (x.k = p.k) && (decide (x.q = p.q) && (decide (x.seq = p.seq) && (decide (x.prog = some p.id) && (decide (p.update = none) && (decide (p.k < 4096) && (decide (p.tlim ≠ 0) && (decide (allEnded states0_24 p = false) && decide (x.status = 0))))))))) = true) ∧
    ((Runs states0_0) ∧ (states0_0.isl.progs.length = 1) ∧ (states0_0.isl.progs.any fun p => decide (states0_0.cmds.length = 1) && states0_0.cmds.any fun x => decide (x.k = p.k) && (decide (x.q = p.q) && (decide (x.seq = p.seq) && (decide (x.prog = some p.id) && (decide (p.update = none) && (decide (p.k < 4096) && decide (p.tlim = 0))))))) = true) ∧
    ((Runs states0_5) ∧ (states0_5.isl.progs.length = 1) ∧ (states0_5.isl.progs.any fun p => decide (states0_5.cmds.length = 1) && states0_5.cmds.any fun x => decide (x.k = p.k) && (decide (x.q = p.q) && (decide (x.seq = p.seq) && (decide (x.prog = some p.id) && (decide (p.update = none) && (decide (p.k < 4096) && (decide (5 < 32) && decide ((states0_5.core 5).st = CSt.scrub)))))))) = true) ∧
    ((Runs states0_5) ∧ (states0_5.isl.progs.length = 1) ∧ (states0_5.isl.progs.any fun p => decide (states0_5.cmds.length = 1) && states0_5.cmds.any fun x => decide (x.k = p.k) && (decide (x.q = p.q) && (decide (x.seq = p.seq) && (decide (x.prog = some p.id) && (decide (p.update = none) && (decide (p.k < 4096) && (decide (5 < 32) && (decide ((states0_5.core 5).st = CSt.scrub) && (decide (quietSource states0_5 (676 + 5) = false) && (decide (stickyBit states0_5 (676 + 5) = false) && decide (effSev states0_5 (676 + 5) ≤ 4))))))))))) = true) ∧
    ((Runs states0_0) ∧ (states0_0.isl.progs.length = 1) ∧ (states0_0.isl.progs.any fun p => decide (states0_0.cmds.length = 1) && states0_0.cmds.any fun x => decide (x.k = p.k) && (decide (x.q = p.q) && (decide (x.seq = p.seq) && (decide (x.prog = some p.id) && (decide (p.update = none) && (decide (p.k < 4096) && (decide (4 < 32) && decide ((states0_0.core 4).st ≠ CSt.scrub)))))))) = true) := by
  refine ⟨?_, ?_, ?_, ?_, ?_, ?_, ?_, ?_, ?_, ?_, ?_, ?_, ?_, ?_, ?_⟩ <;> decide +kernel
/-- The hypotheses of Obligations.CoreArrivals. -/
theorem witness_CoreArrivals :
    ((5 < 32) ∧ (Runs states1_1) ∧ ((states1_1.core 5).pend.length = 1) ∧ ((states1_1.core 5).pend.any fun q => decide (BitVec.toNat states1_1.cyc < q.due)) = true) ∧
    ((5 < 32) ∧ (Runs states1_0) ∧ ((states1_0.core 5).pend.length = 1) ∧ ((states1_0.core 5).pend.any fun q => decide (q.due ≤ BitVec.toNat states1_0.cyc) && (decide (q.res = Res.s 4 7#64) && decide (4 ≠ 0))) = true) ∧
    ((5 < 32) ∧ (Runs states1_2) ∧ ((states1_2.core 5).pend.length = 1) ∧ ((states1_2.core 5).pend.any fun q => decide (q.due ≤ BitVec.toNat states1_2.cyc) && (decide (q.res = Res.p 4 true) && (decide (4 ≠ 0) && decide (4 < 8)))) = true) ∧
    ((5 < 32) ∧ (Runs states1_3) ∧ ((states1_3.core 5).pend.length = 1) ∧ ((states1_3.core 5).pend.any fun q => decide (q.due ≤ BitVec.toNat states1_3.cyc) && decide (q.res = Res.v 4 [7, 8])) = true) ∧
    ((5 < 32) ∧ (Runs states1_4) ∧ ((states1_4.core 5).pend.length = 1) ∧ ((states1_4.core 5).pend.any fun q => decide (q.due ≤ BitVec.toNat states1_4.cyc) && decide (q.res = Res.step 7#64)) = true) ∧
    ((5 < 32) ∧ (Runs states1_5) ∧ ((states1_5.core 5).moves.length = 1) ∧ ((states1_5.core 5).moves.any fun m => decide (m.op = MoveOp.postRead 784 64 5 1) && (decide (m.served = true) && (decide (m.data.length = 1) && m.data.any fun d => decide (BitVec.toNat states1_5.cyc = 784 + 216) && decide (((states1_5.core 5).banksAt (BitVec.toNat states1_5.cyc)).contains (5 % 48) = false)))) = true) ∧
    ((5 < 32) ∧ (Runs states1_7) ∧ ((states1_7.core 5).moves.length = 1) ∧ ((states1_7.core 5).moves.any fun m => decide (m.op = MoveOp.postRead 5 64 5 1) && (decide (m.served = true) && (decide (m.data.length = 1) && m.data.any fun d => decide (BitVec.toNat states1_7.cyc ≠ 5 + 216)))) = true) ∧
    ((5 < 32) ∧ (Runs states1_6) ∧ ((states1_6.core 5).net.length = 1) ∧ ((states1_6.core 5).net.any fun n => decide (n.due ≤ BitVec.toNat states1_6.cyc) && decide (((states1_6.core 5).banksAt (BitVec.toNat states1_6.cyc)).contains (n.line % 48) = false)) = true) ∧
    ((5 < 32) ∧ (Runs states1_5) ∧ ((states1_5.core 5).net.length = 1) ∧ ((states1_5.core 5).net.any fun n => decide (BitVec.toNat states1_5.cyc < n.due)) = true) ∧
    ((5 < 32) ∧ (Runs states1_6) ∧ ((states1_6.core 5).moves.length = 1) ∧ ((states1_6.core 5).moves.any fun m => decide (m.done (BitVec.toNat states1_6.cyc) = true)) = true) ∧
    ((5 < 32) ∧ (Runs states1_5) ∧ ((states1_5.core 5).moves.length = 1) ∧ ((states1_5.core 5).moves.any fun m => decide (m.done (BitVec.toNat states1_5.cyc) = false)) = true) ∧
    ((5 < 32) ∧ (Runs states1_7) ∧ (Option.any (fun w => decide (waitHolds states1_7 5 w = true)) (states1_7.core 5).waiting) = true) ∧
    ((5 < 32) ∧ (Runs states1_8) ∧ (Option.any (fun w => decide (waitHolds states1_8 5 w = false)) (states1_8.core 5).waiting) = true) ∧
    ((5 < 32) ∧ (Runs states1_0) ∧ ((states1_0.core 5).waiting = none)) := by
  refine ⟨?_, ?_, ?_, ?_, ?_, ?_, ?_, ?_, ?_, ?_, ?_, ?_, ?_, ?_⟩ <;> decide +kernel
end Program

namespace Scalar
def pg : Prog := {id := 4, k := 1, q := 2, seq := 5, ncore := 1, static := false, placed := none, sealed_ := false, repro := false, paddr := 0x1000, aadr := 77, step := 5, seed := 9, running := true, t0 := some 30, cores := [5]}
def x0 : Core := {st := .run, prog := some 4, level := 64, banks := [(999,3),(1000,4)], s := [(3, 2^64 - 5), (6, 1), (7, 0x123456789)], p := 9, seed := 7 + 2^64*9, step := 2^64-1, v := [(3, List.replicate 512 0x3f800000)]}
def st (x : Core) : State := {upS with cyc := 1000, time := 9000*77, isl := {upS.isl with cores := [(5, x)], progs := [pg]}}
def guards0 : List Guard := [{}, {pidx := 3}, {pidx := 3, pneg := true}, {pidx := 2}]
def sAs0 : List SA := [⟨3,3,6,false,0,0⟩,⟨0,3,6,true,0xFFFFFFF0,0⟩,⟨3,7,3,false,5,0⟩,⟨3,3,6,false,0,1⟩]
def sPs0 : List SP := [⟨3,3,6,false,0,0⟩,⟨0,3,6,true,0xFFFFFFF0,0⟩,⟨3,7,3,false,5,0⟩,⟨3,3,6,false,0,1⟩]
def sLs0 : List SL := [⟨3,3,false,2,true,0⟩, ⟨0,3,false,2,true,0⟩,⟨0,3,false,2,true,1⟩]
def sBs0 : List SB := [⟨3,6,0⟩, ⟨3,3,0⟩, ⟨3,3,1⟩]
def sXs0 : List SX := [⟨3,6,false,5,0⟩, ⟨0,3,true,6,0⟩,⟨3,6,false,6,1⟩]
def states0 : List State := [st x0, st {x0 with pend := [⟨0, 1001, .s 3 7⟩]}, st {x0 with pend := [⟨0, 999, .s 3 7⟩]}, st {x0 with ended := some 1000}]
def guards0_0 : Guard := guards0[0]'(by decide +kernel)
def guards0_2 : Guard := guards0[2]'(by decide +kernel)
def sAs0_0 : SA := sAs0[0]'(by decide +kernel)
def sAs0_3 : SA := sAs0[3]'(by decide +kernel)
def sBs0_0 : SB := sBs0[0]'(by decide +kernel)
def sBs0_2 : SB := sBs0[2]'(by decide +kernel)
def sLs0_0 : SL := sLs0[0]'(by decide +kernel)
def sLs0_2 : SL := sLs0[2]'(by decide +kernel)
def sPs0_0 : SP := sPs0[0]'(by decide +kernel)
def sPs0_3 : SP := sPs0[3]'(by decide +kernel)
def sXs0_0 : SX := sXs0[0]'(by decide +kernel)
def sXs0_2 : SX := sXs0[2]'(by decide +kernel)
def states0_0 : State := states0[0]'(by decide +kernel)
/-- The hypotheses of Obligations.ScalarSlot. -/
theorem witness_ScalarSlot :
    ((Issues states0_0 5) ∧ (checked states0_0 5 guards0_0 { bad := 0#52 != 0 } = none) ∧ ((states0_0.core 5).guard guards0_0 = true)) ∧
    ((Issues states0_0 5) ∧ (checked states0_0 5 guards0_2 { bad := 0#52 != 0 } = none) ∧ ((states0_0.core 5).guard guards0_2 = false)) ∧
    ((Issues states0_0 5) ∧ (Option.any (fun cause => true) (checked states0_0 5 guards0_0 { bad := 3#52 != 0 })) = true) ∧
    ((Issues states0_0 5) ∧ (checked states0_0 5 guards0_0 ((fun lat => { bad := sAs0_0.rsv != 0, s := sAs0_0.a.toNat :: if sAs0_0.i = true then [] else [sAs0_0.b.toNat], ws := [(sAs0_0.d.toNat, lat)] }) 1) = none) ∧ ((states0_0.core 5).guard guards0_0 = true)) ∧
    ((Issues states0_0 5) ∧ (checked states0_0 5 guards0_2 ((fun lat => { bad := sAs0_0.rsv != 0, s := sAs0_0.a.toNat :: if sAs0_0.i = true then [] else [sAs0_0.b.toNat], ws := [(sAs0_0.d.toNat, lat)] }) 1) = none) ∧ ((states0_0.core 5).guard guards0_2 = false)) ∧
    ((Issues states0_0 5) ∧ (Option.any (fun cause => true) (checked states0_0 5 guards0_0 ((fun lat => { bad := sAs0_3.rsv != 0, s := sAs0_3.a.toNat :: if sAs0_3.i = true then [] else [sAs0_3.b.toNat], ws := [(sAs0_3.d.toNat, lat)] }) 1))) = true) ∧
    ((Issues states0_0 5) ∧ (checked states0_0 5 guards0_0 ((fun lat => { bad := sAs0_0.rsv != 0, s := sAs0_0.a.toNat :: if sAs0_0.i = true then [] else [sAs0_0.b.toNat], ws := [(sAs0_0.d.toNat, lat)] }) 3) = none) ∧ ((states0_0.core 5).guard guards0_0 = true)) ∧
    ((Issues states0_0 5) ∧ (checked states0_0 5 guards0_2 ((fun lat => { bad := sAs0_0.rsv != 0, s := sAs0_0.a.toNat :: if sAs0_0.i = true then [] else [sAs0_0.b.toNat], ws := [(sAs0_0.d.toNat, lat)] }) 3) = none) ∧ ((states0_0.core 5).guard guards0_2 = false)) ∧
    ((Issues states0_0 5) ∧ (Option.any (fun cause => true) (checked states0_0 5 guards0_0 ((fun lat => { bad := sAs0_3.rsv != 0, s := sAs0_3.a.toNat :: if sAs0_3.i = true then [] else [sAs0_3.b.toNat], ws := [(sAs0_3.d.toNat, lat)] }) 3))) = true) ∧
    ((Issues states0_0 5) ∧ (checked states0_0 5 guards0_0 { bad := sAs0_0.rsv != 0, ws := [(sAs0_0.d.toNat, 1)] } = none) ∧ ((states0_0.core 5).guard guards0_0 = true)) ∧
    ((Issues states0_0 5) ∧ (checked states0_0 5 guards0_2 { bad := sAs0_0.rsv != 0, ws := [(sAs0_0.d.toNat, 1)] } = none) ∧ ((states0_0.core 5).guard guards0_2 = false)) ∧
    ((Issues states0_0 5) ∧ (Option.any (fun cause => true) (checked states0_0 5 guards0_0 { bad := sAs0_3.rsv != 0, ws := [(sAs0_3.d.toNat, 1)] })) = true) ∧
    ((Issues states0_0 5) ∧ (checked states0_0 5 guards0_0 { bad := sAs0_0.rsv != 0, s := [sAs0_0.a.toNat], ws := [(sAs0_0.d.toNat, 1)] } = none) ∧ ((states0_0.core 5).guard guards0_0 = true)) ∧
    ((Issues states0_0 5) ∧ (checked states0_0 5 guards0_2 { bad := sAs0_0.rsv != 0, s := [sAs0_0.a.toNat], ws := [(sAs0_0.d.toNat, 1)] } = none) ∧ ((states0_0.core 5).guard guards0_2 = false)) ∧
    ((Issues states0_0 5) ∧ (Option.any (fun cause => true) (checked states0_0 5 guards0_0 { bad := sAs0_3.rsv != 0, s := [sAs0_3.a.toNat], ws := [(sAs0_3.d.toNat, 1)] })) = true) ∧
    ((Issues states0_0 5) ∧ (let u := { bad := sPs0_0.rsv != 0, s := sPs0_0.a.toNat :: if sPs0_0.i = true then [] else [sPs0_0.b.toNat], wp := [(sPs0_0.pd.toNat, 1)] }; decide (checked states0_0 5 guards0_0 u = none) && decide ((states0_0.core 5).guard guards0_0 = true)) = true) ∧
    ((Issues states0_0 5) ∧ (let u := { bad := sPs0_0.rsv != 0, s := sPs0_0.a.toNat :: if sPs0_0.i = true then [] else [sPs0_0.b.toNat], wp := [(sPs0_0.pd.toNat, 1)] }; decide (checked states0_0 5 guards0_2 u = none) && decide ((states0_0.core 5).guard guards0_2 = false)) = true) ∧
    ((Issues states0_0 5) ∧ (let u := { bad := sPs0_3.rsv != 0, s := sPs0_3.a.toNat :: if sPs0_3.i = true then [] else [sPs0_3.b.toNat], wp := [(sPs0_3.pd.toNat, 1)] }; Option.any (fun cause => true) (checked states0_0 5 guards0_0 u)) = true) ∧
    ((Issues states0_0 5) ∧ (let u := { bad := sLs0_0.rsv != 0, p := [sLs0_0.pa.toNat, sLs0_0.pb.toNat], wp := [(sLs0_0.pd.toNat, 1)] }; decide (checked states0_0 5 guards0_0 u = none) && decide ((states0_0.core 5).guard guards0_0 = true)) = true) ∧
    ((Issues states0_0 5) ∧ (let u := { bad := sLs0_0.rsv != 0, p := [sLs0_0.pa.toNat, sLs0_0.pb.toNat], wp := [(sLs0_0.pd.toNat, 1)] }; decide (checked states0_0 5 guards0_2 u = none) && decide ((states0_0.core 5).guard guards0_2 = false)) = true) ∧
    ((Issues states0_0 5) ∧ (let u := { bad := sLs0_2.rsv != 0, p := [sLs0_2.pa.toNat, sLs0_2.pb.toNat], wp := [(sLs0_2.pd.toNat, 1)] }; Option.any (fun cause => true) (checked states0_0 5 guards0_0 u)) = true) := by
  refine ⟨?_, ?_, ?_, ?_, ?_, ?_, ?_, ?_, ?_, ?_, ?_, ?_, ?_, ?_, ?_, ?_, ?_, ?_, ?_, ?_, ?_⟩ <;> decide +kernel
/-- The hypotheses of Obligations.ScalarSlot, its part on scalar control. -/
theorem witness_ScalarControl :
    ((Issues states0_0 5) ∧ (checked states0_0 5 guards0_0 { bad := sBs0_0.rsv != 0 } = none) ∧ ((states0_0.core 5).guard guards0_0 = true)) ∧
    ((Issues states0_0 5) ∧ (checked states0_0 5 guards0_2 { bad := sBs0_0.rsv != 0 } = none) ∧ ((states0_0.core 5).guard guards0_2 = false)) ∧
    ((Issues states0_0 5) ∧ (Option.any (fun cause => true) (checked states0_0 5 guards0_0 { bad := sBs0_2.rsv != 0 })) = true) ∧
    ((Issues states0_0 5) ∧ (checked states0_0 5 guards0_0 { bad := sBs0_0.rsv != 0, s := [sBs0_0.a.toNat], ws := [(sBs0_0.a.toNat, 1)] } = none) ∧ ((states0_0.core 5).guard guards0_0 = true)) ∧
    ((Issues states0_0 5) ∧ (checked states0_0 5 guards0_2 { bad := sBs0_0.rsv != 0, s := [sBs0_0.a.toNat], ws := [(sBs0_0.a.toNat, 1)] } = none) ∧ ((states0_0.core 5).guard guards0_2 = false)) ∧
    ((Issues states0_0 5) ∧ (Option.any (fun cause => true) (checked states0_0 5 guards0_0 { bad := sBs0_2.rsv != 0, s := [sBs0_2.a.toNat], ws := [(sBs0_2.a.toNat, 1)] })) = true) ∧
    ((Issues states0_0 5) ∧ (states0_0.isl.progs.length = 1) ∧ (states0_0.isl.progs.any fun p => decide ((states0_0.core 5).prog = some p.id) && (decide ((states0_0.core 5).ended = none) && (decide (checked states0_0 5 guards0_0 { bad := 0#52 != 0 } = none) && decide ((states0_0.core 5).guard guards0_0 = true)))) = true) ∧
    ((Issues states0_0 5) ∧ (states0_0.isl.progs.length = 1) ∧ (states0_0.isl.progs.any fun p => decide ((states0_0.core 5).prog = some p.id) && (decide ((states0_0.core 5).ended = none) && (decide (checked states0_0 5 guards0_2 { bad := 0#52 != 0 } = none) && decide ((states0_0.core 5).guard guards0_2 = false)))) = true) ∧
    ((Issues states0_0 5) ∧ (states0_0.isl.progs.length = 1) ∧ (states0_0.isl.progs.any fun p => decide ((states0_0.core 5).prog = some p.id) && (decide ((states0_0.core 5).ended = none) && Option.any (fun cause => true) (checked states0_0 5 guards0_0 { bad := 3#52 != 0 }))) = true) ∧
    ((Issues states0_0 5) ∧ (let u := { bad := sXs0_0.rsv != 0, ws := [(sXs0_0.d.toNat, 1)] }; Option.any (fun p => Option.any (fun t0 => decide (checked states0_0 5 guards0_0 u = none) && decide ((states0_0.core 5).guard guards0_0 = true)) p.t0) (coreProg states0_0 5)) = true) ∧
    ((Issues states0_0 5) ∧ (let u := { bad := sXs0_0.rsv != 0, ws := [(sXs0_0.d.toNat, 1)] }; Option.any (fun p => Option.any (fun t0 => decide (checked states0_0 5 guards0_2 u = none) && decide ((states0_0.core 5).guard guards0_2 = false)) p.t0) (coreProg states0_0 5)) = true) ∧
    ((Issues states0_0 5) ∧ (let u := { bad := sXs0_2.rsv != 0, ws := [(sXs0_2.d.toNat, 1)] }; Option.any (fun p => Option.any (fun t0 => Option.any (fun cause => true) (checked states0_0 5 guards0_0 u)) p.t0) (coreProg states0_0 5)) = true) ∧
    ((Issues states0_0 5) ∧ (let u := { bad := sXs0_0.rsv != 0, ws := [(sXs0_0.d.toNat, 1)] }; decide (checked states0_0 5 guards0_0 u = none) && decide ((states0_0.core 5).guard guards0_0 = true)) = true) ∧
    ((Issues states0_0 5) ∧ (let u := { bad := sXs0_0.rsv != 0, ws := [(sXs0_0.d.toNat, 1)] }; decide (checked states0_0 5 guards0_2 u = none) && decide ((states0_0.core 5).guard guards0_2 = false)) = true) ∧
    ((Issues states0_0 5) ∧ (let u := { bad := sXs0_2.rsv != 0, ws := [(sXs0_2.d.toNat, 1)] }; Option.any (fun cause => true) (checked states0_0 5 guards0_0 u)) = true) ∧
    ((Issues states0_0 5) ∧ (checked states0_0 5 guards0_0 { bad := sXs0_0.rsv != 0 } = none) ∧ ((states0_0.core 5).guard guards0_0 = true)) ∧
    ((Issues states0_0 5) ∧ (checked states0_0 5 guards0_2 { bad := sXs0_0.rsv != 0 } = none) ∧ ((states0_0.core 5).guard guards0_2 = false)) ∧
    ((Issues states0_0 5) ∧ (Option.any (fun cause => true) (checked states0_0 5 guards0_0 { bad := sXs0_2.rsv != 0 })) = true) ∧
    ((Issues states0_0 5) ∧ (checked states0_0 5 guards0_0 { bad := sXs0_0.rsv != 0, s := [sXs0_0.a.toNat] } = none) ∧ ((states0_0.core 5).guard guards0_0 = true)) ∧
    ((Issues states0_0 5) ∧ (checked states0_0 5 guards0_2 { bad := sXs0_0.rsv != 0, s := [sXs0_0.a.toNat] } = none) ∧ ((states0_0.core 5).guard guards0_2 = false)) ∧
    ((Issues states0_0 5) ∧ (Option.any (fun cause => true) (checked states0_0 5 guards0_0 { bad := sXs0_2.rsv != 0, s := [sXs0_2.a.toNat] })) = true) := by
  refine ⟨?_, ?_, ?_, ?_, ?_, ?_, ?_, ?_, ?_, ?_, ?_, ?_, ?_, ?_, ?_, ?_, ?_, ?_, ?_, ?_, ?_⟩ <;> decide +kernel
end Scalar

namespace Vector
def pg : Prog := {id := 4, k := 1, q := 2, seq := 5, ncore := 1, static := false, placed := none, sealed_ := false, repro := false, paddr := 0x1000, aadr := 77, step := 5, seed := 9, running := true, t0 := some 30, cores := [5]}
def x0 : Core := {st := .run, prog := some 4, level := 64, banks := [(999,3),(1000,4)], s := [(3, 2^64 - 5), (6, 1), (7, 0x123456789)], p := 9, seed := 7 + 2^64*9, step := 2^64-1, v := [(3, List.replicate 512 0x3f800000)]}
def st (x : Core) : State := {upS with cyc := 1000, time := 9000*77, isl := {upS.isl with cores := [(5, x)], progs := [pg]}}
def vRs0 : List VR := [⟨false,2,4,6,8,3,false,3,0,0⟩,⟨true,2,4,6,8,3,true,3,1,0⟩,⟨true,3,4,6,8,3,true,3,1,0⟩,⟨true,3,3,6,8,3,false,3,0,0⟩]
def vs : Tbl (List W32) := [(3, (List.range 512).map fun i => BitVec.ofNat 32 (0x3f800000 + i * 12345)), (4, (List.range 512).map fun i => BitVec.ofNat 32 (0x40800000 + i * 12345)), (6, (List.range 512).map fun i => BitVec.ofNat 32 (0xc0800000 + i * 12345)), (8, (List.range 512).map fun i => BitVec.ofNat 32 (0xc0800000 + i * 1))]
def x1 : Core := {x0 with v := vs, x := [(3, 0x7f7e7d7c + 0x3f800000 * 2^256)], spad := [(7, List.replicate 64 3)]}
def states0 : List State := [st x1, st {x1 with vBusy := [(1, 1001)]}]
def guards1 : List Guard := [{}, {pidx := 2}]
def vMs0 : List VM := [⟨false,3,6,6,0,0,0⟩,⟨true,4,6,9,2,3,0⟩,⟨true,4,6,9,2,30,0⟩]
def vSs0 : List VS := [⟨false,4,3,6,0,3,0⟩,⟨true,4,3,6,1,3,0⟩,⟨true,4,0,7,2,3,0⟩]
def vRs1 : List VR := [⟨false,2,4,6,8,3,false,3,0,0⟩,⟨true,2,5,6,8,3,true,3,1,0⟩,⟨true,3,3,6,8,3,false,3,0,0⟩]
def states1 : List State := [st x1, st {x1 with vBusy := [(1, 1001)], acc := [(4, {free := true, eb := -3, n := [(3,7)], spec := [(5,2)]}), (3, {n := [(3, 0x40000000)]})]}]
def guards1_0 : Guard := guards1[0]'(by decide +kernel)
def guards1_1 : Guard := guards1[1]'(by decide +kernel)
def states0_0 : State := states0[0]'(by decide +kernel)
def states0_1 : State := states0[1]'(by decide +kernel)
def states1_0 : State := states1[0]'(by decide +kernel)
def states1_1 : State := states1[1]'(by decide +kernel)
def vMs0_0 : VM := vMs0[0]'(by decide +kernel)
def vMs0_2 : VM := vMs0[2]'(by decide +kernel)
def vRs0_0 : VR := vRs0[0]'(by decide +kernel)
def vRs0_1 : VR := vRs0[1]'(by decide +kernel)
def vRs0_2 : VR := vRs0[2]'(by decide +kernel)
def vRs0_3 : VR := vRs0[3]'(by decide +kernel)
def vRs1_0 : VR := vRs1[0]'(by decide +kernel)
def vRs1_1 : VR := vRs1[1]'(by decide +kernel)
def vSs0_0 : VS := vSs0[0]'(by decide +kernel)
def vSs0_1 : VS := vSs0[1]'(by decide +kernel)
def vSs0_2 : VS := vSs0[2]'(by decide +kernel)
/-- The hypotheses of Obligations.VectorArithmetic. -/
theorem witness_VectorArithmetic :
    ((Issues states0_0 5) ∧ (let busy := decide (BitVec.toNat states0_0.cyc < (states0_0.core 5).vBusy.get (b2n vRs0_0.e) 0); let ra := [vRs0_0.a.toNat, vRs0_0.a.toNat + 1]; let rb := [vRs0_0.b.toNat, vRs0_0.b.toNat + 1]; decide (checked states0_0 5 guards1_0 ((fun lat => { bad := vRs0_0.rsv != 0 || odd vRs0_0.d || odd vRs0_0.a || odd vRs0_0.b || busy, v := ra ++ rb, wv := (fun lat => [(vRs0_0.d.toNat, lat), (vRs0_0.d.toNat + 1, lat)]) lat }) 6) = none) && decide ((states0_0.core 5).guard guards1_0 = true)) = true) ∧
    ((Issues states0_0 5) ∧ (let busy := decide (BitVec.toNat states0_0.cyc < (states0_0.core 5).vBusy.get (b2n vRs0_0.e) 0); let ra := [vRs0_0.a.toNat, vRs0_0.a.toNat + 1]; let rb := [vRs0_0.b.toNat, vRs0_0.b.toNat + 1]; decide (checked states0_0 5 guards1_1 ((fun lat => { bad := vRs0_0.rsv != 0 || odd vRs0_0.d || odd vRs0_0.a || odd vRs0_0.b || busy, v := ra ++ rb, wv := (fun lat => [(vRs0_0.d.toNat, lat), (vRs0_0.d.toNat + 1, lat)]) lat }) 6) = none) && decide ((states0_0.core 5).guard guards1_1 = false)) = true) ∧
    ((Issues states0_0 5) ∧ (let busy := decide (BitVec.toNat states0_0.cyc < (states0_0.core 5).vBusy.get (b2n vRs0_2.e) 0); let ra := [vRs0_2.a.toNat, vRs0_2.a.toNat + 1]; let rb := [vRs0_2.b.toNat, vRs0_2.b.toNat + 1]; Option.any (fun cause => true) (checked states0_0 5 guards1_0 ((fun lat => { bad := vRs0_2.rsv != 0 || odd vRs0_2.d || odd vRs0_2.a || odd vRs0_2.b || busy, v := ra ++ rb, wv := (fun lat => [(vRs0_2.d.toNat, lat), (vRs0_2.d.toNat + 1, lat)]) lat }) 6))) = true) ∧
    ((Issues states0_0 5) ∧ (let busy := decide (BitVec.toNat states0_0.cyc < (states0_0.core 5).vBusy.get (b2n vRs0_0.e) 0); let ra := [vRs0_0.a.toNat, vRs0_0.a.toNat + 1]; let rb := [vRs0_0.b.toNat, vRs0_0.b.toNat + 1]; let rc := [vRs0_0.c.toNat, vRs0_0.c.toNat + 1]; let u3 := { bad := vRs0_0.rsv != 0 || odd vRs0_0.d || odd vRs0_0.a || odd vRs0_0.b || odd vRs0_0.c || busy, v := ra ++ rb ++ rc, wv := (fun lat => [(vRs0_0.d.toNat, lat), (vRs0_0.d.toNat + 1, lat)]) 6 }; decide (checked states0_0 5 guards1_0 u3 = none) && decide ((states0_0.core 5).guard guards1_0 = true)) = true) ∧
    ((Issues states0_0 5) ∧ (let busy := decide (BitVec.toNat states0_0.cyc < (states0_0.core 5).vBusy.get (b2n vRs0_0.e) 0); let ra := [vRs0_0.a.toNat, vRs0_0.a.toNat + 1]; let rb := [vRs0_0.b.toNat, vRs0_0.b.toNat + 1]; let rc := [vRs0_0.c.toNat, vRs0_0.c.toNat + 1]; let u3 := { bad := vRs0_0.rsv != 0 || odd vRs0_0.d || odd vRs0_0.a || odd vRs0_0.b || odd vRs0_0.c || busy, v := ra ++ rb ++ rc, wv := (fun lat => [(vRs0_0.d.toNat, lat), (vRs0_0.d.toNat + 1, lat)]) 6 }; decide (checked states0_0 5 guards1_1 u3 = none) && decide ((states0_0.core 5).guard guards1_1 = false)) = true) ∧
    ((Issues states0_0 5) ∧ (let busy := decide (BitVec.toNat states0_0.cyc < (states0_0.core 5).vBusy.get (b2n vRs0_2.e) 0); let ra := [vRs0_2.a.toNat, vRs0_2.a.toNat + 1]; let rb := [vRs0_2.b.toNat, vRs0_2.b.toNat + 1]; let rc := [vRs0_2.c.toNat, vRs0_2.c.toNat + 1]; let u3 := { bad := vRs0_2.rsv != 0 || odd vRs0_2.d || odd vRs0_2.a || odd vRs0_2.b || odd vRs0_2.c || busy, v := ra ++ rb ++ rc, wv := (fun lat => [(vRs0_2.d.toNat, lat), (vRs0_2.d.toNat + 1, lat)]) 6 }; Option.any (fun cause => true) (checked states0_0 5 guards1_0 u3)) = true) ∧
    ((Issues states0_0 5) ∧ (let busy := decide (BitVec.toNat states0_0.cyc < (states0_0.core 5).vBusy.get (b2n vRs0_0.e) 0); let ra := [vRs0_0.a.toNat, vRs0_0.a.toNat + 1]; decide (checked states0_0 5 guards1_0 ((fun lat => { bad := vRs0_0.rsv != 0 || odd vRs0_0.d || odd vRs0_0.a || busy, v := ra, wv := (fun lat => [(vRs0_0.d.toNat, lat), (vRs0_0.d.toNat + 1, lat)]) lat }) 14) = none) && decide ((states0_0.core 5).guard guards1_0 = true)) = true) ∧
    ((Issues states0_0 5) ∧ (let busy := decide (BitVec.toNat states0_0.cyc < (states0_0.core 5).vBusy.get (b2n vRs0_0.e) 0); let ra := [vRs0_0.a.toNat, vRs0_0.a.toNat + 1]; decide (checked states0_0 5 guards1_1 ((fun lat => { bad := vRs0_0.rsv != 0 || odd vRs0_0.d || odd vRs0_0.a || busy, v := ra, wv := (fun lat => [(vRs0_0.d.toNat, lat), (vRs0_0.d.toNat + 1, lat)]) lat }) 14) = none) && decide ((states0_0.core 5).guard guards1_1 = false)) = true) ∧
    ((Issues states0_0 5) ∧ (let busy := decide (BitVec.toNat states0_0.cyc < (states0_0.core 5).vBusy.get (b2n vRs0_2.e) 0); let ra := [vRs0_2.a.toNat, vRs0_2.a.toNat + 1]; Option.any (fun cause => true) (checked states0_0 5 guards1_0 ((fun lat => { bad := vRs0_2.rsv != 0 || odd vRs0_2.d || odd vRs0_2.a || busy, v := ra, wv := (fun lat => [(vRs0_2.d.toNat, lat), (vRs0_2.d.toNat + 1, lat)]) lat }) 14))) = true) ∧
    ((Issues states0_0 5) ∧ (let busy := decide (BitVec.toNat states0_0.cyc < (states0_0.core 5).vBusy.get (b2n vRs0_0.e) 0); let ra := [vRs0_0.a.toNat, vRs0_0.a.toNat + 1]; let rb := [vRs0_0.b.toNat, vRs0_0.b.toNat + 1]; decide (checked states0_0 5 guards1_0 ((fun lat => { bad := vRs0_0.rsv != 0 || odd vRs0_0.d || odd vRs0_0.a || odd vRs0_0.b || busy, v := ra ++ rb, wv := (fun lat => [(vRs0_0.d.toNat, lat), (vRs0_0.d.toNat + 1, lat)]) lat }) 4) = none) && decide ((states0_0.core 5).guard guards1_0 = true)) = true) ∧
    ((Issues states0_0 5) ∧ (let busy := decide (BitVec.toNat states0_0.cyc < (states0_0.core 5).vBusy.get (b2n vRs0_0.e) 0); let ra := [vRs0_0.a.toNat, vRs0_0.a.toNat + 1]; let rb := [vRs0_0.b.toNat, vRs0_0.b.toNat + 1]; decide (checked states0_0 5 guards1_1 ((fun lat => { bad := vRs0_0.rsv != 0 || odd vRs0_0.d || odd vRs0_0.a || odd vRs0_0.b || busy, v := ra ++ rb, wv := (fun lat => [(vRs0_0.d.toNat, lat), (vRs0_0.d.toNat + 1, lat)]) lat }) 4) = none) && decide ((states0_0.core 5).guard guards1_1 = false)) = true) ∧
    ((Issues states0_0 5) ∧ (let busy := decide (BitVec.toNat states0_0.cyc < (states0_0.core 5).vBusy.get (b2n vRs0_2.e) 0); let ra := [vRs0_2.a.toNat, vRs0_2.a.toNat + 1]; let rb := [vRs0_2.b.toNat, vRs0_2.b.toNat + 1]; Option.any (fun cause => true) (checked states0_0 5 guards1_0 ((fun lat => { bad := vRs0_2.rsv != 0 || odd vRs0_2.d || odd vRs0_2.a || odd vRs0_2.b || busy, v := ra ++ rb, wv := (fun lat => [(vRs0_2.d.toNat, lat), (vRs0_2.d.toNat + 1, lat)]) lat }) 4))) = true) ∧
    ((Issues states0_0 5) ∧ (let busy := decide (BitVec.toNat states0_0.cyc < (states0_0.core 5).vBusy.get (b2n vRs0_0.e) 0); let ra := [vRs0_0.a.toNat, vRs0_0.a.toNat + 1]; decide (checked states0_0 5 guards1_0 ((fun lat => { bad := vRs0_0.rsv != 0 || odd vRs0_0.d || odd vRs0_0.a || busy, v := ra, wv := (fun lat => [(vRs0_0.d.toNat, lat), (vRs0_0.d.toNat + 1, lat)]) lat }) 6) = none) && decide ((states0_0.core 5).guard guards1_0 = true)) = true) ∧
    ((Issues states0_0 5) ∧ (let busy := decide (BitVec.toNat states0_0.cyc < (states0_0.core 5).vBusy.get (b2n vRs0_0.e) 0); let ra := [vRs0_0.a.toNat, vRs0_0.a.toNat + 1]; decide (checked states0_0 5 guards1_1 ((fun lat => { bad := vRs0_0.rsv != 0 || odd vRs0_0.d || odd vRs0_0.a || busy, v := ra, wv := (fun lat => [(vRs0_0.d.toNat, lat), (vRs0_0.d.toNat + 1, lat)]) lat }) 6) = none) && decide ((states0_0.core 5).guard guards1_1 = false)) = true) ∧
    ((Issues states0_0 5) ∧ (let busy := decide (BitVec.toNat states0_0.cyc < (states0_0.core 5).vBusy.get (b2n vRs0_2.e) 0); let ra := [vRs0_2.a.toNat, vRs0_2.a.toNat + 1]; Option.any (fun cause => true) (checked states0_0 5 guards1_0 ((fun lat => { bad := vRs0_2.rsv != 0 || odd vRs0_2.d || odd vRs0_2.a || busy, v := ra, wv := (fun lat => [(vRs0_2.d.toNat, lat), (vRs0_2.d.toNat + 1, lat)]) lat }) 6))) = true) := by
  refine ⟨?_, ?_, ?_, ?_, ?_, ?_, ?_, ?_, ?_, ?_, ?_, ?_, ?_, ?_, ?_⟩ <;> decide +kernel
/-- The hypotheses of Obligations.VectorFormats. -/
theorem witness_VectorFormats :
    ((Issues states0_0 5) ∧ (let busy := decide (BitVec.toNat states0_0.cyc < (states0_0.core 5).vBusy.get (b2n vRs0_0.e) 0); [(Instr.vcvtF32Bf16 5 guards1_0 vRs0_0, bf16), (Instr.vcvtF32F16 5 guards1_0 vRs0_0, f16)].any fun r => decide (checked states0_0 5 guards1_0 { bad := vRs0_0.rsv != 0 || odd vRs0_0.d || busy, v := [vRs0_0.a.toNat], wv := [(vRs0_0.d.toNat, 8), (vRs0_0.d.toNat + 1, 8)] } = none) && decide ((states0_0.core 5).guard guards1_0 = true)) = true) ∧
    ((Issues states0_0 5) ∧ (let busy := decide (BitVec.toNat states0_0.cyc < (states0_0.core 5).vBusy.get (b2n vRs0_0.e) 0); [(Instr.vcvtF32Bf16 5 guards1_1 vRs0_0, bf16), (Instr.vcvtF32F16 5 guards1_1 vRs0_0, f16)].any fun r => decide (checked states0_0 5 guards1_1 { bad := vRs0_0.rsv != 0 || odd vRs0_0.d || busy, v := [vRs0_0.a.toNat], wv := [(vRs0_0.d.toNat, 8), (vRs0_0.d.toNat + 1, 8)] } = none) && decide ((states0_0.core 5).guard guards1_1 = false)) = true) ∧
    ((Issues states0_0 5) ∧ (let busy := decide (BitVec.toNat states0_0.cyc < (states0_0.core 5).vBusy.get (b2n vRs0_2.e) 0); [(Instr.vcvtF32Bf16 5 guards1_0 vRs0_2, bf16), (Instr.vcvtF32F16 5 guards1_0 vRs0_2, f16)].any fun r => Option.any (fun cause => true) (checked states0_0 5 guards1_0 { bad := vRs0_2.rsv != 0 || odd vRs0_2.d || busy, v := [vRs0_2.a.toNat], wv := [(vRs0_2.d.toNat, 8), (vRs0_2.d.toNat + 1, 8)] })) = true) ∧
    ((Issues states0_0 5) ∧ (let busy := decide (BitVec.toNat states0_0.cyc < (states0_0.core 5).vBusy.get (b2n vRs0_0.e) 0); [(Instr.vpkBf16 5 guards1_0 vRs0_0, bf16), (Instr.vpkF16 5 guards1_0 vRs0_0, f16)].any fun r => decide (checked states0_0 5 guards1_0 { bad := vRs0_0.rsv != 0 || odd vRs0_0.a || busy, s := if vRs0_0.f = true then [vRs0_0.sr.toNat] else [], v := [vRs0_0.a.toNat, vRs0_0.a.toNat + 1], wv := [(vRs0_0.d.toNat, 8)] } = none) && decide ((states0_0.core 5).guard guards1_0 = true)) = true) ∧
    ((Issues states0_0 5) ∧ (let busy := decide (BitVec.toNat states0_0.cyc < (states0_0.core 5).vBusy.get (b2n vRs0_0.e) 0); [(Instr.vpkBf16 5 guards1_1 vRs0_0, bf16), (Instr.vpkF16 5 guards1_1 vRs0_0, f16)].any fun r => decide (checked states0_0 5 guards1_1 { bad := vRs0_0.rsv != 0 || odd vRs0_0.a || busy, s := if vRs0_0.f = true then [vRs0_0.sr.toNat] else [], v := [vRs0_0.a.toNat, vRs0_0.a.toNat + 1], wv := [(vRs0_0.d.toNat, 8)] } = none) && decide ((states0_0.core 5).guard guards1_1 = false)) = true) ∧
    ((Issues states0_0 5) ∧ (let busy := decide (BitVec.toNat states0_0.cyc < (states0_0.core 5).vBusy.get (b2n vRs0_3.e) 0); [(Instr.vpkBf16 5 guards1_0 vRs0_3, bf16), (Instr.vpkF16 5 guards1_0 vRs0_3, f16)].any fun r => Option.any (fun cause => true) (checked states0_0 5 guards1_0 { bad := vRs0_3.rsv != 0 || odd vRs0_3.a || busy, s := if vRs0_3.f = true then [vRs0_3.sr.toNat] else [], v := [vRs0_3.a.toNat, vRs0_3.a.toNat + 1], wv := [(vRs0_3.d.toNat, 8)] })) = true) ∧
    ((Issues states0_0 5) ∧ (let busy := decide (BitVec.toNat states0_0.cyc < (states0_0.core 5).vBusy.get (b2n vRs0_0.e) 0); [(Instr.vqscaleF4 5 guards1_0 vRs0_0, TFmt.f4), (Instr.vqscaleLb4 5 guards1_0 vRs0_0, TFmt.lb4), (Instr.vqscaleE2m3 5 guards1_0 vRs0_0, TFmt.e2m3), (Instr.vqscaleE3m2 5 guards1_0 vRs0_0, TFmt.e3m2), (Instr.vqscaleE4m3 5 guards1_0 vRs0_0, TFmt.e4m3), (Instr.vqscaleE5m2 5 guards1_0 vRs0_0, TFmt.e5m2)].any fun r => decide (checked states0_0 5 guards1_0 { bad := vRs0_0.rsv != 0 || busy, v := [vRs0_0.a.toNat], x := if r.snd = TFmt.lb4 then [vRs0_0.x.toNat] else [], wx := [(vRs0_0.x.toNat, 6)] } = none) && decide ((states0_0.core 5).guard guards1_0 = true)) = true) ∧
    ((Issues states0_0 5) ∧ (let busy := decide (BitVec.toNat states0_0.cyc < (states0_0.core 5).vBusy.get (b2n vRs0_0.e) 0); [(Instr.vqscaleF4 5 guards1_1 vRs0_0, TFmt.f4), (Instr.vqscaleLb4 5 guards1_1 vRs0_0, TFmt.lb4), (Instr.vqscaleE2m3 5 guards1_1 vRs0_0, TFmt.e2m3), (Instr.vqscaleE3m2 5 guards1_1 vRs0_0, TFmt.e3m2), (Instr.vqscaleE4m3 5 guards1_1 vRs0_0, TFmt.e4m3), (Instr.vqscaleE5m2 5 guards1_1 vRs0_0, TFmt.e5m2)].any fun r => decide (checked states0_0 5 guards1_1 { bad := vRs0_0.rsv != 0 || busy, v := [vRs0_0.a.toNat], x := if r.snd = TFmt.lb4 then [vRs0_0.x.toNat] else [], wx := [(vRs0_0.x.toNat, 6)] } = none) && decide ((states0_0.core 5).guard guards1_1 = false)) = true) ∧
    ((Issues states0_1 5) ∧ (let busy := decide (BitVec.toNat states0_1.cyc < (states0_1.core 5).vBusy.get (b2n vRs0_1.e) 0); [(Instr.vqscaleF4 5 guards1_0 vRs0_1, TFmt.f4), (Instr.vqscaleLb4 5 guards1_0 vRs0_1, TFmt.lb4), (Instr.vqscaleE2m3 5 guards1_0 vRs0_1, TFmt.e2m3), (Instr.vqscaleE3m2 5 guards1_0 vRs0_1, TFmt.e3m2), (Instr.vqscaleE4m3 5 guards1_0 vRs0_1, TFmt.e4m3), (Instr.vqscaleE5m2 5 guards1_0 vRs0_1, TFmt.e5m2)].any fun r => Option.any (fun cause => true) (checked states0_1 5 guards1_0 { bad := vRs0_1.rsv != 0 || busy, v := [vRs0_1.a.toNat], x := if r.snd = TFmt.lb4 then [vRs0_1.x.toNat] else [], wx := [(vRs0_1.x.toNat, 6)] })) = true) ∧
    ((Issues states0_0 5) ∧ (let busy := decide (BitVec.toNat states0_0.cyc < (states0_0.core 5).vBusy.get (b2n vRs0_0.e) 0); [(Instr.vpackF4 5 guards1_0 vRs0_0, TFmt.f4), (Instr.vpackLb4 5 guards1_0 vRs0_0, TFmt.lb4), (Instr.vpackE2m3 5 guards1_0 vRs0_0, TFmt.e2m3), (Instr.vpackE3m2 5 guards1_0 vRs0_0, TFmt.e3m2), (Instr.vpackE4m3 5 guards1_0 vRs0_0, TFmt.e4m3), (Instr.vpackE5m2 5 guards1_0 vRs0_0, TFmt.e5m2)].any fun r => decide (checked states0_0 5 guards1_0 { bad := vRs0_0.rsv != 0 || decide (2048 < 512 * vRs0_0.part.toNat + 64 * r.snd.width) || busy, s := if vRs0_0.f = true then [vRs0_0.sr.toNat] else [], v := [vRs0_0.a.toNat], x := [vRs0_0.x.toNat], wv := [(vRs0_0.d.toNat, 6)] } = none) && decide ((states0_0.core 5).guard guards1_0 = true)) = true) ∧
    ((Issues states0_0 5) ∧ (let busy := decide (BitVec.toNat states0_0.cyc < (states0_0.core 5).vBusy.get (b2n vRs0_0.e) 0); [(Instr.vpackF4 5 guards1_1 vRs0_0, TFmt.f4), (Instr.vpackLb4 5 guards1_1 vRs0_0, TFmt.lb4), (Instr.vpackE2m3 5 guards1_1 vRs0_0, TFmt.e2m3), (Instr.vpackE3m2 5 guards1_1 vRs0_0, TFmt.e3m2), (Instr.vpackE4m3 5 guards1_1 vRs0_0, TFmt.e4m3), (Instr.vpackE5m2 5 guards1_1 vRs0_0, TFmt.e5m2)].any fun r => decide (checked states0_0 5 guards1_1 { bad := vRs0_0.rsv != 0 || decide (2048 < 512 * vRs0_0.part.toNat + 64 * r.snd.width) || busy, s := if vRs0_0.f = true then [vRs0_0.sr.toNat] else [], v := [vRs0_0.a.toNat], x := [vRs0_0.x.toNat], wv := [(vRs0_0.d.toNat, 6)] } = none) && decide ((states0_0.core 5).guard guards1_1 = false)) = true) ∧
    ((Issues states0_1 5) ∧ (let busy := decide (BitVec.toNat states0_1.cyc < (states0_1.core 5).vBusy.get (b2n vRs0_1.e) 0); [(Instr.vpackF4 5 guards1_0 vRs0_1, TFmt.f4), (Instr.vpackLb4 5 guards1_0 vRs0_1, TFmt.lb4), (Instr.vpackE2m3 5 guards1_0 vRs0_1, TFmt.e2m3), (Instr.vpackE3m2 5 guards1_0 vRs0_1, TFmt.e3m2), (Instr.vpackE4m3 5 guards1_0 vRs0_1, TFmt.e4m3), (Instr.vpackE5m2 5 guards1_0 vRs0_1, TFmt.e5m2)].any fun r => Option.any (fun cause => true) (checked states0_1 5 guards1_0 { bad := vRs0_1.rsv != 0 || decide (2048 < 512 * vRs0_1.part.toNat + 64 * r.snd.width) || busy, s := if vRs0_1.f = true then [vRs0_1.sr.toNat] else [], v := [vRs0_1.a.toNat], x := [vRs0_1.x.toNat], wv := [(vRs0_1.d.toNat, 6)] })) = true) ∧
    ((Issues states0_0 5) ∧ (let busy := decide (BitVec.toNat states0_0.cyc < (states0_0.core 5).vBusy.get (b2n vRs0_0.e) 0); [(Instr.vunpkF4 5 guards1_0 vRs0_0, TFmt.f4), (Instr.vunpkLb4 5 guards1_0 vRs0_0, TFmt.lb4), (Instr.vunpkE2m3 5 guards1_0 vRs0_0, TFmt.e2m3), (Instr.vunpkE3m2 5 guards1_0 vRs0_0, TFmt.e3m2), (Instr.vunpkE4m3 5 guards1_0 vRs0_0, TFmt.e4m3), (Instr.vunpkE5m2 5 guards1_0 vRs0_0, TFmt.e5m2)].any fun r => decide (checked states0_0 5 guards1_0 { bad := vRs0_0.rsv != 0 || decide (2048 < 512 * vRs0_0.part.toNat + 64 * r.snd.width) || busy, v := [vRs0_0.a.toNat], x := [vRs0_0.x.toNat], wv := [(vRs0_0.d.toNat, 6)] } = none) && decide ((states0_0.core 5).guard guards1_0 = true)) = true) ∧
    ((Issues states0_0 5) ∧ (let busy := decide (BitVec.toNat states0_0.cyc < (states0_0.core 5).vBusy.get (b2n vRs0_0.e) 0); [(Instr.vunpkF4 5 guards1_1 vRs0_0, TFmt.f4), (Instr.vunpkLb4 5 guards1_1 vRs0_0, TFmt.lb4), (Instr.vunpkE2m3 5 guards1_1 vRs0_0, TFmt.e2m3), (Instr.vunpkE3m2 5 guards1_1 vRs0_0, TFmt.e3m2), (Instr.vunpkE4m3 5 guards1_1 vRs0_0, TFmt.e4m3), (Instr.vunpkE5m2 5 guards1_1 vRs0_0, TFmt.e5m2)].any fun r => decide (checked states0_0 5 guards1_1 { bad := vRs0_0.rsv != 0 || decide (2048 < 512 * vRs0_0.part.toNat + 64 * r.snd.width) || busy, v := [vRs0_0.a.toNat], x := [vRs0_0.x.toNat], wv := [(vRs0_0.d.toNat, 6)] } = none) && decide ((states0_0.core 5).guard guards1_1 = false)) = true) ∧
    ((Issues states0_1 5) ∧ (let busy := decide (BitVec.toNat states0_1.cyc < (states0_1.core 5).vBusy.get (b2n vRs0_1.e) 0); [(Instr.vunpkF4 5 guards1_0 vRs0_1, TFmt.f4), (Instr.vunpkLb4 5 guards1_0 vRs0_1, TFmt.lb4), (Instr.vunpkE2m3 5 guards1_0 vRs0_1, TFmt.e2m3), (Instr.vunpkE3m2 5 guards1_0 vRs0_1, TFmt.e3m2), (Instr.vunpkE4m3 5 guards1_0 vRs0_1, TFmt.e4m3), (Instr.vunpkE5m2 5 guards1_0 vRs0_1, TFmt.e5m2)].any fun r => Option.any (fun cause => true) (checked states0_1 5 guards1_0 { bad := vRs0_1.rsv != 0 || decide (2048 < 512 * vRs0_1.part.toNat + 64 * r.snd.width) || busy, v := [vRs0_1.a.toNat], x := [vRs0_1.x.toNat], wv := [(vRs0_1.d.toNat, 6)] })) = true) := by
  refine ⟨?_, ?_, ?_, ?_, ?_, ?_, ?_, ?_, ?_, ?_, ?_, ?_, ?_, ?_, ?_⟩ <;> decide +kernel
/-- The hypotheses of Obligations.VectorMoves. -/
theorem witness_VectorMoves :
    ((Issues states1_0 5) ∧ (checked states1_0 5 guards1_0 { bad := 0#52 != 0 } = none) ∧ ((states1_0.core 5).guard guards1_0 = true)) ∧
    ((Issues states1_0 5) ∧ (checked states1_0 5 guards1_1 { bad := 0#52 != 0 } = none) ∧ ((states1_0.core 5).guard guards1_1 = false)) ∧
    ((Issues states1_0 5) ∧ (Option.any (fun cause => true) (checked states1_0 5 guards1_0 { bad := 3#52 != 0 })) = true) ∧
    ((Issues states1_0 5) ∧ (let at' := BitVec.toNat ((states1_0.core 5).sreg vMs0_0.ar.toNat + BitVec.ofNat 64 vMs0_0.loff.toNat); let ls := List.map (fun i => (at' + i) % 2 ^ 64) (upto (vMs0_0.nm1.toNat + 1)); let bad := vMs0_0.rsv != 0 || decide (31 < vMs0_0.g.toNat + vMs0_0.nm1.toNat); decide (checked states1_0 5 guards1_0 { bad := bad || (fun e => decide (BitVec.toNat states1_0.cyc < (states1_0.core 5).vBusy.get (b2n e) 0)) vMs0_0.e, s := [vMs0_0.ar.toNat], wv := [(vMs0_0.d.toNat, 6)], lines := ls } = none) && decide ((states1_0.core 5).guard guards1_0 = true)) = true) ∧
    ((Issues states1_0 5) ∧ (let at' := BitVec.toNat ((states1_0.core 5).sreg vMs0_0.ar.toNat + BitVec.ofNat 64 vMs0_0.loff.toNat); let ls := List.map (fun i => (at' + i) % 2 ^ 64) (upto (vMs0_0.nm1.toNat + 1)); let bad := vMs0_0.rsv != 0 || decide (31 < vMs0_0.g.toNat + vMs0_0.nm1.toNat); decide (checked states1_0 5 guards1_1 { bad := bad || (fun e => decide (BitVec.toNat states1_0.cyc < (states1_0.core 5).vBusy.get (b2n e) 0)) vMs0_0.e, s := [vMs0_0.ar.toNat], wv := [(vMs0_0.d.toNat, 6)], lines := ls } = none) && decide ((states1_0.core 5).guard guards1_1 = false)) = true) ∧
    ((Issues states1_0 5) ∧ (let at' := BitVec.toNat ((states1_0.core 5).sreg vMs0_2.ar.toNat + BitVec.ofNat 64 vMs0_2.loff.toNat); let ls := List.map (fun i => (at' + i) % 2 ^ 64) (upto (vMs0_2.nm1.toNat + 1)); let bad := vMs0_2.rsv != 0 || decide (31 < vMs0_2.g.toNat + vMs0_2.nm1.toNat); Option.any (fun cause => true) (checked states1_0 5 guards1_0 { bad := bad || (fun e => decide (BitVec.toNat states1_0.cyc < (states1_0.core 5).vBusy.get (b2n e) 0)) vMs0_2.e, s := [vMs0_2.ar.toNat], wv := [(vMs0_2.d.toNat, 6)], lines := ls })) = true) ∧
    ((Issues states1_0 5) ∧ (let at' := BitVec.toNat ((states1_0.core 5).sreg vMs0_0.ar.toNat + BitVec.ofNat 64 vMs0_0.loff.toNat); let ls := List.map (fun i => (at' + i) % 2 ^ 64) (upto (vMs0_0.nm1.toNat + 1)); let bad := vMs0_0.rsv != 0 || decide (31 < vMs0_0.g.toNat + vMs0_0.nm1.toNat); decide (checked states1_0 5 guards1_0 { bad := bad || (fun e => decide (BitVec.toNat states1_0.cyc < (states1_0.core 5).vBusy.get (b2n e) 0)) vMs0_0.e, s := [vMs0_0.ar.toNat], v := [vMs0_0.d.toNat], lines := ls } = none) && decide ((states1_0.core 5).guard guards1_0 = true)) = true) ∧
    ((Issues states1_0 5) ∧ (let at' := BitVec.toNat ((states1_0.core 5).sreg vMs0_0.ar.toNat + BitVec.ofNat 64 vMs0_0.loff.toNat); let ls := List.map (fun i => (at' + i) % 2 ^ 64) (upto (vMs0_0.nm1.toNat + 1)); let bad := vMs0_0.rsv != 0 || decide (31 < vMs0_0.g.toNat + vMs0_0.nm1.toNat); decide (checked states1_0 5 guards1_1 { bad := bad || (fun e => decide (BitVec.toNat states1_0.cyc < (states1_0.core 5).vBusy.get (b2n e) 0)) vMs0_0.e, s := [vMs0_0.ar.toNat], v := [vMs0_0.d.toNat], lines := ls } = none) && decide ((states1_0.core 5).guard guards1_1 = false)) = true) ∧
    ((Issues states1_0 5) ∧ (let at' := BitVec.toNat ((states1_0.core 5).sreg vMs0_2.ar.toNat + BitVec.ofNat 64 vMs0_2.loff.toNat); let ls := List.map (fun i => (at' + i) % 2 ^ 64) (upto (vMs0_2.nm1.toNat + 1)); let bad := vMs0_2.rsv != 0 || decide (31 < vMs0_2.g.toNat + vMs0_2.nm1.toNat); Option.any (fun cause => true) (checked states1_0 5 guards1_0 { bad := bad || (fun e => decide (BitVec.toNat states1_0.cyc < (states1_0.core 5).vBusy.get (b2n e) 0)) vMs0_2.e, s := [vMs0_2.ar.toNat], v := [vMs0_2.d.toNat], lines := ls })) = true) ∧
    ((Issues states1_0 5) ∧ (let at' := BitVec.toNat ((states1_0.core 5).sreg vMs0_0.ar.toNat + BitVec.ofNat 64 vMs0_0.loff.toNat); let bad := vMs0_0.rsv != 0 || decide (31 < vMs0_0.g.toNat + vMs0_0.nm1.toNat); let badX := bad || decide (15 < vMs0_0.d.toNat); decide (checked states1_0 5 guards1_0 { bad := badX || (fun e => decide (BitVec.toNat states1_0.cyc < (states1_0.core 5).vBusy.get (b2n e) 0)) vMs0_0.e, s := [vMs0_0.ar.toNat], wx := [(vMs0_0.d.toNat, 6)], lines := [at'] } = none) && decide ((states1_0.core 5).guard guards1_0 = true)) = true) ∧
    ((Issues states1_0 5) ∧ (let at' := BitVec.toNat ((states1_0.core 5).sreg vMs0_0.ar.toNat + BitVec.ofNat 64 vMs0_0.loff.toNat); let bad := vMs0_0.rsv != 0 || decide (31 < vMs0_0.g.toNat + vMs0_0.nm1.toNat); let badX := bad || decide (15 < vMs0_0.d.toNat); decide (checked states1_0 5 guards1_1 { bad := badX || (fun e => decide (BitVec.toNat states1_0.cyc < (states1_0.core 5).vBusy.get (b2n e) 0)) vMs0_0.e, s := [vMs0_0.ar.toNat], wx := [(vMs0_0.d.toNat, 6)], lines := [at'] } = none) && decide ((states1_0.core 5).guard guards1_1 = false)) = true) ∧
    ((Issues states1_0 5) ∧ (let at' := BitVec.toNat ((states1_0.core 5).sreg vMs0_2.ar.toNat + BitVec.ofNat 64 vMs0_2.loff.toNat); let bad := vMs0_2.rsv != 0 || decide (31 < vMs0_2.g.toNat + vMs0_2.nm1.toNat); let badX := bad || decide (15 < vMs0_2.d.toNat); Option.any (fun cause => true) (checked states1_0 5 guards1_0 { bad := badX || (fun e => decide (BitVec.toNat states1_0.cyc < (states1_0.core 5).vBusy.get (b2n e) 0)) vMs0_2.e, s := [vMs0_2.ar.toNat], wx := [(vMs0_2.d.toNat, 6)], lines := [at'] })) = true) ∧
    ((Issues states1_0 5) ∧ (let at' := BitVec.toNat ((states1_0.core 5).sreg vMs0_0.ar.toNat + BitVec.ofNat 64 vMs0_0.loff.toNat); let bad := vMs0_0.rsv != 0 || decide (31 < vMs0_0.g.toNat + vMs0_0.nm1.toNat); let badX := bad || decide (15 < vMs0_0.d.toNat); decide (checked states1_0 5 guards1_0 { bad := badX || (fun e => decide (BitVec.toNat states1_0.cyc < (states1_0.core 5).vBusy.get (b2n e) 0)) vMs0_0.e, s := [vMs0_0.ar.toNat], x := [vMs0_0.d.toNat], lines := [at'] } = none) && decide ((states1_0.core 5).guard guards1_0 = true)) = true) ∧
    ((Issues states1_0 5) ∧ (let at' := BitVec.toNat ((states1_0.core 5).sreg vMs0_0.ar.toNat + BitVec.ofNat 64 vMs0_0.loff.toNat); let bad := vMs0_0.rsv != 0 || decide (31 < vMs0_0.g.toNat + vMs0_0.nm1.toNat); let badX := bad || decide (15 < vMs0_0.d.toNat); decide (checked states1_0 5 guards1_1 { bad := badX || (fun e => decide (BitVec.toNat states1_0.cyc < (states1_0.core 5).vBusy.get (b2n e) 0)) vMs0_0.e, s := [vMs0_0.ar.toNat], x := [vMs0_0.d.toNat], lines := [at'] } = none) && decide ((states1_0.core 5).guard guards1_1 = false)) = true) ∧
    ((Issues states1_0 5) ∧ (let at' := BitVec.toNat ((states1_0.core 5).sreg vMs0_2.ar.toNat + BitVec.ofNat 64 vMs0_2.loff.toNat); let bad := vMs0_2.rsv != 0 || decide (31 < vMs0_2.g.toNat + vMs0_2.nm1.toNat); let badX := bad || decide (15 < vMs0_2.d.toNat); Option.any (fun cause => true) (checked states1_0 5 guards1_0 { bad := badX || (fun e => decide (BitVec.toNat states1_0.cyc < (states1_0.core 5).vBusy.get (b2n e) 0)) vMs0_2.e, s := [vMs0_2.ar.toNat], x := [vMs0_2.d.toNat], lines := [at'] })) = true) ∧
    ((Issues states1_0 5) ∧ (0 < [[1, 2], [3, 4]].length)) ∧
    ((Issues states1_0 5) ∧ (5 < 5 ∨ 5 + ([] : List Nat).length ≤ 5)) ∧
    ((Issues states1_0 5) ∧ (checked states1_0 5 guards1_0 { bad := vSs0_0.rsv != 0 || decide (1 < vSs0_0.field.toNat) || (fun e => decide (BitVec.toNat states1_0.cyc < (states1_0.core 5).vBusy.get (b2n e) 0)) vSs0_0.e, s := [vSs0_0.s.toNat], wx := [(vSs0_0.xd.toNat, 2)] } = none) ∧ ((states1_0.core 5).guard guards1_0 = true)) ∧
    ((Issues states1_0 5) ∧ (checked states1_0 5 guards1_1 { bad := vSs0_0.rsv != 0 || decide (1 < vSs0_0.field.toNat) || (fun e => decide (BitVec.toNat states1_0.cyc < (states1_0.core 5).vBusy.get (b2n e) 0)) vSs0_0.e, s := [vSs0_0.s.toNat], wx := [(vSs0_0.xd.toNat, 2)] } = none) ∧ ((states1_0.core 5).guard guards1_1 = false)) ∧
    ((Issues states1_0 5) ∧ (Option.any (fun cause => true) (checked states1_0 5 guards1_0 { bad := vSs0_2.rsv != 0 || decide (1 < vSs0_2.field.toNat) || (fun e => decide (BitVec.toNat states1_0.cyc < (states1_0.core 5).vBusy.get (b2n e) 0)) vSs0_2.e, s := [vSs0_2.s.toNat], wx := [(vSs0_2.xd.toNat, 2)] })) = true) ∧
    ((Issues states1_0 5) ∧ (checked states1_0 5 guards1_0 { bad := vSs0_0.rsv != 0 || (fun e => decide (BitVec.toNat states1_0.cyc < (states1_0.core 5).vBusy.get (b2n e) 0)) vSs0_0.e, s := [vSs0_0.s.toNat], wv := [(vSs0_0.v.toNat, 2)] } = none) ∧ ((states1_0.core 5).guard guards1_0 = true)) ∧
    ((Issues states1_0 5) ∧ (checked states1_0 5 guards1_1 { bad := vSs0_0.rsv != 0 || (fun e => decide (BitVec.toNat states1_0.cyc < (states1_0.core 5).vBusy.get (b2n e) 0)) vSs0_0.e, s := [vSs0_0.s.toNat], wv := [(vSs0_0.v.toNat, 2)] } = none) ∧ ((states1_0.core 5).guard guards1_1 = false)) ∧
    ((Issues states1_1 5) ∧ (Option.any (fun cause => true) (checked states1_1 5 guards1_0 { bad := vSs0_1.rsv != 0 || (fun e => decide (BitVec.toNat states1_1.cyc < (states1_1.core 5).vBusy.get (b2n e) 0)) vSs0_1.e, s := [vSs0_1.s.toNat], wv := [(vSs0_1.v.toNat, 2)] })) = true) ∧
    ((Issues states1_0 5) ∧ (checked states1_0 5 guards1_0 { bad := vSs0_0.rsv != 0 || vSs0_0.lane.getLsbD 0 || vSs0_0.lane.getLsbD 9 || (fun e => decide (BitVec.toNat states1_0.cyc < (states1_0.core 5).vBusy.get (b2n e) 0)) vSs0_0.e, v := [vSs0_0.v.toNat], ws := [(vSs0_0.s.toNat, 3)] } = none) ∧ ((states1_0.core 5).guard guards1_0 = true)) ∧
    ((Issues states1_0 5) ∧ (checked states1_0 5 guards1_1 { bad := vSs0_0.rsv != 0 || vSs0_0.lane.getLsbD 0 || vSs0_0.lane.getLsbD 9 || (fun e => decide (BitVec.toNat states1_0.cyc < (states1_0.core 5).vBusy.get (b2n e) 0)) vSs0_0.e, v := [vSs0_0.v.toNat], ws := [(vSs0_0.s.toNat, 3)] } = none) ∧ ((states1_0.core 5).guard guards1_1 = false)) ∧
    ((Issues states1_0 5) ∧ (Option.any (fun cause => true) (checked states1_0 5 guards1_0 { bad := vSs0_2.rsv != 0 || vSs0_2.lane.getLsbD 0 || vSs0_2.lane.getLsbD 9 || (fun e => decide (BitVec.toNat states1_0.cyc < (states1_0.core 5).vBusy.get (b2n e) 0)) vSs0_2.e, v := [vSs0_2.v.toNat], ws := [(vSs0_2.s.toNat, 3)] })) = true) ∧
    ((Issues states1_0 5) ∧ (checked states1_0 5 guards1_0 { bad := vRs1_0.rsv != 0 || decide (7 < vRs1_0.part.toNat) || (fun e => decide (BitVec.toNat states1_0.cyc < (states1_0.core 5).vBusy.get (b2n e) 0)) vRs1_0.e, x := if vRs1_0.f = true then [vRs1_0.x.toNat] else [], acc := [vRs1_0.a.toNat % 16], wv := [(vRs1_0.d.toNat, 6)], other := if (states1_0.core 5).takenPair (vRs1_0.a.toNat % 16) = true then some Cause'.accmode else none } = none) ∧ ((states1_0.core 5).guard guards1_0 = true)) ∧
    ((Issues states1_0 5) ∧ (checked states1_0 5 guards1_1 { bad := vRs1_0.rsv != 0 || decide (7 < vRs1_0.part.toNat) || (fun e => decide (BitVec.toNat states1_0.cyc < (states1_0.core 5).vBusy.get (b2n e) 0)) vRs1_0.e, x := if vRs1_0.f = true then [vRs1_0.x.toNat] else [], acc := [vRs1_0.a.toNat % 16], wv := [(vRs1_0.d.toNat, 6)], other := if (states1_0.core 5).takenPair (vRs1_0.a.toNat % 16) = true then some Cause'.accmode else none } = none) ∧ ((states1_0.core 5).guard guards1_1 = false)) ∧
    ((Issues states1_1 5) ∧ (Option.any (fun cause => true) (checked states1_1 5 guards1_0 { bad := vRs1_1.rsv != 0 || decide (7 < vRs1_1.part.toNat) || (fun e => decide (BitVec.toNat states1_1.cyc < (states1_1.core 5).vBusy.get (b2n e) 0)) vRs1_1.e, x := if vRs1_1.f = true then [vRs1_1.x.toNat] else [], acc := [vRs1_1.a.toNat % 16], wv := [(vRs1_1.d.toNat, 6)], other := if (states1_1.core 5).takenPair (vRs1_1.a.toNat % 16) = true then some Cause'.accmode else none })) = true) ∧
    ((Issues states1_1 5) ∧ (checked states1_1 5 guards1_0 { bad := vRs1_0.rsv != 0 || (fun e => decide (BitVec.toNat states1_1.cyc < (states1_1.core 5).vBusy.get (b2n e) 0)) vRs1_0.e, acc := [vRs1_0.a.toNat % 16], wv := [(vRs1_0.d.toNat, 6)], other := if (!((states1_1.core 5).tile (vRs1_0.a.toNat % 16)).free || (states1_1.core 5).takenPair (vRs1_0.a.toNat % 16)) = true then some Cause'.accmode else none } = none) ∧ ((states1_1.core 5).guard guards1_0 = true)) ∧
    ((Issues states1_0 5) ∧ (checked states1_0 5 guards1_1 { bad := vRs1_0.rsv != 0 || (fun e => decide (BitVec.toNat states1_0.cyc < (states1_0.core 5).vBusy.get (b2n e) 0)) vRs1_0.e, acc := [vRs1_0.a.toNat % 16], wv := [(vRs1_0.d.toNat, 6)], other := if (!((states1_0.core 5).tile (vRs1_0.a.toNat % 16)).free || (states1_0.core 5).takenPair (vRs1_0.a.toNat % 16)) = true then some Cause'.accmode else none } = none) ∧ ((states1_0.core 5).guard guards1_1 = false)) ∧
    ((Issues states1_0 5) ∧ (Option.any (fun cause => true) (checked states1_0 5 guards1_0 { bad := vRs1_0.rsv != 0 || (fun e => decide (BitVec.toNat states1_0.cyc < (states1_0.core 5).vBusy.get (b2n e) 0)) vRs1_0.e, acc := [vRs1_0.a.toNat % 16], wv := [(vRs1_0.d.toNat, 6)], other := if (!((states1_0.core 5).tile (vRs1_0.a.toNat % 16)).free || (states1_0.core 5).takenPair (vRs1_0.a.toNat % 16)) = true then some Cause'.accmode else none })) = true) := by
  refine ⟨?_, ?_, ?_, ?_, ?_, ?_, ?_, ?_, ?_, ?_, ?_, ?_, ?_, ?_, ?_, ?_, ?_, ?_, ?_, ?_, ?_, ?_, ?_, ?_, ?_, ?_, ?_, ?_, ?_, ?_, ?_, ?_⟩ <;> decide +kernel
end Vector

namespace Tensor
def pg : Prog := {id := 4, k := 1, q := 2, seq := 5, ncore := 1, static := false, placed := none, sealed_ := false, repro := false, paddr := 0x1000, aadr := 77, step := 5, seed := 9, running := true, t0 := some 30, cores := [5]}
def x0 : Core := {st := .run, prog := some 4, level := 64, banks := [(999,3),(1000,4)], s := [(3, 2^64 - 5), (6, 1), (7, 0x123456789)], p := 9, seed := 7 + 2^64*9, step := 2^64-1, v := [(3, List.replicate 512 0x3f800000)]}
def st (x : Core) : State := {upS with cyc := 1000, time := 9000*77, isl := {upS.isl with cores := [(5, x)], progs := [pg]}}
def tMs0 : List TM := [⟨0,false,1,false,3,1,true,2,true,6,1,0⟩, ⟨2,false,1,false,3,1,false,2,true,6,1,0⟩, ⟨2,true,1,false,3,1,false,2,true,6,1,0⟩, ⟨1,true,1,true,3,1,false,2,true,6,1,0⟩, ⟨0,false,1,false,3,1,true,2,true,6,1,1⟩, ⟨6,false,1,false,3,1,true,2,true,6,1,0⟩]
def tCs0 : List TC := [⟨1,2,true,3,0⟩, ⟨1,1,false,3,0⟩, ⟨1,1,false,3,2⟩]
def tAs0 : List TA := [⟨1,2,3,3,0⟩, ⟨1,1,4,3,0⟩]
def vs : Tbl (List W32) := [(3, (List.range 512).map fun i => BitVec.ofNat 32 (0x3f800000 + i * 12345)), (4, (List.range 512).map fun i => BitVec.ofNat 32 (0x40800000 + i * 12345))]
def x1 : Core := {x0 with v := vs, x := [(3, 0x7f7e7d7c + 0x3f800000 * 2^256)], s := [(3, 7), (6, 60)], latch := [(2, (List.range 2112).map fun i => BitVec.ofNat 8 i), (3,List.replicate 1152 0x35)], spad := (List.range 40).map (fun l => (7 + l, (List.range 64).map fun i => BitVec.ofNat 8 (i * l + 5))), acc := [(5, {n := [(3, 0x40000000)]}), (6, {free := true, eb := -3})]}
def states0 : List State := [st x1]
def guards1 : List Guard := [{}, {pidx := 2}]
def guards1_0 : Guard := guards1[0]'(by decide +kernel)
def guards1_1 : Guard := guards1[1]'(by decide +kernel)
def states0_0 : State := states0[0]'(by decide +kernel)
def tAs0_0 : TA := tAs0[0]'(by decide +kernel)
def tAs0_1 : TA := tAs0[1]'(by decide +kernel)
def tCs0_0 : TC := tCs0[0]'(by decide +kernel)
def tCs0_2 : TC := tCs0[2]'(by decide +kernel)
def tMs0_0 : TM := tMs0[0]'(by decide +kernel)
def tMs0_3 : TM := tMs0[3]'(by decide +kernel)
/-- The hypotheses of Obligations.TensorSlot. -/
theorem witness_TensorSlot :
    ((Issues states0_0 5) ∧ (let u := { bad := 0#52 != 0 }; decide (checked states0_0 5 guards1_0 u = none) && decide ((states0_0.core 5).guard guards1_0 = true)) = true) ∧
    ((Issues states0_0 5) ∧ (let u := { bad := 0#52 != 0 }; decide (checked states0_0 5 guards1_1 u = none) && decide ((states0_0.core 5).guard guards1_1 = false)) = true) ∧
    ((Issues states0_0 5) ∧ (let u := { bad := 3#52 != 0 }; Option.any (fun cause => true) (checked states0_0 5 guards1_0 u)) = true) ∧
    ((Issues states0_0 5) ∧ ([(Instr.tmmaF4 5 guards1_0 tMs0_0, TFmt.f4), (Instr.tmmaLb4 5 guards1_0 tMs0_0, TFmt.lb4), (Instr.tmmaE2m3 5 guards1_0 tMs0_0, TFmt.e2m3), (Instr.tmmaE3m2 5 guards1_0 tMs0_0, TFmt.e3m2), (Instr.tmmaE4m3 5 guards1_0 tMs0_0, TFmt.e4m3), (Instr.tmmaE5m2 5 guards1_0 tMs0_0, TFmt.e5m2), (Instr.tmmaBf16 5 guards1_0 tMs0_0, TFmt.bf16), (Instr.tmmaF16 5 guards1_0 tMs0_0, TFmt.f16)].any fun r => decide (checked states0_0 5 guards1_0 (usesTM r.snd tMs0_0 (BitVec.toNat states0_0.cyc) (states0_0.core 5)) = none) && decide ((states0_0.core 5).guard guards1_0 = true)) = true) ∧
    ((Issues states0_0 5) ∧ ([(Instr.tmmaF4 5 guards1_1 tMs0_0, TFmt.f4), (Instr.tmmaLb4 5 guards1_1 tMs0_0, TFmt.lb4), (Instr.tmmaE2m3 5 guards1_1 tMs0_0, TFmt.e2m3), (Instr.tmmaE3m2 5 guards1_1 tMs0_0, TFmt.e3m2), (Instr.tmmaE4m3 5 guards1_1 tMs0_0, TFmt.e4m3), (Instr.tmmaE5m2 5 guards1_1 tMs0_0, TFmt.e5m2), (Instr.tmmaBf16 5 guards1_1 tMs0_0, TFmt.bf16), (Instr.tmmaF16 5 guards1_1 tMs0_0, TFmt.f16)].any fun r => decide (checked states0_0 5 guards1_1 (usesTM r.snd tMs0_0 (BitVec.toNat states0_0.cyc) (states0_0.core 5)) = none) && decide ((states0_0.core 5).guard guards1_1 = false)) = true) ∧
    ((Issues states0_0 5) ∧ ([(Instr.tmmaF4 5 guards1_0 tMs0_3, TFmt.f4), (Instr.tmmaLb4 5 guards1_0 tMs0_3, TFmt.lb4), (Instr.tmmaE2m3 5 guards1_0 tMs0_3, TFmt.e2m3), (Instr.tmmaE3m2 5 guards1_0 tMs0_3, TFmt.e3m2), (Instr.tmmaE4m3 5 guards1_0 tMs0_3, TFmt.e4m3), (Instr.tmmaE5m2 5 guards1_0 tMs0_3, TFmt.e5m2), (Instr.tmmaBf16 5 guards1_0 tMs0_3, TFmt.bf16), (Instr.tmmaF16 5 guards1_0 tMs0_3, TFmt.f16)].any fun r => Option.any (fun cause => true) (checked states0_0 5 guards1_0 (usesTM r.snd tMs0_3 (BitVec.toNat states0_0.cyc) (states0_0.core 5)))) = true) ∧
    ((Issues states0_0 5) ∧ (checked states0_0 5 guards1_0 (usesTC tCs0_0 (BitVec.toNat states0_0.cyc) (states0_0.core 5)) = none) ∧ ((states0_0.core 5).guard guards1_0 = true)) ∧
    ((Issues states0_0 5) ∧ (checked states0_0 5 guards1_1 (usesTC tCs0_0 (BitVec.toNat states0_0.cyc) (states0_0.core 5)) = none) ∧ ((states0_0.core 5).guard guards1_1 = false)) ∧
    ((Issues states0_0 5) ∧ (Option.any (fun cause => true) (checked states0_0 5 guards1_0 (usesTC tCs0_2 (BitVec.toNat states0_0.cyc) (states0_0.core 5)))) = true) ∧
    ((Issues states0_0 5) ∧ (checked states0_0 5 guards1_0 (usesTA tAs0_0 (BitVec.toNat states0_0.cyc) (states0_0.core 5)) = none) ∧ ((states0_0.core 5).guard guards1_0 = true)) ∧
    ((Issues states0_0 5) ∧ (checked states0_0 5 guards1_1 (usesTA tAs0_0 (BitVec.toNat states0_0.cyc) (states0_0.core 5)) = none) ∧ ((states0_0.core 5).guard guards1_1 = false)) ∧
    ((Issues states0_0 5) ∧ (Option.any (fun cause => true) (checked states0_0 5 guards1_0 (usesTA tAs0_1 (BitVec.toNat states0_0.cyc) (states0_0.core 5)))) = true) := by
  refine ⟨?_, ?_, ?_, ?_, ?_, ?_, ?_, ?_, ?_, ?_, ?_, ?_⟩ <;> decide +kernel
end Tensor

namespace Move
def kn : Kennel := {st := .open, ktag := 7, feat := BitVec.allOnes 64, wh := [(3,9)], nWh := 8, root := some 0, key := some 3, rankN := 2, ranks := [(1,0x10009)]}
def pg : Prog := {id := 4, k := 1, q := 2, seq := 5, ncore := 2, static := false, placed := none, sealed_ := false, repro := false, paddr := 0x1000, aadr := 77, step := 5, seed := 9, running := true, t0 := some 999, cores := [5,7]}
def x0 : Core := {st := .run, prog := some 4, level := 64, s := [(3, 64), (6, 1), (7, 1), (8,3)], m := [(3,2)], v := [(3, List.replicate 512 0x3f800000)]}
def st (p : Prog) (x : Core) : State := {upS with cyc := 1000, time := 9000*77, pool := {mem := tbls [(0,3+256*5)]}, knl := [(1, kn)], isl := {upS.isl with cores := [(5, x), (7, {st := .run, prog := some 4, lidx := 1})], progs := [p]}}
def pgs := [pg, {pg with repro := true}, {pg with sealed_ := true}, {pg with static := true}]
def guards0 : List Guard := [{}, {pidx := 2}]
def mDs0 : List MD := [⟨3,3,6,7,false,0,false,0⟩, ⟨3,3,6,7,true,7,true,0⟩, ⟨3,3,6,0,true,7,true,0⟩, ⟨3,6,6,7,false,0,false,0⟩]
def mAs0 : List MA := [⟨3,3,6,7,false,0,2,3,0⟩, ⟨3,3,6,7,true,7,3,3,0⟩,⟨3,3,6,7,false,0,2,3,1⟩]
def mSs0 : List MS := [⟨3,21,true,3,6,3,0⟩,⟨3,200,true,3,6,3,0⟩,⟨3,97,true,3,6,3,0⟩]
def mWs0 : List MW := [⟨3,3,false,3,3,0⟩, ⟨3,6,false,3,3,0⟩, ⟨9,6,false,3,3,0⟩,⟨9,6,false,3,3,1⟩]
def mPs0 : List MP := [⟨3,6,3,0⟩, ⟨3,6,3,1⟩]
def mNs0 : List MN := [⟨1,3,2,3,5,0⟩]
def states0 : List State := (pgs.map fun p => st p x0) ++ (pgs.map fun p => {st p {x0 with s := (8,4)::x0.s, m := [(3,200)]} with isl := {(st p x0).isl with cores := [(0, {x0 with moves := []}), (5, {x0 with s := [(3,1),(6,64)]}), (7, {st := .run, prog := some 4, lidx := 1})]}})
def guards0_0 : Guard := guards0[0]'(by decide +kernel)
def guards0_1 : Guard := guards0[1]'(by decide +kernel)
def mAs0_0 : MA := mAs0[0]'(by decide +kernel)
def mAs0_2 : MA := mAs0[2]'(by decide +kernel)
def mDs0_0 : MD := mDs0[0]'(by decide +kernel)
def mDs0_2 : MD := mDs0[2]'(by decide +kernel)
def mNs0_0 : MN := mNs0[0]'(by decide +kernel)
def mPs0_0 : MP := mPs0[0]'(by decide +kernel)
def mPs0_1 : MP := mPs0[1]'(by decide +kernel)
def mSs0_0 : MS := mSs0[0]'(by decide +kernel)
def mWs0_0 : MW := mWs0[0]'(by decide +kernel)
def mWs0_2 : MW := mWs0[2]'(by decide +kernel)
def mWs0_3 : MW := mWs0[3]'(by decide +kernel)
def states0_0 : State := states0[0]'(by decide +kernel)
def states0_1 : State := states0[1]'(by decide +kernel)
def states0_2 : State := states0[2]'(by decide +kernel)
def states0_3 : State := states0[3]'(by decide +kernel)
/-- The hypotheses of Obligations.MoveSlot. -/
theorem witness_MoveSlot :
    ((Issues states0_0 5) ∧ (Option.any (fun p => decide ((states0_0.core 5).prog = some p.id) && (decide (checked states0_0 5 guards0_0 { bad := 0#52 != 0 } = none) && decide ((states0_0.core 5).guard guards0_0 = true))) (coreProg states0_0 5)) = true) ∧
    ((Issues states0_0 5) ∧ (Option.any (fun p => decide ((states0_0.core 5).prog = some p.id) && (decide (checked states0_0 5 guards0_1 { bad := 0#52 != 0 } = none) && decide ((states0_0.core 5).guard guards0_1 = false))) (coreProg states0_0 5)) = true) ∧
    ((Issues states0_0 5) ∧ (Option.any (fun p => decide ((states0_0.core 5).prog = some p.id) && Option.any (fun cause => true) (checked states0_0 5 guards0_0 { bad := 3#52 != 0 })) (coreProg states0_0 5)) = true) ∧
    ((Issues states0_0 5) ∧ (Option.any (fun p => decide ((states0_0.core 5).prog = some p.id) && (decide ((states0_0.core 5).waitingMoves < 1024) && let u := { bad := mDs0_0.rsv != 0 || p.sealed_, s := [mDs0_0.vr.toNat, mDs0_0.lr.toNat, mDs0_0.nr.toNat] ++ if mDs0_0.rem = true then [mDs0_0.rr.toNat] else [], other := if 1 ≤ BitVec.toNat ((states0_0.core 5).sreg mDs0_0.nr.toNat) ∧ BitVec.toNat ((states0_0.core 5).sreg mDs0_0.nr.toNat) ≤ 32768 ∧ 393216 < BitVec.toNat ((states0_0.core 5).sreg mDs0_0.lr.toNat) + BitVec.toNat ((states0_0.core 5).sreg mDs0_0.nr.toNat) then some Cause'.addr else none }; let rank := if mDs0_0.rem = true then some (BitVec.toNat ((states0_0.core 5).sreg mDs0_0.rr.toNat) % 2 ^ 16) else none; decide (1 ≤ BitVec.toNat ((states0_0.core 5).sreg mDs0_0.nr.toNat)) && (decide (BitVec.toNat ((states0_0.core 5).sreg mDs0_0.nr.toNat) ≤ 32768) && (decide (rankStatus states0_0 5 rank = 0) && (decide (checked states0_0 5 guards0_0 u = none) && decide ((states0_0.core 5).guard guards0_0 = true)))))) (coreProg states0_0 5)) = true) ∧
    ((Issues states0_0 5) ∧ (Option.any (fun p => decide ((states0_0.core 5).prog = some p.id) && (decide ((states0_0.core 5).waitingMoves < 1024) && let u := { bad := mDs0_0.rsv != 0 || p.sealed_, s := [mDs0_0.vr.toNat, mDs0_0.lr.toNat, mDs0_0.nr.toNat] ++ if mDs0_0.rem = true then [mDs0_0.rr.toNat] else [], other := if 1 ≤ BitVec.toNat ((states0_0.core 5).sreg mDs0_0.nr.toNat) ∧ BitVec.toNat ((states0_0.core 5).sreg mDs0_0.nr.toNat) ≤ 32768 ∧ 393216 < BitVec.toNat ((states0_0.core 5).sreg mDs0_0.lr.toNat) + BitVec.toNat ((states0_0.core 5).sreg mDs0_0.nr.toNat) then some Cause'.addr else none }; let rank := if mDs0_0.rem = true then some (BitVec.toNat ((states0_0.core 5).sreg mDs0_0.rr.toNat) % 2 ^ 16) else none; decide (1 ≤ BitVec.toNat ((states0_0.core 5).sreg mDs0_0.nr.toNat)) && (decide (BitVec.toNat ((states0_0.core 5).sreg mDs0_0.nr.toNat) ≤ 32768) && (decide (rankStatus states0_0 5 rank = 0) && (decide (checked states0_0 5 guards0_1 u = none) && decide ((states0_0.core 5).guard guards0_1 = false)))))) (coreProg states0_0 5)) = true) ∧
    ((Issues states0_2 5) ∧ (Option.any (fun p => decide ((states0_2.core 5).prog = some p.id) && (decide ((states0_2.core 5).waitingMoves < 1024) && let u := { bad := mDs0_0.rsv != 0 || p.sealed_, s := [mDs0_0.vr.toNat, mDs0_0.lr.toNat, mDs0_0.nr.toNat] ++ if mDs0_0.rem = true then [mDs0_0.rr.toNat] else [], other := if 1 ≤ BitVec.toNat ((states0_2.core 5).sreg mDs0_0.nr.toNat) ∧ BitVec.toNat ((states0_2.core 5).sreg mDs0_0.nr.toNat) ≤ 32768 ∧ 393216 < BitVec.toNat ((states0_2.core 5).sreg mDs0_0.lr.toNat) + BitVec.toNat ((states0_2.core 5).sreg mDs0_0.nr.toNat) then some Cause'.addr else none }; let rank := if mDs0_0.rem = true then some (BitVec.toNat ((states0_2.core 5).sreg mDs0_0.rr.toNat) % 2 ^ 16) else none; decide (1 ≤ BitVec.toNat ((states0_2.core 5).sreg mDs0_0.nr.toNat)) && (decide (BitVec.toNat ((states0_2.core 5).sreg mDs0_0.nr.toNat) ≤ 32768) && (decide (rankStatus states0_2 5 rank = 0) && Option.any (fun cause => true) (checked states0_2 5 guards0_0 u))))) (coreProg states0_2 5)) = true) ∧
    ((Issues states0_0 5) ∧ (Option.any (fun p => decide ((states0_0.core 5).prog = some p.id) && (decide ((states0_0.core 5).waitingMoves < 1024) && let u := { bad := mDs0_0.rsv != 0 || p.sealed_, s := [mDs0_0.vr.toNat, mDs0_0.lr.toNat, mDs0_0.nr.toNat] ++ if mDs0_0.rem = true then [mDs0_0.rr.toNat] else [], other := if 1 ≤ BitVec.toNat ((states0_0.core 5).sreg mDs0_0.nr.toNat) ∧ BitVec.toNat ((states0_0.core 5).sreg mDs0_0.nr.toNat) ≤ 32768 ∧ 393216 < BitVec.toNat ((states0_0.core 5).sreg mDs0_0.lr.toNat) + BitVec.toNat ((states0_0.core 5).sreg mDs0_0.nr.toNat) then some Cause'.addr else none }; let rank := if mDs0_0.rem = true then some (BitVec.toNat ((states0_0.core 5).sreg mDs0_0.rr.toNat) % 2 ^ 16) else none; decide (1 ≤ BitVec.toNat ((states0_0.core 5).sreg mDs0_0.nr.toNat)) && (decide (BitVec.toNat ((states0_0.core 5).sreg mDs0_0.nr.toNat) ≤ 32768) && (decide (rankStatus states0_0 5 rank = 0) && (decide (mDs0_0.twin = false ∨ (states0_0.kennel p.k).feature 16 = true) && (decide (checked states0_0 5 guards0_0 u = none) && decide ((states0_0.core 5).guard guards0_0 = true))))))) (coreProg states0_0 5)) = true) ∧
    ((Issues states0_0 5) ∧ (Option.any (fun p => decide ((states0_0.core 5).prog = some p.id) && (decide ((states0_0.core 5).waitingMoves < 1024) && let u := { bad := mDs0_0.rsv != 0 || p.sealed_, s := [mDs0_0.vr.toNat, mDs0_0.lr.toNat, mDs0_0.nr.toNat] ++ if mDs0_0.rem = true then [mDs0_0.rr.toNat] else [], other := if 1 ≤ BitVec.toNat ((states0_0.core 5).sreg mDs0_0.nr.toNat) ∧ BitVec.toNat ((states0_0.core 5).sreg mDs0_0.nr.toNat) ≤ 32768 ∧ 393216 < BitVec.toNat ((states0_0.core 5).sreg mDs0_0.lr.toNat) + BitVec.toNat ((states0_0.core 5).sreg mDs0_0.nr.toNat) then some Cause'.addr else none }; let rank := if mDs0_0.rem = true then some (BitVec.toNat ((states0_0.core 5).sreg mDs0_0.rr.toNat) % 2 ^ 16) else none; decide (1 ≤ BitVec.toNat ((states0_0.core 5).sreg mDs0_0.nr.toNat)) && (decide (BitVec.toNat ((states0_0.core 5).sreg mDs0_0.nr.toNat) ≤ 32768) && (decide (rankStatus states0_0 5 rank = 0) && (decide (mDs0_0.twin = false ∨ (states0_0.kennel p.k).feature 16 = true) && (decide (checked states0_0 5 guards0_1 u = none) && decide ((states0_0.core 5).guard guards0_1 = false))))))) (coreProg states0_0 5)) = true) ∧
    ((Issues states0_2 5) ∧ (Option.any (fun p => decide ((states0_2.core 5).prog = some p.id) && (decide ((states0_2.core 5).waitingMoves < 1024) && let u := { bad := mDs0_0.rsv != 0 || p.sealed_, s := [mDs0_0.vr.toNat, mDs0_0.lr.toNat, mDs0_0.nr.toNat] ++ if mDs0_0.rem = true then [mDs0_0.rr.toNat] else [], other := if 1 ≤ BitVec.toNat ((states0_2.core 5).sreg mDs0_0.nr.toNat) ∧ BitVec.toNat ((states0_2.core 5).sreg mDs0_0.nr.toNat) ≤ 32768 ∧ 393216 < BitVec.toNat ((states0_2.core 5).sreg mDs0_0.lr.toNat) + BitVec.toNat ((states0_2.core 5).sreg mDs0_0.nr.toNat) then some Cause'.addr else none }; let rank := if mDs0_0.rem = true then some (BitVec.toNat ((states0_2.core 5).sreg mDs0_0.rr.toNat) % 2 ^ 16) else none; decide (1 ≤ BitVec.toNat ((states0_2.core 5).sreg mDs0_0.nr.toNat)) && (decide (BitVec.toNat ((states0_2.core 5).sreg mDs0_0.nr.toNat) ≤ 32768) && (decide (rankStatus states0_2 5 rank = 0) && (decide (mDs0_0.twin = false ∨ (states0_2.kennel p.k).feature 16 = true) && Option.any (fun cause => true) (checked states0_2 5 guards0_0 u)))))) (coreProg states0_2 5)) = true) ∧
    ((Issues states0_0 5) ∧ (Option.any (fun p => decide ((states0_0.core 5).prog = some p.id) && (decide ((states0_0.core 5).waitingMoves < 1024) && let u := { bad := mDs0_2.rsv != 0 || p.sealed_, s := [mDs0_2.vr.toNat, mDs0_2.lr.toNat, mDs0_2.nr.toNat] ++ if mDs0_2.rem = true then [mDs0_2.rr.toNat] else [], other := if 1 ≤ BitVec.toNat ((states0_0.core 5).sreg mDs0_2.nr.toNat) ∧ BitVec.toNat ((states0_0.core 5).sreg mDs0_2.nr.toNat) ≤ 32768 ∧ 393216 < BitVec.toNat ((states0_0.core 5).sreg mDs0_2.lr.toNat) + BitVec.toNat ((states0_0.core 5).sreg mDs0_2.nr.toNat) then some Cause'.addr else none }; decide (BitVec.toNat ((states0_0.core 5).sreg mDs0_2.nr.toNat) = 0 ∨ 32768 < BitVec.toNat ((states0_0.core 5).sreg mDs0_2.nr.toNat)) && (decide (checked states0_0 5 guards0_0 u = none) && decide ((states0_0.core 5).guard guards0_0 = true)))) (coreProg states0_0 5)) = true) ∧
    ((Issues states0_0 5) ∧ (Option.any (fun p => decide ((states0_0.core 5).prog = some p.id) && (decide ((states0_0.core 5).waitingMoves < 1024) && let u := { bad := mDs0_2.rsv != 0 || p.sealed_, s := [mDs0_2.vr.toNat, mDs0_2.lr.toNat, mDs0_2.nr.toNat] ++ if mDs0_2.rem = true then [mDs0_2.rr.toNat] else [], other := if 1 ≤ BitVec.toNat ((states0_0.core 5).sreg mDs0_2.nr.toNat) ∧ BitVec.toNat ((states0_0.core 5).sreg mDs0_2.nr.toNat) ≤ 32768 ∧ 393216 < BitVec.toNat ((states0_0.core 5).sreg mDs0_2.lr.toNat) + BitVec.toNat ((states0_0.core 5).sreg mDs0_2.nr.toNat) then some Cause'.addr else none }; decide (BitVec.toNat ((states0_0.core 5).sreg mDs0_2.nr.toNat) = 0 ∨ 32768 < BitVec.toNat ((states0_0.core 5).sreg mDs0_2.nr.toNat)) && (decide (checked states0_0 5 guards0_1 u = none) && decide ((states0_0.core 5).guard guards0_1 = false)))) (coreProg states0_0 5)) = true) ∧
    ((Issues states0_2 5) ∧ (Option.any (fun p => decide ((states0_2.core 5).prog = some p.id) && (decide ((states0_2.core 5).waitingMoves < 1024) && let u := { bad := mDs0_2.rsv != 0 || p.sealed_, s := [mDs0_2.vr.toNat, mDs0_2.lr.toNat, mDs0_2.nr.toNat] ++ if mDs0_2.rem = true then [mDs0_2.rr.toNat] else [], other := if 1 ≤ BitVec.toNat ((states0_2.core 5).sreg mDs0_2.nr.toNat) ∧ BitVec.toNat ((states0_2.core 5).sreg mDs0_2.nr.toNat) ≤ 32768 ∧ 393216 < BitVec.toNat ((states0_2.core 5).sreg mDs0_2.lr.toNat) + BitVec.toNat ((states0_2.core 5).sreg mDs0_2.nr.toNat) then some Cause'.addr else none }; decide (BitVec.toNat ((states0_2.core 5).sreg mDs0_2.nr.toNat) = 0 ∨ 32768 < BitVec.toNat ((states0_2.core 5).sreg mDs0_2.nr.toNat)) && Option.any (fun cause => true) (checked states0_2 5 guards0_0 u))) (coreProg states0_2 5)) = true) ∧
    ((Issues states0_0 5) ∧ (Option.any (fun p => decide ((states0_0.core 5).prog = some p.id) && (decide ((states0_0.core 5).waitingMoves < 1024) && let rank := if mAs0_0.rem = true then some (BitVec.toNat ((states0_0.core 5).sreg mAs0_0.rr.toNat) % 2 ^ 16) else none; let u := { bad := mAs0_0.rsv != 0 || p.sealed_, s := ([mAs0_0.vr.toNat, mAs0_0.opr.toNat] ++ if mAs0_0.aop = 3 then [mAs0_0.cr.toNat] else []) ++ if mAs0_0.rem = true then [mAs0_0.rr.toNat] else [], other := if 393216 ≤ mAs0_0.line.toNat then some Cause'.addr else none }; decide (rankStatus states0_0 5 rank = 0) && (decide (mAs0_0.aop ≠ 2 ∨ p.repro = false) && (decide (checked states0_0 5 guards0_0 u = none) && decide ((states0_0.core 5).guard guards0_0 = true))))) (coreProg states0_0 5)) = true) ∧
    ((Issues states0_0 5) ∧ (Option.any (fun p => decide ((states0_0.core 5).prog = some p.id) && (decide ((states0_0.core 5).waitingMoves < 1024) && let rank := if mAs0_0.rem = true then some (BitVec.toNat ((states0_0.core 5).sreg mAs0_0.rr.toNat) % 2 ^ 16) else none; let u := { bad := mAs0_0.rsv != 0 || p.sealed_, s := ([mAs0_0.vr.toNat, mAs0_0.opr.toNat] ++ if mAs0_0.aop = 3 then [mAs0_0.cr.toNat] else []) ++ if mAs0_0.rem = true then [mAs0_0.rr.toNat] else [], other := if 393216 ≤ mAs0_0.line.toNat then some Cause'.addr else none }; decide (rankStatus states0_0 5 rank = 0) && (decide (mAs0_0.aop ≠ 2 ∨ p.repro = false) && (decide (checked states0_0 5 guards0_1 u = none) && decide ((states0_0.core 5).guard guards0_1 = false))))) (coreProg states0_0 5)) = true) ∧
    ((Issues states0_0 5) ∧ (Option.any (fun p => decide ((states0_0.core 5).prog = some p.id) && (decide ((states0_0.core 5).waitingMoves < 1024) && let rank := if mAs0_2.rem = true then some (BitVec.toNat ((states0_0.core 5).sreg mAs0_2.rr.toNat) % 2 ^ 16) else none; let u := { bad := mAs0_2.rsv != 0 || p.sealed_, s := ([mAs0_2.vr.toNat, mAs0_2.opr.toNat] ++ if mAs0_2.aop = 3 then [mAs0_2.cr.toNat] else []) ++ if mAs0_2.rem = true then [mAs0_2.rr.toNat] else [], other := if 393216 ≤ mAs0_2.line.toNat then some Cause'.addr else none }; decide (rankStatus states0_0 5 rank = 0) && (decide (mAs0_2.aop ≠ 2 ∨ p.repro = false) && Option.any (fun cause => true) (checked states0_0 5 guards0_0 u)))) (coreProg states0_0 5)) = true) ∧
    ((Issues states0_1 5) ∧ (Option.any (fun p => decide ((states0_1.core 5).prog = some p.id) && (decide ((states0_1.core 5).waitingMoves < 1024) && let rank := if mAs0_0.rem = true then some (BitVec.toNat ((states0_1.core 5).sreg mAs0_0.rr.toNat) % 2 ^ 16) else none; let u := { bad := mAs0_0.rsv != 0 || p.sealed_, s := ([mAs0_0.vr.toNat, mAs0_0.opr.toNat] ++ if mAs0_0.aop = 3 then [mAs0_0.cr.toNat] else []) ++ if mAs0_0.rem = true then [mAs0_0.rr.toNat] else [], other := if 393216 ≤ mAs0_0.line.toNat then some Cause'.addr else none }; decide (rankStatus states0_1 5 rank = 0) && (decide (mAs0_0.aop = 2) && (decide (p.repro = true) && (decide (checked states0_1 5 guards0_0 u = none) && decide ((states0_1.core 5).guard guards0_0 = true)))))) (coreProg states0_1 5)) = true) ∧
    ((Issues states0_1 5) ∧ (Option.any (fun p => decide ((states0_1.core 5).prog = some p.id) && (decide ((states0_1.core 5).waitingMoves < 1024) && let rank := if mAs0_0.rem = true then some (BitVec.toNat ((states0_1.core 5).sreg mAs0_0.rr.toNat) % 2 ^ 16) else none; let u := { bad := mAs0_0.rsv != 0 || p.sealed_, s := ([mAs0_0.vr.toNat, mAs0_0.opr.toNat] ++ if mAs0_0.aop = 3 then [mAs0_0.cr.toNat] else []) ++ if mAs0_0.rem = true then [mAs0_0.rr.toNat] else [], other := if 393216 ≤ mAs0_0.line.toNat then some Cause'.addr else none }; decide (rankStatus states0_1 5 rank = 0) && (decide (mAs0_0.aop = 2) && (decide (p.repro = true) && (decide (checked states0_1 5 guards0_1 u = none) && decide ((states0_1.core 5).guard guards0_1 = false)))))) (coreProg states0_1 5)) = true) ∧
    ((Issues states0_1 5) ∧ (Option.any (fun p => decide ((states0_1.core 5).prog = some p.id) && (decide ((states0_1.core 5).waitingMoves < 1024) && let rank := if mAs0_2.rem = true then some (BitVec.toNat ((states0_1.core 5).sreg mAs0_2.rr.toNat) % 2 ^ 16) else none; let u := { bad := mAs0_2.rsv != 0 || p.sealed_, s := ([mAs0_2.vr.toNat, mAs0_2.opr.toNat] ++ if mAs0_2.aop = 3 then [mAs0_2.cr.toNat] else []) ++ if mAs0_2.rem = true then [mAs0_2.rr.toNat] else [], other := if 393216 ≤ mAs0_2.line.toNat then some Cause'.addr else none }; decide (rankStatus states0_1 5 rank = 0) && (decide (mAs0_2.aop = 2) && (decide (p.repro = true) && Option.any (fun cause => true) (checked states0_1 5 guards0_0 u))))) (coreProg states0_1 5)) = true) ∧
    ((Issues states0_0 5) ∧ (Option.any (fun p => decide ((states0_0.core 5).prog = some p.id) && (decide ((states0_0.core 5).waitingMoves < 1024) && (decide (mWs0_0.rem = false) && (decide (mWs0_0.widx.toNat < (states0_0.kennel p.k).nWh) && (decide (checked states0_0 5 guards0_0 { bad := mWs0_0.rsv != 0 || p.sealed_, s := [mWs0_0.sr.toNat] } = none) && decide ((states0_0.core 5).guard guards0_0 = true)))))) (coreProg states0_0 5)) = true) ∧
    ((Issues states0_0 5) ∧ (Option.any (fun p => decide ((states0_0.core 5).prog = some p.id) && (decide ((states0_0.core 5).waitingMoves < 1024) && (decide (mWs0_0.rem = false) && (decide (mWs0_0.widx.toNat < (states0_0.kennel p.k).nWh) && (decide (checked states0_0 5 guards0_1 { bad := mWs0_0.rsv != 0 || p.sealed_, s := [mWs0_0.sr.toNat] } = none) && decide ((states0_0.core 5).guard guards0_1 = false)))))) (coreProg states0_0 5)) = true) ∧
    ((Issues states0_2 5) ∧ (Option.any (fun p => decide ((states0_2.core 5).prog = some p.id) && (decide ((states0_2.core 5).waitingMoves < 1024) && (decide (mWs0_0.rem = false) && (decide (mWs0_0.widx.toNat < (states0_2.kennel p.k).nWh) && Option.any (fun cause => true) (checked states0_2 5 guards0_0 { bad := mWs0_0.rsv != 0 || p.sealed_, s := [mWs0_0.sr.toNat] }))))) (coreProg states0_2 5)) = true) ∧
    ((Issues states0_0 5) ∧ (Option.any (fun p => decide ((states0_0.core 5).prog = some p.id) && (decide ((states0_0.kennel p.k).nWh ≤ mWs0_2.widx.toNat) && (decide (checked states0_0 5 guards0_0 { bad := mWs0_2.rsv != 0 || p.sealed_, s := [mWs0_2.sr.toNat] } = none) && decide ((states0_0.core 5).guard guards0_0 = true)))) (coreProg states0_0 5)) = true) ∧
    ((Issues states0_0 5) ∧ (Option.any (fun p => decide ((states0_0.core 5).prog = some p.id) && (decide ((states0_0.kennel p.k).nWh ≤ mWs0_2.widx.toNat) && (decide (checked states0_0 5 guards0_1 { bad := mWs0_2.rsv != 0 || p.sealed_, s := [mWs0_2.sr.toNat] } = none) && decide ((states0_0.core 5).guard guards0_1 = false)))) (coreProg states0_0 5)) = true) ∧
    ((Issues states0_0 5) ∧ (Option.any (fun p => decide ((states0_0.core 5).prog = some p.id) && (decide ((states0_0.kennel p.k).nWh ≤ mWs0_3.widx.toNat) && Option.any (fun cause => true) (checked states0_0 5 guards0_0 { bad := mWs0_3.rsv != 0 || p.sealed_, s := [mWs0_3.sr.toNat] }))) (coreProg states0_0 5)) = true) ∧
    ((Issues states0_0 5) ∧ (Option.any (fun p => decide ((states0_0.core 5).prog = some p.id) && (decide ((states0_0.core 5).resumeAt ≠ BitVec.toNat states0_0.cyc) && (decide (mWs0_0.widx.toNat < (states0_0.kennel p.k).nWh) && (decide (checked states0_0 5 guards0_0 { bad := mWs0_0.rsv != 0 || p.sealed_, s := [mWs0_0.sr.toNat] } = none) && decide ((states0_0.core 5).guard guards0_0 = true))))) (coreProg states0_0 5)) = true) ∧
    ((Issues states0_0 5) ∧ (Option.any (fun p => decide ((states0_0.core 5).prog = some p.id) && (decide ((states0_0.core 5).resumeAt ≠ BitVec.toNat states0_0.cyc) && (decide (mWs0_0.widx.toNat < (states0_0.kennel p.k).nWh) && (decide (checked states0_0 5 guards0_1 { bad := mWs0_0.rsv != 0 || p.sealed_, s := [mWs0_0.sr.toNat] } = none) && decide ((states0_0.core 5).guard guards0_1 = false))))) (coreProg states0_0 5)) = true) ∧
    ((Issues states0_2 5) ∧ (Option.any (fun p => decide ((states0_2.core 5).prog = some p.id) && (decide ((states0_2.core 5).resumeAt ≠ BitVec.toNat states0_2.cyc) && (decide (mWs0_0.widx.toNat < (states0_2.kennel p.k).nWh) && Option.any (fun cause => true) (checked states0_2 5 guards0_0 { bad := mWs0_0.rsv != 0 || p.sealed_, s := [mWs0_0.sr.toNat] })))) (coreProg states0_2 5)) = true) ∧
    ((Issues states0_0 5) ∧ (Option.any (fun p => decide ((states0_0.core 5).prog = some p.id) && (decide ((states0_0.core 5).resumeAt ≠ BitVec.toNat states0_0.cyc) && (decide (checked states0_0 5 guards0_0 { bad := mWs0_0.rsv != 0, s := [mWs0_0.sr.toNat] } = none) && decide ((states0_0.core 5).guard guards0_0 = true)))) (coreProg states0_0 5)) = true) ∧
    ((Issues states0_0 5) ∧ (Option.any (fun p => decide ((states0_0.core 5).prog = some p.id) && (decide ((states0_0.core 5).resumeAt ≠ BitVec.toNat states0_0.cyc) && (decide (checked states0_0 5 guards0_1 { bad := mWs0_0.rsv != 0, s := [mWs0_0.sr.toNat] } = none) && decide ((states0_0.core 5).guard guards0_1 = false)))) (coreProg states0_0 5)) = true) ∧
    ((Issues states0_0 5) ∧ (Option.any (fun p => decide ((states0_0.core 5).prog = some p.id) && (decide ((states0_0.core 5).resumeAt ≠ BitVec.toNat states0_0.cyc) && Option.any (fun cause => true) (checked states0_0 5 guards0_0 { bad := mWs0_3.rsv != 0, s := [mWs0_3.sr.toNat] }))) (coreProg states0_0 5)) = true) ∧
    ((Issues states0_0 5) ∧ (Option.any (fun p => decide ((states0_0.core 5).prog = some p.id) && (decide ((states0_0.core 5).waitingMoves < 1024) && (decide (checked states0_0 5 guards0_0 { bad := mPs0_0.rsv != 0 || p.sealed_, s := [mPs0_0.a.toNat, mPs0_0.b.toNat] } = none) && decide ((states0_0.core 5).guard guards0_0 = true)))) (coreProg states0_0 5)) = true) ∧
    ((Issues states0_0 5) ∧ (Option.any (fun p => decide ((states0_0.core 5).prog = some p.id) && (decide ((states0_0.core 5).waitingMoves < 1024) && (decide (checked states0_0 5 guards0_1 { bad := mPs0_0.rsv != 0 || p.sealed_, s := [mPs0_0.a.toNat, mPs0_0.b.toNat] } = none) && decide ((states0_0.core 5).guard guards0_1 = false)))) (coreProg states0_0 5)) = true) ∧
    ((Issues states0_0 5) ∧ (Option.any (fun p => decide ((states0_0.core 5).prog = some p.id) && (decide ((states0_0.core 5).waitingMoves < 1024) && Option.any (fun cause => true) (checked states0_0 5 guards0_0 { bad := mPs0_1.rsv != 0 || p.sealed_, s := [mPs0_1.a.toNat, mPs0_1.b.toNat] }))) (coreProg states0_0 5)) = true) ∧
    ((Issues states0_3 5) ∧ (Option.any (fun p => decide ((states0_3.core 5).prog = some p.id) && (decide ((slotEntry states0_3 mSs0_0.entry.toNat).dir = 0) && (decide (checked states0_3 5 guards0_0 (usesMS states0_3 5 mSs0_0 (states0_3.core 5)) = none) && decide ((states0_3.core 5).guard guards0_0 = true)))) (coreProg states0_3 5)) = true) ∧
    ((Issues states0_0 5) ∧ (Option.any (fun p => decide ((states0_0.core 5).prog = some p.id) && Option.any (fun d => decide (d ≠ 5) && (decide (checked states0_0 5 guards0_0 (usesMN states0_0 5 mNs0_0 (states0_0.core 5)) = none) && decide ((states0_0.core 5).guard guards0_0 = true))) p.cores[mNs0_0.dst.toNat]?) (coreProg states0_0 5)) = true) := by
  refine ⟨?_, ?_, ?_, ?_, ?_, ?_, ?_, ?_, ?_, ?_, ?_, ?_, ?_, ?_, ?_, ?_, ?_, ?_, ?_, ?_, ?_, ?_, ?_, ?_, ?_, ?_, ?_, ?_, ?_, ?_, ?_, ?_, ?_, ?_, ?_⟩ <;> decide +kernel
end Move

namespace Time
def pk (opc len addr : Nat) (kt : Nat) (pl : List Byte) : Packet := { dst := 0, src := 4, ktag := BitVec.ofNat 16 kt, win := 3, psn := 4, addr := BitVec.ofNat 48 addr, vc := 6, opc := BitVec.ofNat 6 opc, len := BitVec.ofNat 9 len, fen := false, cmk := 0, epb := false, dln := 0, twn := false, col := 0, hop := 3, gen := 2, rsv := 0, payload := pl, check := 0 }
def TA := 0xFFFFFFFFFF00
def tm (t1 t4 ns rs : Nat) : List Byte := leBytes 8 t1 ++ leBytes 8 t4 ++ leBytes 4 ns ++ leBytes 4 rs ++ leBytes 8 0
def ars : List Arrival := [⟨3, pk 0x20 2 TA 0 (tm 1000 2000 8 5), 12345⟩, ⟨3, pk 0x20 2 TA 0 (tm 4000 6000 8 5), 12345⟩, ⟨3, pk 0x20 2 TA 0 (tm 1000 2000 8 5), 12345⟩, ⟨3, pk 0x20 1 TA 0 (tm 1000 2000 8 5), 12345⟩, ⟨2, pk 0x20 2 TA 0 (tm 1000 2000 8 5), 12345⟩, ⟨2, pk 0x21 1 0 7 (leBytes 8 77 ++ [2,0,0,0,5,0,0,0]), 5⟩, ⟨2, pk 0x21 1 0 7 (leBytes 8 77 ++ [2,0,0,0,2,0,0,0]), 5⟩, ⟨2, pk 0x21 1 0 7 (leBytes 8 77 ++ [20,0,0,0,2,0,0,0]), 5⟩, ⟨2, pk 1 1 0 7 [], 5⟩]
def arrivals0 : List Arrival := ars
def idn : Ident := ⟨1,2,3,4,9⟩
def kn : Kennel := {st := .open, ktag := 7, feat := BitVec.allOnes 64, root := some 0, queues := [(2, {head := 3, tail := 6, base := 0, log2 := 6})]}
def b0 : State := {upS.wr F.DET_TSRC_PORT 3 with time := 9000*77, pool := {mem := tbls [(0,3+256*5), (2, 3+256*6)]}, knl := [(1,kn)], det := {upS.det with recs := [(3, {rxLast := 900, rxSeq := 7, sent := [(5, 1700)]})], good := 15}}
def states0 : List State := [b0, (b0.wr F.DET_TSTS_LOCKED 1).setPort 2 {st := .active, ident := some idn}, {(b0.wr F.DET_TSTS_LOCKED 1) with det := {b0.det with alignWait := true}}, upS]
def pg : Prog := {id := 4, k := 1, q := 2, seq := 5, ncore := 2, static := false, placed := none, sealed_ := false, repro := false, paddr := 0x1000, aadr := 77, step := 5, seed := 9, running := true, t0 := some 999, cores := [5]}
def sc : Scent := {va := 0, log2 := 10, mode := 1, mask := 0xFF, dig := 2^22, nDig := 1, written := 5, eno := 9}
def d0 : State := {b0 with pool := b0.pool.setBytes (6*2^21) (leBytes 8 64 ++ leBytes 8 64), isl := {b0.isl with progs := [pg], cores := [(5, {ended := some 4})]}, scents := [(1, sc)]}
def packets0 : List Packet := [pk 2 1 64 7 []]
def h0 : State := {b0 with scents := [(1, {sc with mode := 2, written := 1024})], pool := {b0.pool with accs := [{id := 4, k := 1, va := 64, op := .read 16, asker := .fabric (pk 2 1 64 7 []) 3}]}}
def states1 : List State := [b0, h0, {b0 with scents := [(1, {sc with lost := 3})]}, d0, {d0 with isl := {b0.isl with progs := [pg], cores := [(5, {})]}}, {b0 with knl := [(1, {kn with st := .closing})]}, {b0 with knl := [(1, {kn with st := .resetting})]}]
def arrivals0_0 : Arrival := arrivals0[0]'(by decide +kernel)
def arrivals0_3 : Arrival := arrivals0[3]'(by decide +kernel)
def arrivals0_4 : Arrival := arrivals0[4]'(by decide +kernel)
def arrivals0_5 : Arrival := arrivals0[5]'(by decide +kernel)
def arrivals0_6 : Arrival := arrivals0[6]'(by decide +kernel)
def arrivals0_7 : Arrival := arrivals0[7]'(by decide +kernel)
def arrivals0_8 : Arrival := arrivals0[8]'(by decide +kernel)
def packets0_0 : Packet := packets0[0]'(by decide +kernel)
def states0_0 : State := states0[0]'(by decide +kernel)
def states0_1 : State := states0[1]'(by decide +kernel)
def states0_2 : State := states0[2]'(by decide +kernel)
def states0_3 : State := states0[3]'(by decide +kernel)
def states1_0 : State := states1[0]'(by decide +kernel)
def states1_1 : State := states1[1]'(by decide +kernel)
def states1_2 : State := states1[2]'(by decide +kernel)
def states1_3 : State := states1[3]'(by decide +kernel)
def states1_4 : State := states1[4]'(by decide +kernel)
def states1_5 : State := states1[5]'(by decide +kernel)
def states1_6 : State := states1[6]'(by decide +kernel)
/-- The hypotheses of Obligations.TimeBase. -/
theorem witness_TimeBase :
    ((Runs states0_0) ∧ (isFunction arrivals0_5.pkt 281474976710400 = false)) ∧
    ((Runs states0_0) ∧ (isFunction arrivals0_3.pkt 281474976710400 = true) ∧ (arrivals0_3.pkt.len ≠ 2)) ∧
    ((Runs states0_0) ∧ (isFunction arrivals0_4.pkt 281474976710400 = true) ∧ (arrivals0_4.pkt.len = 2) ∧ (arrivals0_4.port < 144) ∧ (parentPort states0_0 ≠ some arrivals0_4.port)) ∧
    ((Runs states0_0) ∧ (isFunction arrivals0_0.pkt 281474976710400 = true) ∧ (arrivals0_0.pkt.len = 2) ∧ (arrivals0_0.port < 144) ∧ (parentPort states0_0 = some arrivals0_0.port) ∧ (Option.any (fun r => decide ((timeRec states0_0 arrivals0_0.port).rxLast ≠ 0) && (decide ((timeRec states0_0 arrivals0_0.port).rxSeq + 1 = BitVec.ofNat 32 (field arrivals0_0.pkt.payload 16 4)) && decide (field arrivals0_0.pkt.payload 8 8 ≠ 0))) (List.find? (fun y => y.fst == BitVec.ofNat 32 (field arrivals0_0.pkt.payload 20 4)) (timeRec states0_0 arrivals0_0.port).sent)) = true) ∧
    ((Runs states0_0) ∧ (2000000 < (Int.negSucc 3999999).natAbs)) ∧
    ((Runs states0_0) ∧ ((Int.ofNat 0).natAbs ≤ 200) ∧ (15 ≤ states0_0.det.good)) ∧
    ((Runs states0_0) ∧ (200 < (Int.ofNat 5000).natAbs) ∧ ((Int.ofNat 5000).natAbs ≤ 2000000)) ∧
    ((Runs states0_1) ∧ (2 < 144) ∧ (states0_1.portUp 2 = true) ∧ (parentPort states0_1 ≠ some 2) ∧ (Option.any (fun f => decide (states0_1.rd F.DET_TSTS_LOCKED = 1)) (states0_1.port 2).ident) = true) ∧
    ((Runs states0_0) ∧ (3 < 144) ∧ (states0_0.portUp 3 = false)) ∧
    ((Runs states0_0) ∧ ((parentPort states0_0).isSome = true)) ∧
    ((Runs states0_3) ∧ (parentPort states0_3 = none)) ∧
    ((Runs states0_2) ∧ (states0_2.det.alignWait = true) ∧ (states0_2.rd F.DET_TSTS_LOCKED = 1) ∧ (states0_2.rd F.POL_STS_CUR = 0) ∧ (∀ (c : Nat), c < 32 → (states0_2.core c).st ≠ CSt.load ∧ (states0_2.core c).st ≠ CSt.run)) ∧
    ((Runs states0_0) ∧ (states0_0.rd F.DET_TSTS_LOCKED = 0)) := by
  refine ⟨?_, ?_, ?_, ?_, ?_, ?_, ?_, ?_, ?_, ?_, ?_, ?_, ?_⟩ <;> decide +kernel
/-- The hypotheses of Obligations.StartAndScent. -/
theorem witness_StartAndScent :
    ((Runs states1_0) ∧ (arrivals0_8.pkt.ktag ≠ 0) ∧ (Option.any (fun k => decide (arrivals0_8.pkt.opc ≠ 33)) (servedKennel states1_0 arrivals0_8.pkt.ktag)) = true) ∧
    ((Runs states1_0) ∧ (arrivals0_7.pkt.ktag ≠ 0) ∧ (Option.any (fun k => let ok := arrivals0_7.pkt.len = 1 ∧ field arrivals0_7.pkt.payload 8 1 < 16 ∧ field arrivals0_7.pkt.payload 9 1 = 0 ∧ bits (field arrivals0_7.pkt.payload 10 2) 14 12 = 0; decide (arrivals0_7.pkt.opc = 33) && decide ¬ok) (servedKennel states1_0 arrivals0_7.pkt.ktag)) = true) ∧
    ((Runs states1_6) ∧ (arrivals0_5.pkt.ktag ≠ 0) ∧ (Option.any (fun k => let ok := arrivals0_5.pkt.len = 1 ∧ field arrivals0_5.pkt.payload 8 1 < 16 ∧ field arrivals0_5.pkt.payload 9 1 = 0 ∧ bits (field arrivals0_5.pkt.payload 10 2) 14 12 = 0; decide (arrivals0_5.pkt.opc = 33) && (decide ok && decide ((states1_6.kennel k).st ≠ KSt.open))) (servedKennel states1_6 arrivals0_5.pkt.ktag)) = true) ∧
    ((Runs states1_0) ∧ (arrivals0_5.pkt.ktag ≠ 0) ∧ (Option.any (fun k => let ok := arrivals0_5.pkt.len = 1 ∧ field arrivals0_5.pkt.payload 8 1 < 16 ∧ field arrivals0_5.pkt.payload 9 1 = 0 ∧ bits (field arrivals0_5.pkt.payload 10 2) 14 12 = 0; decide (arrivals0_5.pkt.opc = 33) && (decide ok && (decide ((states1_0.kennel k).st = KSt.open) && (decide (bit (field arrivals0_5.pkt.payload 10 2) 15 = false) && Option.any (fun x => decide (states1_0.det.barriers = []) && (decide (states1_0.scent k = none) && decide (canStart states1_0 k (field arrivals0_5.pkt.payload 8 1) x (BitVec.ofNat 32 (field arrivals0_5.pkt.payload 12 4)) = true))) (states1_0.queue k (field arrivals0_5.pkt.payload 8 1)))))) (servedKennel states1_0 arrivals0_5.pkt.ktag)) = true) ∧
    ((Runs states1_0) ∧ (arrivals0_6.pkt.ktag ≠ 0) ∧ (Option.any (fun k => let ok := arrivals0_6.pkt.len = 1 ∧ field arrivals0_6.pkt.payload 8 1 < 16 ∧ field arrivals0_6.pkt.payload 9 1 = 0 ∧ bits (field arrivals0_6.pkt.payload 10 2) 14 12 = 0; decide (arrivals0_6.pkt.opc = 33) && (decide ok && (decide ((states1_0.kennel k).st = KSt.open) && (decide (bit (field arrivals0_6.pkt.payload 10 2) 15 = false) && Option.any (fun x => decide (states1_0.det.barriers = []) && (decide (states1_0.scent k = none) && decide (canStart states1_0 k (field arrivals0_6.pkt.payload 8 1) x (BitVec.ofNat 32 (field arrivals0_6.pkt.payload 12 4)) = false))) (states1_0.queue k (field arrivals0_6.pkt.payload 8 1)))))) (servedKennel states1_0 arrivals0_6.pkt.ktag)) = true) ∧
    ((Runs states1_0) ∧ (servesCalls states1_0 = true) ∧ ((1#64).toNat < 4096) ∧ (states1_0.hasPool = true) ∧ ((states1_0.kennel (1#64).toNat).feature 15 = true) ∧ (10 ≤ (10#64).toNat) ∧ ((10#64).toNat ≤ 24) ∧ ((0#64).toNat ≤ 2) ∧ ((0#64).toNat ≤ 64) ∧ ((0#64).toNat % 2 ^ 21 = 0) ∧ ((0#64).toNat % 2 ^ 21 = 0) ∧ ((0#64).toNat < 2 ^ 46) ∧ ((0#64).toNat < 2 ^ 46) ∧ ((1#64).toNat &&& scentTypes ≠ (1#64).toNat)) ∧
    ((Runs states1_5) ∧ (servesCalls states1_5 = true) ∧ ((1#64).toNat < 4096) ∧ (states1_5.hasPool = true) ∧ ((states1_5.kennel (1#64).toNat).feature 15 = true) ∧ (10 ≤ (10#64).toNat) ∧ ((10#64).toNat ≤ 24) ∧ ((0#64).toNat ≤ 2) ∧ ((0#64).toNat ≤ 64) ∧ ((0#64).toNat % 2 ^ 21 = 0) ∧ ((0#64).toNat % 2 ^ 21 = 0) ∧ ((0#64).toNat < 2 ^ 46) ∧ ((0#64).toNat < 2 ^ 46) ∧ ((0#64).toNat &&& scentTypes = (0#64).toNat) ∧ ((states1_5.kennel (1#64).toNat).st ≠ KSt.created) ∧ ((states1_5.kennel (1#64).toNat).st ≠ KSt.open)) ∧
    ((Runs states1_0) ∧ (servesCalls states1_0 = true) ∧ ((1#64).toNat < 4096) ∧ (states1_0.hasPool = true) ∧ ((states1_0.kennel (1#64).toNat).feature 15 = true) ∧ (10 ≤ (10#64).toNat) ∧ ((10#64).toNat ≤ 24) ∧ ((0#64).toNat ≤ 2) ∧ ((0#64).toNat ≤ 64) ∧ ((0#64).toNat % 2 ^ 21 = 0) ∧ ((0#64).toNat % 2 ^ 21 = 0) ∧ ((0#64).toNat < 2 ^ 46) ∧ ((0#64).toNat < 2 ^ 46) ∧ ((0#64).toNat &&& scentTypes = (0#64).toNat) ∧ ((states1_0.kennel (1#64).toNat).st = KSt.created ∨ (states1_0.kennel (1#64).toNat).st = KSt.open) ∧ (writable states1_0 (1#64).toNat (0#64).toNat (128 + 128 * 2 ^ (10#64).toNat) = true) ∧ (mapped states1_0 (1#64).toNat (0#64).toNat (16 * (0#64).toNat) = true ∨ 0#64 = 0)) ∧
    ((Runs states1_2) ∧ (1 < 4096) ∧ (Option.any (fun x => decide (x.lost ≠ 0) && (decide (x.written - x.consumed < 2 ^ x.log2) && let slot := x.va + 128 + 128 * (x.written % 2 ^ x.log2); let lost := scentRecord 15 0 0 0 x.eno states1_2.nowNs x.lost [] []; decide (states1_2.pool.accs = []) && (decide (RangeOk states1_2 1 slot (PoolOp.write lost)) && (decide (RangeOk (writeVa 1 slot lost states1_2) 1 x.va (PoolOp.write (leBytes 8 (x.written + 1)))) && (decide (mirrorPages (writeVa 1 slot lost states1_2) 1 slot 128 = []) && decide (mirrorPages (writeVa 1 x.va (leBytes 8 (x.written + 1)) (writeVa 1 slot lost states1_2)) 1 x.va 8 = [])))))) (states1_2.scent 1)) = true) ∧
    ((Runs states1_0) ∧ (3 < 4096) ∧ (states1_0.scent 3 = none)) ∧
    ((Runs states1_1) ∧ (states1_1.pool.accs.length = 1) ∧ (states1_1.pool.accs.any fun a => decide (a.asker = Asker.fabric packets0_0 3) && Option.any (fun x => decide (x.mode = 2) && decide (2 ^ x.log2 ≤ x.written - x.consumed)) (states1_1.scent a.k)) = true) ∧
    ((Runs states1_3) ∧ (states1_3.isl.progs.length = 1) ∧ (states1_3.isl.progs.any fun p => Option.any (fun x => decide (allEnded states1_3 p = true) && (decide (p.digested = false) && (decide (x.nDig = 1) && (decide (x.lost = 0) && (decide (x.written + 1 - x.consumed < 2 ^ x.log2) && let slot := x.va + 128 + 128 * (x.written % 2 ^ x.log2); decide (states1_3.pool.accs = []) && (decide (x.va % 128 = 0) && (decide (RangeOk states1_3 p.k slot ((fun n => PoolOp.write (List.replicate n 0)) 128)) && (decide (RangeOk states1_3 p.k x.va ((fun n => PoolOp.write (List.replicate n 0)) 8)) && (decide (mirrorPages states1_3 p.k slot 128 = []) && (decide (mirrorPages states1_3 p.k x.va 8 = []) && (decide ((fun v n q => have pa := (physAddr states1_3 p.k v).getD 0; have r := (states1_3.kennel p.k).root.getD 0 + 8 * (q / 4096); have e := (entryAddr states1_3 p.k q).getD 0; (r + 8 ≤ pa ∨ pa + n ≤ r) ∧ (e + 8 ≤ pa ∨ pa + n ≤ e)) slot 128 (slot / 2 ^ 21)) && (decide ((fun v n q => have pa := (physAddr states1_3 p.k v).getD 0; have r := (states1_3.kennel p.k).root.getD 0 + 8 * (q / 4096); have e := (entryAddr states1_3 p.k q).getD 0; (r + 8 ≤ pa ∨ pa + n ≤ r) ∧ (e + 8 ≤ pa ∨ pa + n ≤ e)) slot 128 (x.va / 2 ^ 21)) && (decide ((fun v n q => have pa := (physAddr states1_3 p.k v).getD 0; have r := (states1_3.kennel p.k).root.getD 0 + 8 * (q / 4096); have e := (entryAddr states1_3 p.k q).getD 0; (r + 8 ≤ pa ∨ pa + n ≤ r) ∧ (e + 8 ≤ pa ∨ pa + n ≤ e)) x.va 8 (x.va / 2 ^ 21)) && (decide (refusedEarly states1_3 p.k x.dig (PoolOp.read 16) = none) && (decide (RangeOk states1_3 p.k x.dig (PoolOp.read 16)) && (decide (refusedEarly states1_3 p.k (field (readVa states1_3 p.k x.dig 16) 0 8) (PoolOp.read (field (readVa states1_3 p.k x.dig 16) 8 8)) = none) && (decide (RangeOk states1_3 p.k (field (readVa states1_3 p.k x.dig 16) 0 8) (PoolOp.read (field (readVa states1_3 p.k x.dig 16) 8 8))) && (decide (field (readVa states1_3 p.k x.dig 16) 0 8 % 64 = 0) && decide (field (readVa states1_3 p.k x.dig 16) 8 8 % 64 = 0))))))))))))))))))) (states1_3.scent p.k)) = true) ∧
    ((Runs states1_4) ∧ (states1_4.isl.progs.length = 1) ∧ (states1_4.isl.progs.any fun p => decide (allEnded states1_4 p = false)) = true) := by
  refine ⟨?_, ?_, ?_, ?_, ?_, ?_, ?_, ?_, ?_, ?_, ?_, ?_, ?_⟩ <;> decide +kernel
end Time

namespace Image
def img1 : List Byte := List.replicate 32 0
def secs (s : State) : List (Nat × Nat × List Byte) :=
  let ra (l : List (Reg × Nat)) : List Byte := (wholeRegs l).flatMap fun x => leBytes 4 ((Reg.fields x.1).foldl (fun a f => a + (if f.w > 31 then 0 else resetAt f x.2) * 2^f.lo) 0)
  [(1,144, leBytes 4 (s.self) ++ List.replicate 12 0 ++ List.replicate 2304 0), (2,144, (upto 144).map fun p => BitVec.ofNat 8 (defaultRole p)), (3,1, ra [(.RTE_LOCAL, 128), (.RTE_XTAB, 32), (.RTE_YTAB, 16), (.RTE_DIRP, 4), (.RTE_LIFE, 1)]),
   (4,64, List.replicate 1536 0), (5,1, ra [(.XBR_INCOL, 144), (.OUB_CLS, 144), (.OUB_WEIGHT, 144), (.OUB_WRED, 96), (.OUB_WREDP, 32)]), (6,0,[]), (7,0,[]), (8,1, leBytes 2 50 ++ leBytes 2 340 ++ leBytes 2 1 ++ leBytes 2 10 ++ List.replicate 40 0), (9,1, [3] ++ List.replicate 15 0)]
def mkImg (ver : Nat) (ss : List (Nat × Nat × List Byte)) : List Byte :=
  let offs := ss.foldl (fun (a : List Nat × Nat) x => (a.1 ++ [a.2], a.2 + (x.2.2.length + 15)/16*16)) ([],208)
  let body := ss.flatMap fun x => x.2.2 ++ List.replicate ((16 - x.2.2.length % 16) % 16) 0
  let dir := (ss.zip offs.1).flatMap fun x => leBytes 2 x.1.1 ++ leBytes 2 0 ++ leBytes 4 x.2 ++ leBytes 4 x.1.2.2.length ++ leBytes 4 x.1.2.1
  leBytes 4 0x47525053 ++ leBytes 2 1 ++ leBytes 2 9 ++ leBytes 4 ver ++ leBytes 4 offs.2 ++ List.replicate 48 0 ++ dir ++ body ++ List.replicate 7412 0
def im := mkImg 5 (secs upS)
def b0 : State := {(upS.wr F.SPG_SRC_ADDR 100).wr F.SPG_SRC_LEN 32 with time := 9000*77}
def states0 : List State := [b0, upS, {b0 with spg := {b0.spg with staging := some img1}}, {b0 with spg := {b0.spg with staging := some []}}, {b0 with spg := {b0.spg with staging := some im}},  {b0 with spg := {b0.spg with drain := true, drainEnd := 77}}, {b0 with spg := {b0.spg with drain := true, drainEnd := 78}},{b0 with spg := {b0.spg with armed := some ⟨99,1,1,3,true⟩}}]
def idn : Ident := ⟨1,2,3,4,9⟩
def bk : Bank := {version := 41, roles := [(80, 0)], flags := 7, power := leBytes 2 60 ++ leBytes 2 300 ++ List.replicate 44 0}
def pk (opc : Nat) (pl : List Byte) : Packet := { dst := 0, src := 4, ktag := 0, win := 3, psn := 4, addr := 0, vc := 6, opc := BitVec.ofNat 6 opc, len := 1, fen := false, cmk := 0, epb := false, dln := 0, twn := false, col := 0, hop := 3, gen := 2, rsv := 0, payload := pl, check := 0 }
def ep (tf v m op e : Nat) : List Byte := leBytes 8 tf ++ leBytes 4 v ++ leBytes 2 m ++ leBytes 1 op ++ leBytes 1 e
def c0 : State := {(b0.wr F.SPG_TF_TF 20000).setPort 80 {st := .active, ident := some idn, rung := 3} with spg := {b0.spg with staged := some bk}}
def am : Armed := ⟨50,5,1,41,true⟩
def ar (p opc : Nat) (l : List Byte) : Arrival := ⟨p, pk opc l, 5⟩
def arrivals0 : List Arrival := [ar 3 0x22 (ep 50 41 5 1 1), ar 3 1 [], ar 80 0x22 (ep 5000 41 5 1 1), ar 80 0x22 (ep 5000 41 5 1 2), ar 80 0x22 (ep 5000 41 5 1 0), ar 80 0x22 (ep 6000 41 4 1 1),  ar 80 0x22 (ep 6000 41 4 2 1)]
def states1 : List State := [c0, c0.wr F.SPG_TF_TF 3, {c0 with spg := {c0.spg with staging := some []}}, b0, {c0 with ports := []}, {c0 with spg := {c0.spg with armed := some am}}, {c0 with spg := {c0.spg with armed := some {am with tf := 6000}}}, {c0 with spg := {c0.spg with armed := some {am with tf := 5000}}}, {c0 with spg := {c0.spg with armed := some {am with op := 2, tf := 60}, rbok := true, previous := some bk}},{c0 with spg := {c0.spg with armed := some am, drain := true, drainEnd := 90}}]
def arrivals0_0 : Arrival := arrivals0[0]'(by decide +kernel)
def arrivals0_1 : Arrival := arrivals0[1]'(by decide +kernel)
def arrivals0_2 : Arrival := arrivals0[2]'(by decide +kernel)
def arrivals0_3 : Arrival := arrivals0[3]'(by decide +kernel)
def arrivals0_4 : Arrival := arrivals0[4]'(by decide +kernel)
def arrivals0_5 : Arrival := arrivals0[5]'(by decide +kernel)
def states0_0 : State := states0[0]'(by decide +kernel)
def states0_2 : State := states0[2]'(by decide +kernel)
def states0_5 : State := states0[5]'(by decide +kernel)
def states0_6 : State := states0[6]'(by decide +kernel)
def states1_0 : State := states1[0]'(by decide +kernel)
def states1_1 : State := states1[1]'(by decide +kernel)
def states1_2 : State := states1[2]'(by decide +kernel)
def states1_4 : State := states1[4]'(by decide +kernel)
def states1_5 : State := states1[5]'(by decide +kernel)
def states1_8 : State := states1[8]'(by decide +kernel)
/-- The hypotheses of Obligations.RoutingImages, its part on image staging. -/
theorem witness_ImageStaging :
    ((Quiet states0_0) ∧ (states0_0.spg.staging = none) ∧ (states0_0.spg.armed = none)) ∧
    ((Quiet states0_2) ∧ (states0_2.spg.staging ≠ none ∨ states0_2.spg.armed ≠ none)) ∧
    ((Quiet states0_2) ∧ (Option.any (fun img => true) states0_2.spg.staging) = true) ∧
    ((Quiet states0_5) ∧ (states0_5.spg.drainEnd ≤ states0_5.nowNs) ∧ (states0_5.spg.drain = true)) ∧
    ((Quiet states0_6) ∧ (states0_6.nowNs < states0_6.spg.drainEnd)) := by
  refine ⟨?_, ?_, ?_, ?_, ?_⟩ <;> decide +kernel
/-- The hypotheses of Obligations.RoutingImages, its part on epoch flips. -/
theorem witness_EpochFlips :
    ((Quiet states1_2) ∧ (1 = 1 ∨ 1 = 2) ∧ (states1_2.spg.armed ≠ none ∨ states1_2.spg.staging ≠ none)) ∧
    ((Quiet states1_0) ∧ (2 = 1 ∨ 2 = 2) ∧ (states1_0.spg.armed = none) ∧ (states1_0.spg.staging = none) ∧ (nextBank states1_0 2 = none)) ∧
    ((Quiet states1_1) ∧ (1 = 1 ∨ 1 = 2) ∧ (states1_1.spg.armed = none) ∧ (states1_1.spg.staging = none) ∧ (Option.any (fun b => decide (states1_1.rd F.SPG_TF_TF < states1_1.nowNs + 10000)) (nextBank states1_1 1)) = true) ∧
    ((Quiet states1_4) ∧ (1 = 1 ∨ 1 = 2) ∧ (states1_4.spg.armed = none) ∧ (states1_4.spg.staging = none) ∧ (Option.any (fun b => decide (states1_4.nowNs + 10000 ≤ states1_4.rd F.SPG_TF_TF) && decide (epochPorts states1_4 = [])) (nextBank states1_4 1)) = true) ∧
    ((Quiet states1_0) ∧ (1 = 1 ∨ 1 = 2) ∧ (states1_0.spg.armed = none) ∧ (states1_0.spg.staging = none) ∧ (Option.any (fun b => decide (states1_0.nowNs + 10000 ≤ states1_0.rd F.SPG_TF_TF) && (decide ((epochPorts states1_0).length = 1) && (epochPorts states1_0).any fun p => true)) (nextBank states1_0 1)) = true) ∧
    ((Quiet states1_8) ∧ (states1_8.spg.rbok = true)) ∧
    ((Quiet states1_0) ∧ (states1_0.spg.rbok = false)) ∧
    ((Quiet states1_0) ∧ (arrivals0_0.pkt.opc = 34) ∧ (arrivals0_0.port < 144) ∧ (let far := 1 ≤ states1_0.role arrivals0_0.port ∧ states1_0.role arrivals0_0.port ≤ 4 ∨ states1_0.role arrivals0_0.port = 5; decide ¬far) = true) ∧
    ((Quiet states1_0) ∧ (arrivals0_3.pkt.opc = 34) ∧ (arrivals0_3.port < 144) ∧ (let far := 1 ≤ states1_0.role arrivals0_3.port ∧ states1_0.role arrivals0_3.port ≤ 4 ∨ states1_0.role arrivals0_3.port = 5; decide far && decide (epochOf (List.take 16 arrivals0_3.pkt.payload) = none)) = true) ∧
    ((Quiet states1_0) ∧ (arrivals0_4.pkt.opc = 34) ∧ (arrivals0_4.port < 144) ∧ (let far := 1 ≤ states1_0.role arrivals0_4.port ∧ states1_0.role arrivals0_4.port ≤ 4 ∨ states1_0.role arrivals0_4.port = 5; Option.any (fun e => decide far && decide (epochMatches states1_0 e = false)) (epochOf (List.take 16 arrivals0_4.pkt.payload))) = true) ∧
    ((Quiet states1_0) ∧ (arrivals0_2.pkt.opc = 34) ∧ (arrivals0_2.port < 144) ∧ (let far := 1 ≤ states1_0.role arrivals0_2.port ∧ states1_0.role arrivals0_2.port ≤ 4 ∨ states1_0.role arrivals0_2.port = 5; Option.any (fun e => decide far && (decide (epochMatches states1_0 e = true) && decide (states1_0.spg.armed = none))) (epochOf (List.take 16 arrivals0_2.pkt.payload))) = true) ∧
    ((Quiet states1_8) ∧ (arrivals0_2.pkt.opc = 34) ∧ (arrivals0_2.port < 144) ∧ (let far := 1 ≤ states1_8.role arrivals0_2.port ∧ states1_8.role arrivals0_2.port ≤ 4 ∨ states1_8.role arrivals0_2.port = 5; Option.any (fun e => decide far && (decide (epochMatches states1_8 e = true) && Option.any (fun x => decide ¬(e.op = x.op ∧ e.version = x.version ∧ e.newEpb = x.newEpb)) states1_8.spg.armed)) (epochOf (List.take 16 arrivals0_2.pkt.payload))) = true) ∧
    ((Quiet states1_5) ∧ (arrivals0_2.pkt.opc = 34) ∧ (arrivals0_2.port < 144) ∧ (let far := 1 ≤ states1_5.role arrivals0_2.port ∧ states1_5.role arrivals0_2.port ≤ 4 ∨ states1_5.role arrivals0_2.port = 5; Option.any (fun e => decide far && (decide (epochMatches states1_5 e = true) && Option.any (fun x => decide (e.op = x.op) && (decide (e.version = x.version) && (decide (e.newEpb = x.newEpb) && decide (e.tf = x.tf ∨ x.master ≤ e.master)))) states1_5.spg.armed)) (epochOf (List.take 16 arrivals0_2.pkt.payload))) = true) ∧
    ((Quiet states1_5) ∧ (arrivals0_5.pkt.opc = 34) ∧ (arrivals0_5.port < 144) ∧ (let far := 1 ≤ states1_5.role arrivals0_5.port ∧ states1_5.role arrivals0_5.port ≤ 4 ∨ states1_5.role arrivals0_5.port = 5; Option.any (fun e => decide far && (decide (epochMatches states1_5 e = true) && Option.any (fun x => decide (e.op = x.op) && (decide (e.version = x.version) && (decide (e.newEpb = x.newEpb) && (decide (e.tf ≠ x.tf) && decide (e.master < x.master))))) states1_5.spg.armed)) (epochOf (List.take 16 arrivals0_5.pkt.payload))) = true) ∧
    ((Quiet states1_0) ∧ (arrivals0_1.pkt.opc ≠ 34)) ∧
    ((Quiet states1_5) ∧ (Option.any (fun a => Option.any (fun b => decide (a.tf ≤ states1_5.nowNs) && decide (states1_5.spg.drain = false ∨ states1_5.spg.drainEnd ≤ states1_5.nowNs)) (nextBank states1_5 a.op)) states1_5.spg.armed) = true) ∧
    ((Quiet states1_0) ∧ (states1_0.spg.armed = none ∨ ∃ a, states1_0.spg.armed = some a ∧ (states1_0.nowNs < a.tf ∨ states1_0.spg.drain = true ∧ states1_0.nowNs < states1_0.spg.drainEnd))) := by
  refine ⟨?_, ?_, ?_, ?_, ?_, ?_, ?_, ?_, ?_, ?_, ?_, ?_, ?_, ?_, ?_, ?_, ?_⟩ <;> decide +kernel
end Image

namespace Boot
def im : List Byte := leBytes 4 0x31534C4B ++ List.replicate 100 9
def accessors0 : List Accessor := [.monitor, .firmware, .debug]
def flashSlots0 : List FlashSlot := [{responds := true, bytes := im}, {responds := false, bytes := []}]
def b0 : State := {upS with time := 9000*77}
def km (m : KMode) (s : State) : State := {s with klp := {s.klp with mode := m}}
def sq (l : List SeqOp) (m : KMode) : State := {b0 with klp := {b0.klp with seqAt := some 3, seqOps := l, mode := m}}
def states0 : List State := [b0, {b0 with pwr := {b0.pwr with seq := .off}}, km .monitor b0, km .running b0, (km .monitor b0).wr F.MON_LOCK_LOCKED 1, (b0.wr F.HND_SEV_SEV0 1 90),
  {sq [.monLock 3] .monitor with ref := 9*10^30}, sq [] .rom, sq [.lifecycle 1] .running, (sq [.monLock 3] .running).wr F.MON_LOCK_LOCKED 1, sq [.monLock 3] .running, sq [.monLock 3] .monitor, {sq [.monLock 3] .monitor with klp := {(sq [.monLock 3] .monitor).klp with policyIn := true}},
  {sq [.monLock 3] .monitor with cryptoErr := true}]
def states1 : List State := [b0, {b0 with cryptoErr := true}, {b0 with klp := {b0.klp with lcs := 3}}, (b0.wr F.MON_LOCK_LOCKED 1).wr F.MON_LOCK_SIZE 2, {b0 with klp := {b0.klp with bootSvn := 3, fwSvn := 6, svnBoot := 1}}]
def states2 : List State := [b0, ((b0.wr F.HND_SEV_SEV3 1 0).wr F.HND_SEV_SEV1 1 0).wr F.MON_LINKSEC_EN 1 80, {b0 with cryptoErr := true}, {b0 with knl := [(1,{st := .open, key := some 3})], klp := {b0.klp with keys := [(9,[])]}},(b0.wr F.RTE_RSET_OWN_KTAG 3 4).wr F.RTE_RSET_OWN_VALID 1 4, b0.setPort 80 {st := .active}, b0.wr F.SPG_FLOOR_VERSION 7]
def accessors0_1 : Accessor := accessors0[1]'(by decide +kernel)
def flashSlots0_0 : FlashSlot := flashSlots0[0]'(by decide +kernel)
def states0_0 : State := states0[0]'(by decide +kernel)
def states0_1 : State := states0[1]'(by decide +kernel)
def states0_10 : State := states0[10]'(by decide +kernel)
def states0_11 : State := states0[11]'(by decide +kernel)
def states0_6 : State := states0[6]'(by decide +kernel)
def states0_7 : State := states0[7]'(by decide +kernel)
def states0_8 : State := states0[8]'(by decide +kernel)
def states0_9 : State := states0[9]'(by decide +kernel)
def states1_0 : State := states1[0]'(by decide +kernel)
def states1_1 : State := states1[1]'(by decide +kernel)
def states1_2 : State := states1[2]'(by decide +kernel)
def states1_3 : State := states1[3]'(by decide +kernel)
def states2_0 : State := states2[0]'(by decide +kernel)
def states2_3 : State := states2[3]'(by decide +kernel)
/-- The hypotheses of Obligations.BootAndLock. -/
theorem witness_BootAndLock :
    ((Quiet states0_0) ∧ (states0_0.klp.mode = KMode.rom) ∧ (inReset states0_0 = false) ∧ (slotCode states0_0 flashSlots0_0 ≠ 0) ∧ (slotCode states0_0 flashSlots0_0 ≠ 0) ∧ (stickyBit states0_0 730 = false)) ∧
    ((Quiet states0_1) ∧ (states0_1.klp.mode ≠ KMode.rom ∨ inReset states0_1 = true)) ∧
    ((Quiet states0_1) ∧ (inReset states0_1 = true)) ∧
    ((Quiet states0_0) ∧ (states0_0.rd F.MON_LOCK_LOCKED = 1 ∨ states0_0.klp.seqAt = none)) ∧
    ((Quiet states0_6) ∧ (states0_6.rd F.MON_LOCK_LOCKED = 0) ∧ (states0_6.klp.seqAt ≠ none)) ∧
    ((Quiet states0_0) ∧ (accessors0_1 ≠ Accessor.monitor) ∧ (quietSource states0_0 720 = false) ∧ (stickyBit states0_0 720 = false) ∧ (effSev states0_0 720 ≤ 1)) ∧
    ((Quiet states0_0) ∧ (states0_0.klp.seqAt = none)) ∧
    ((Quiet states0_6) ∧ (Option.any (fun at_ => true) states0_6.klp.seqAt) = true) ∧
    ((Quiet states0_6) ∧ (Option.any (fun at_ => decide (at_ + 9000000000 ≤ states0_6.clock)) states0_6.klp.seqAt) = true) ∧
    ((Quiet states0_7) ∧ (Option.any (fun at_ => decide (states0_7.clock < at_ + 9000000000) && decide (states0_7.klp.seqOps = [])) states0_7.klp.seqAt) = true) ∧
    ((Quiet states0_8) ∧ (Option.any (fun at_ => decide (states0_8.clock < at_ + 9000000000) && decide (states0_8.klp.seqOps = [SeqOp.lifecycle 1])) states0_8.klp.seqAt) = true) ∧
    ((Quiet states0_9) ∧ (Option.any (fun at_ => decide (states0_9.clock < at_ + 9000000000) && (decide (states0_9.klp.seqOps = [SeqOp.monLock 3]) && decide (states0_9.rd F.MON_LOCK_LOCKED = 1))) states0_9.klp.seqAt) = true) ∧
    ((Quiet states0_10) ∧ (Option.any (fun at_ => decide (states0_10.clock < at_ + 9000000000) && (decide (states0_10.klp.seqOps = [SeqOp.monLock 3]) && (decide (states0_10.rd F.MON_LOCK_LOCKED = 0) && decide (states0_10.klp.mode ≠ KMode.monitor)))) states0_10.klp.seqAt) = true) ∧
    ((Quiet states0_11) ∧ (Option.any (fun at_ => decide (states0_11.clock < at_ + 9000000000) && (decide (states0_11.klp.seqOps = [SeqOp.monLock 3]) && (decide (states0_11.rd F.MON_LOCK_LOCKED = 0) && (decide (states0_11.klp.mode = KMode.monitor) && decide (states0_11.klp.links = []))))) states0_11.klp.seqAt) = true) := by
  refine ⟨?_, ?_, ?_, ?_, ?_, ?_, ?_, ?_, ?_, ?_, ?_, ?_, ?_, ?_⟩ <;> decide +kernel
/-- The hypotheses of Obligations.DebugAndMonitor, its part on debug and firmware. -/
theorem witness_DebugAndFirmware :
    ((Quiet states1_0) ∧ (states1_0.cryptoErr = false)) ∧
    ((Quiet states1_1) ∧ (states1_1.cryptoErr = true)) ∧
    ((Quiet states1_2) ∧ (servesCalls states1_2 = true) ∧ ((3#64).toNat < 2 ^ 40) ∧ (states1_2.rd F.MON_LOCK_LOCKED = 0 ∨ 4096 * states1_2.rd F.MON_LOCK_SIZE ≤ (3#64).toNat) ∧ ((4#64).toNat ≤ 4) ∧ ((4#64).toNat = states1_2.klp.lcs + 1) ∧ (4#64 ≠ 3)) ∧
    ((Quiet states1_0) ∧ (servesCalls states1_0 = true) ∧ ((3#64).toNat < 2 ^ 40) ∧ (states1_0.rd F.MON_LOCK_LOCKED = 0 ∨ 4096 * states1_0.rd F.MON_LOCK_SIZE ≤ (3#64).toNat) ∧ ((3#64).toNat ≤ 4) ∧ ((3#64).toNat = states1_0.klp.lcs + 1) ∧ (3#64 = 3)) ∧
    ((Quiet states1_0) ∧ (servesCalls states1_0 = true) ∧ ((3#64).toNat < 2 ^ 40) ∧ (states1_0.rd F.MON_LOCK_LOCKED = 0 ∨ 4096 * states1_0.rd F.MON_LOCK_SIZE ≤ (3#64).toNat) ∧ ((0#64).toNat ≤ 4) ∧ ((0#64).toNat ≠ states1_0.klp.lcs + 1)) ∧
    ((Quiet states1_0) ∧ (servesCalls states1_0 = true) ∧ (2 ^ 40 ≤ (2199023255552#64).toNat)) ∧
    ((Quiet states1_3) ∧ (servesCalls states1_3 = true) ∧ (states1_3.rd F.MON_LOCK_LOCKED = 1) ∧ (827542603#8 :: (leBytes 3 (827542603 / 256)).append (List.replicate 100 9) ≠ []) ∧ ((3#64).toNat < 4096 * states1_3.rd F.MON_LOCK_SIZE) ∧ ((3#64).toNat < 2 ^ 40)) ∧
    ((Quiet states1_0) ∧ (servesCalls states1_0 = true) ∧ (4 < (6#64).toNat)) ∧
    ((Quiet states1_0) ∧ (states1_0.klp.seqAt = none)) ∧
    ((Quiet states1_0) ∧ (servesCalls states1_0 = true) ∧ ((0#64).toNat < 2 ^ 32) ∧ ((0#64).toNat < 2 ^ 32) ∧ (states1_0.klp.svnBoot ≤ (0#64).toNat) ∧ (states1_0.klp.svnFw ≤ (0#64).toNat) ∧ ((0#64).toNat ≤ states1_0.klp.bootSvn) ∧ ((0#64).toNat ≤ states1_0.klp.fwSvn)) ∧
    ((Quiet states1_0) ∧ (servesCalls states1_0 = true) ∧ ((3#64).toNat < 2 ^ 32) ∧ ((3#64).toNat < 2 ^ 32) ∧ ((3#64).toNat < states1_0.klp.svnBoot ∨ (3#64).toNat < states1_0.klp.svnFw ∨ states1_0.klp.bootSvn < (3#64).toNat ∨ states1_0.klp.fwSvn < (3#64).toNat)) := by
  refine ⟨?_, ?_, ?_, ?_, ?_, ?_, ?_, ?_, ?_, ?_, ?_⟩ <;> decide +kernel
/-- The hypotheses of Obligations.DebugAndMonitor, its part on monitor settings. -/
theorem witness_MonitorSettings :
    ((Served states2_0) ∧ (742 ≤ (3#64).toNat ∨ 2 ≤ (3#64).toNat)) ∧
    ((Served states2_0) ∧ ((3#64).toNat < 742)) ∧
    ((Served states2_3) ∧ ((738#64).toNat < 742) ∧ (5 ≤ effSev states2_3 (738#64).toNat) ∧ ((List.any states2_3.knl fun x => x.snd.st != KSt.free) = true)) ∧
    ((Served states2_0) ∧ ((3#64).toNat < 712) ∧ (quietSource states2_0 (3#64).toNat = false) ∧ (stickyBit states2_0 (3#64).toNat = false) ∧ (effSev states2_0 (3#64).toNat ≤ 1)) ∧
    ((Served states2_0) ∧ (144 ≤ (3#64).toNat ∨ 2 ≤ (3#64).toNat)) ∧
    ((Served states2_0) ∧ ((3#64).toNat < 144) ∧ ((0#64).toNat < 2) ∧ (isHall (states2_0.role (3#64).toNat) = false)) ∧
    ((Served states2_0) ∧ ((80#64).toNat < 144) ∧ ((0#64).toNat < 2) ∧ (isHall (states2_0.role (80#64).toNat) = true) ∧ (states2_0.rd F.MON_LINKSEC_EN (80#64).toNat = (0#64).toNat)) ∧
    ((Served states2_0) ∧ ((80#64).toNat < 144) ∧ ((1#64).toNat < 2) ∧ (isHall (states2_0.role (80#64).toNat) = true) ∧ (states2_0.rd F.MON_LINKSEC_EN (80#64).toNat ≠ (1#64).toNat)) := by
  refine ⟨?_, ?_, ?_, ?_, ?_, ?_, ?_, ?_⟩ <;> decide +kernel
end Boot

namespace Security
def idn : Ident := ⟨1,2,3,4,9⟩
def pk (opc addr len : Nat) (pl : List Byte) : Packet := { dst := 0, src := 9, ktag := 0, win := 3, psn := 4, addr := BitVec.ofNat 48 addr, vc := 6, opc := BitVec.ofNat 6 opc, len := BitVec.ofNat 9 len, fen := false, cmk := 0, epb := false, dln := 0, twn := false, col := 0, hop := 3, gen := 2, rsv := 0, payload := pl, check := 0 }
def fr (m total off n : Nat) : Arrival := ⟨80, pk 0x20 0xFFFFFFFFFD00 2 (leBytes 4 m ++ leBytes 4 total ++ leBytes 4 off ++ leBytes 4 0 ++ (List.range n).map fun i => BitVec.ofNat 8 i), 5⟩
def ars : List Arrival := [fr 1 1800 0 1800, fr 2 2000 0 2000, fr 3 100 0 100, fr 1 5000 0 4080, fr 9 100 0 100, {fr 1 100 0 100 with port := 3}, {fr 1 10 0 10 with pkt := {(fr 1 10 0 10).pkt with len := 0}}, {fr 1 10 0 10 with pkt := {(fr 1 10 0 10).pkt with len := 0, addr := 0xFFFFFFFFFE00}}, {fr 1 10 0 10 with port := 3, pkt := {(fr 1 10 0 10).pkt with len := 0, addr := 0xFFFFFFFFFE00}},
  ⟨80, pk 0x20 0xFFFFFFFFFE00 2 (leBytes 8 7 ++ leBytes 8 3 ++ List.replicate 16 0), 4⟩, ⟨80, pk 0x20 0xFFFFFFFFFE00 2 (leBytes 8 6 ++ leBytes 8 3 ++ List.replicate 16 0), 4⟩]
def arrivals0 : List Arrival := ars
def km (m : KMode) (s : State) : State := {s with klp := {s.klp with mode := m}}
def b0 (k : LinkSec) : State := {((km .running upS).wr F.MON_LINKSEC_STATE 2 80).setPort 80 {st := .active, ident := some idn} with time := 9000*77, klp := {upS.klp with mode := .running, links := [(80,k)]}}
def qs : List State := [b0 {initiator := true, msgs := 1}, b0 {initiator := false}, b0 {initiator := false, msgs := 2}, (b0 {initiator := true}).setPort 80 {}, {b0 {initiator := false} with cryptoErr := true}, {b0 {initiator := true, msgs := 1} with cryptoErr := true}]
def states0 : List State := qs
def kq : LinkSec := {slot := some ⟨[1],[2],[3],[4]⟩, rxRec := 7, rxTags := List.replicate 5 (List.replicate 16 0), txCount := 3, txRec := 2}
def ks : List LinkSec := [kq, {}, {kq with rxOld := some (7, List.replicate 3 (List.replicate 16 0))}, {kq with rxOld := some (7, List.replicate 4 (List.replicate 16 0))},{kq with txCount := 255, txKeys := some ([1],[2],3), rxKeys := some ([4],[5],6)},{kq with txKeys := some ([1],[2],3), txSent := 9}]
def states1 : List State := ks.map b0 ++ ks.map fun k => (b0 k).setPort 80 {st := .active, ident := some idn, forced := true}
def sp (n : Nat) : State := {km .running upS with klp := {upS.klp with mode := .running, spdm := n, transcript := [7], ids := [idSlot [1], idSlot [2], idSlot [3]]}}
def states2 : List State := [sp 0, sp 1, sp 2, sp 3, upS, {sp 3 with cryptoErr := true}]
def arrivals0_0 : Arrival := arrivals0[0]'(by decide +kernel)
def arrivals0_1 : Arrival := arrivals0[1]'(by decide +kernel)
def arrivals0_10 : Arrival := arrivals0[10]'(by decide +kernel)
def arrivals0_2 : Arrival := arrivals0[2]'(by decide +kernel)
def arrivals0_3 : Arrival := arrivals0[3]'(by decide +kernel)
def arrivals0_5 : Arrival := arrivals0[5]'(by decide +kernel)
def arrivals0_6 : Arrival := arrivals0[6]'(by decide +kernel)
def arrivals0_7 : Arrival := arrivals0[7]'(by decide +kernel)
def arrivals0_9 : Arrival := arrivals0[9]'(by decide +kernel)
def states0_0 : State := states0[0]'(by decide +kernel)
def states0_1 : State := states0[1]'(by decide +kernel)
def states0_2 : State := states0[2]'(by decide +kernel)
def states0_4 : State := states0[4]'(by decide +kernel)
def states1_0 : State := states1[0]'(by decide +kernel)
def states1_1 : State := states1[1]'(by decide +kernel)
def states1_4 : State := states1[4]'(by decide +kernel)
def states1_5 : State := states1[5]'(by decide +kernel)
def states2_0 : State := states2[0]'(by decide +kernel)
def states2_1 : State := states2[1]'(by decide +kernel)
def states2_2 : State := states2[2]'(by decide +kernel)
def states2_3 : State := states2[3]'(by decide +kernel)
def states2_4 : State := states2[4]'(by decide +kernel)
def states2_5 : State := states2[5]'(by decide +kernel)
/-- The hypotheses of Obligations.LinkSecurity, its part on link key exchange. -/
theorem witness_LinkKeyExchange :
    ((Quiet states0_0) ∧ (0 = 0 ∨ 0 = 1) ∧ (isFunction arrivals0_7.pkt (if 0 = 0 then 281474976709888 else 281474976710144) = false)) ∧
    ((Quiet states0_0) ∧ (0 = 0 ∨ 0 = 1) ∧ (isFunction arrivals0_5.pkt (if 0 = 0 then 281474976709888 else 281474976710144) = true) ∧ (fromFar states0_0 arrivals0_5 = false)) ∧
    ((Quiet states0_0) ∧ (0 = 0 ∨ 0 = 1) ∧ (isFunction arrivals0_6.pkt (if 0 = 0 then 281474976709888 else 281474976710144) = true) ∧ (fromFar states0_0 arrivals0_6 = true) ∧ (arrivals0_6.pkt.len = 0)) ∧
    ((Quiet states0_1) ∧ (isFunction arrivals0_3.pkt 281474976709888 = true) ∧ (fromFar states0_1 arrivals0_3 = true) ∧ (1 ≤ arrivals0_3.pkt.len.toNat) ∧ (monitorRuns states0_1 = true) ∧ (Option.any (fun k => decide (states0_1.rd F.MON_LINKSEC_STATE arrivals0_3.port ≠ 3) && (decide (k.inTotal = 0) && (decide (k.inFrags = []) && (decide (field arrivals0_3.pkt.payload 8 4 = 0) && (decide (field arrivals0_3.pkt.payload 12 4 = 0) && (decide (0 < field arrivals0_3.pkt.payload 4 4) && (decide (field arrivals0_3.pkt.payload 0 4 = k.awaits) && (decide (k.awaits ≠ 0) && decide (4080 < field arrivals0_3.pkt.payload 4 4))))))))) (states0_1.linkSec arrivals0_3.port)) = true) ∧
    ((Quiet states0_0) ∧ (isFunction arrivals0_0.pkt 281474976709888 = true) ∧ (fromFar states0_0 arrivals0_0 = true) ∧ (1 ≤ arrivals0_0.pkt.len.toNat) ∧ (monitorRuns states0_0 = true) ∧ (Option.any (fun k => decide (states0_0.rd F.MON_LINKSEC_STATE arrivals0_0.port ≠ 3) && (decide (k.inTotal = 0) && (decide (k.inFrags = []) && (decide (field arrivals0_0.pkt.payload 8 4 = 0) && (decide (field arrivals0_0.pkt.payload 12 4 = 0) && (decide (0 < field arrivals0_0.pkt.payload 4 4) && decide (field arrivals0_0.pkt.payload 0 4 ≠ k.awaits))))))) (states0_0.linkSec arrivals0_0.port)) = true) ∧
    ((Quiet states0_1) ∧ (isFunction arrivals0_0.pkt 281474976709888 = true) ∧ (fromFar states0_1 arrivals0_0 = true) ∧ (1 ≤ arrivals0_0.pkt.len.toNat) ∧ (monitorRuns states0_1 = true) ∧ (Option.any (fun k => decide (states0_1.rd F.MON_LINKSEC_STATE arrivals0_0.port ≠ 3) && (decide (k.inTotal = 0) && (decide (k.inFrags = []) && (decide (field arrivals0_0.pkt.payload 8 4 = 0) && (decide (field arrivals0_0.pkt.payload 12 4 = 0) && (decide (0 < field arrivals0_0.pkt.payload 4 4) && (decide (states0_1.cryptoErr = false) && (decide (field arrivals0_0.pkt.payload 4 4 ≤ 4080) && (decide ((List.take (field arrivals0_0.pkt.payload 4 4) (List.drop 16 arrivals0_0.pkt.payload)).length = field arrivals0_0.pkt.payload 4 4) && (decide (k.awaits = 1) && decide (field arrivals0_0.pkt.payload 0 4 = 1))))))))))) (states0_1.linkSec arrivals0_0.port)) = true) ∧
    ((Quiet states0_2) ∧ (isFunction arrivals0_2.pkt 281474976709888 = true) ∧ (fromFar states0_2 arrivals0_2 = true) ∧ (1 ≤ arrivals0_2.pkt.len.toNat) ∧ (monitorRuns states0_2 = true) ∧ (Option.any (fun k => decide (states0_2.rd F.MON_LINKSEC_STATE arrivals0_2.port ≠ 3) && (decide (k.inTotal = 0) && (decide (k.inFrags = []) && (decide (field arrivals0_2.pkt.payload 8 4 = 0) && (decide (field arrivals0_2.pkt.payload 12 4 = 0) && (decide (0 < field arrivals0_2.pkt.payload 4 4) && (decide (states0_2.cryptoErr = false) && (decide (states0_2.klp.seqAt = none) && (decide (field arrivals0_2.pkt.payload 4 4 ≤ 4080) && (decide ((List.take (field arrivals0_2.pkt.payload 4 4) (List.drop 16 arrivals0_2.pkt.payload)).length = field arrivals0_2.pkt.payload 4 4) && (decide (k.awaits = 3) && (decide (field arrivals0_2.pkt.payload 0 4 = 3) && (decide (stickyBit states0_2 (432 + arrivals0_2.port) = false) && decide (effSev states0_2 (432 + arrivals0_2.port) ≤ 1)))))))))))))) (states0_2.linkSec arrivals0_2.port)) = true) ∧
    ((Quiet states0_4) ∧ (isFunction arrivals0_0.pkt 281474976709888 = true) ∧ (fromFar states0_4 arrivals0_0 = true) ∧ (1 ≤ arrivals0_0.pkt.len.toNat) ∧ (monitorRuns states0_4 = true) ∧ (Option.any (fun k => decide (states0_4.rd F.MON_LINKSEC_STATE arrivals0_0.port ≠ 3) && (decide (k.inTotal = 0) && (decide (k.inFrags = []) && (decide (field arrivals0_0.pkt.payload 8 4 = 0) && (decide (field arrivals0_0.pkt.payload 12 4 = 0) && (decide (0 < field arrivals0_0.pkt.payload 4 4) && (decide (states0_4.cryptoErr = true) && (decide (field arrivals0_0.pkt.payload 4 4 ≤ 4080) && (decide ((List.take (field arrivals0_0.pkt.payload 4 4) (List.drop 16 arrivals0_0.pkt.payload)).length = field arrivals0_0.pkt.payload 4 4) && (decide (k.awaits ≠ 0) && decide (field arrivals0_0.pkt.payload 0 4 = k.awaits))))))))))) (states0_4.linkSec arrivals0_0.port)) = true) ∧
    ((Quiet states0_0) ∧ (isFunction arrivals0_1.pkt 281474976709888 = true) ∧ (fromFar states0_0 arrivals0_1 = true) ∧ (1 ≤ arrivals0_1.pkt.len.toNat) ∧ (monitorRuns states0_0 = true) ∧ (Option.any (fun k => decide (states0_0.rd F.MON_LINKSEC_STATE arrivals0_1.port ≠ 3) && (decide (k.inTotal = 0) && (decide (k.inFrags = []) && (decide (field arrivals0_1.pkt.payload 8 4 = 0) && (decide (field arrivals0_1.pkt.payload 12 4 = 0) && (decide (0 < field arrivals0_1.pkt.payload 4 4) && (decide (states0_0.cryptoErr = false) && (decide (states0_0.klp.seqAt = none) && (decide (field arrivals0_1.pkt.payload 4 4 ≤ 4080) && (decide ((List.take (field arrivals0_1.pkt.payload 4 4) (List.drop 16 arrivals0_1.pkt.payload)).length = field arrivals0_1.pkt.payload 4 4) && (decide (k.awaits = 2) && (decide (field arrivals0_1.pkt.payload 0 4 = 2) && (decide (stickyBit states0_0 (432 + arrivals0_1.port) = false) && decide (effSev states0_0 (432 + arrivals0_1.port) ≤ 1)))))))))))))) (states0_0.linkSec arrivals0_1.port)) = true) ∧
    ((Quiet states0_0) ∧ (80 < 144) ∧ (Option.any (fun k => decide (states0_0.portUp 80 = true) && (decide (states0_0.rd F.MON_LINKSEC_STATE 80 = 2) && (decide (k.initiator = true) && (decide (monitorRuns states0_0 = true) && decide (states0_0.cryptoErr = false))))) (states0_0.linkSec 80)) = true) ∧
    ((Quiet states0_1) ∧ (80 < 144) ∧ (Option.any (fun k => decide (states0_1.portUp 80 = false ∨ states0_1.rd F.MON_LINKSEC_STATE 80 ≠ 2 ∨ k.initiator = false)) (states0_1.linkSec 80)) = true) := by
  refine ⟨?_, ?_, ?_, ?_, ?_, ?_, ?_, ?_, ?_, ?_, ?_⟩ <;> decide +kernel
/-- The hypotheses of Obligations.LinkSecurity, its part on link records. -/
theorem witness_LinkRecords :
    ((Quiet states1_0) ∧ (80 < 144) ∧ (Option.any (fun k => Option.any (fun f => decide (states1_0.portUp 80 = true) && decide (k.txCount ≠ 0)) (states1_0.port 80).ident) (states1_0.linkSec 80)) = true) ∧
    ((Quiet states1_1) ∧ (80 < 144) ∧ (Option.any (fun k => decide (states1_1.portUp 80 = false ∨ k.txCount = 0)) (states1_1.linkSec 80)) = true) ∧
    ((Quiet states1_5) ∧ (80 < 144) ∧ (Option.any (fun k => decide (k.initiator = false) && Option.any (fun x => decide (k.txNext = none) && decide (k.txCount < 255)) k.txKeys) (states1_5.linkSec 80)) = true) ∧
    ((Quiet states1_4) ∧ (80 < 144) ∧ (Option.any (fun k => decide (k.initiator = false) && Option.any (fun x => decide (k.txNext = none) && decide (255 ≤ k.txCount)) k.txKeys) (states1_4.linkSec 80)) = true) ∧
    ((Quiet states1_4) ∧ (80 < 144) ∧ (Option.any (fun k => decide (k.initiator = false) && Option.any (fun x => decide (k.rxNext = none)) k.rxKeys) (states1_4.linkSec 80)) = true) ∧
    ((Quiet states1_1) ∧ (80 < 144) ∧ (Option.any (fun k => decide (states1_1.portUp 80 = false ∨ k.keyed = false ∨ k.unchecked.snd = [])) (states1_1.linkSec 80)) = true) ∧
    ((Quiet states1_0) ∧ (80 < 144) ∧ (Option.any (fun k => decide (states1_0.portUp 80 = true) && (decide (k.keyed = true) && (decide (k.unchecked.snd ≠ []) && (decide ((states1_0.port 80).forced = false) && (decide (stickyBit states1_0 (432 + 80) = false) && decide (effSev states1_0 (432 + 80) ≤ 1)))))) (states1_0.linkSec 80)) = true) ∧
    ((Quiet states1_0) ∧ (80 < 144) ∧ (Option.any (fun k => decide (arrivals0_9.port = 80) && (decide (isFunction arrivals0_9.pkt 281474976710144 = true) && (decide (fromFar states1_0 arrivals0_9 = true) && (decide (arrivals0_9.pkt.len = 2) && decide (k.rxOld = none))))) (states1_0.linkSec 80)) = true) ∧
    ((Quiet states1_1) ∧ (80 < 144) ∧ (Option.any (fun k => decide (arrivals0_9.port = 80) && (decide (isFunction arrivals0_9.pkt 281474976710144 = true) && (decide (fromFar states1_1 arrivals0_9 = true) && (decide (arrivals0_9.pkt.len = 2) && decide (k.keyed = false))))) (states1_1.linkSec 80)) = true) ∧
    ((Quiet states1_0) ∧ (80 < 144) ∧ (Option.any (fun k => decide (arrivals0_9.port = 80) && (decide (isFunction arrivals0_9.pkt 281474976710144 = true) && (decide (fromFar states1_0 arrivals0_9 = true) && (decide (arrivals0_9.pkt.len = 2) && let agrees := field arrivals0_9.pkt.payload 0 8 = k.unchecked.fst ∧ 1 ≤ field arrivals0_9.pkt.payload 8 8 ∧ field arrivals0_9.pkt.payload 8 8 ≤ k.unchecked.snd.length ∧ List.foldl (fun x y => List.zipWith (fun x1 x2 => x1 ^^^ x2) x y) (List.replicate 16 0) (List.take (field arrivals0_9.pkt.payload 8 8) k.unchecked.snd) = List.take 16 (List.drop 16 arrivals0_9.pkt.payload); decide (k.keyed = true) && decide agrees)))) (states1_0.linkSec 80)) = true) ∧
    ((Quiet states1_0) ∧ (80 < 144) ∧ (Option.any (fun k => decide (arrivals0_10.port = 80) && (decide (isFunction arrivals0_10.pkt 281474976710144 = true) && (decide (fromFar states1_0 arrivals0_10 = true) && (decide (arrivals0_10.pkt.len = 2) && let agrees := field arrivals0_10.pkt.payload 0 8 = k.unchecked.fst ∧ 1 ≤ field arrivals0_10.pkt.payload 8 8 ∧ field arrivals0_10.pkt.payload 8 8 ≤ k.unchecked.snd.length ∧ List.foldl (fun x y => List.zipWith (fun x1 x2 => x1 ^^^ x2) x y) (List.replicate 16 0) (List.take (field arrivals0_10.pkt.payload 8 8) k.unchecked.snd) = List.take 16 (List.drop 16 arrivals0_10.pkt.payload); decide (k.keyed = true) && (decide ¬agrees && (decide (stickyBit states1_0 (432 + 80) = false) && decide (effSev states1_0 (432 + 80) ≤ 1))))))) (states1_0.linkSec 80)) = true) := by
  refine ⟨?_, ?_, ?_, ?_, ?_, ?_, ?_, ?_, ?_, ?_, ?_⟩ <;> decide +kernel
/-- The hypotheses of Obligations.AttestationMessages, its part on attestation. -/
theorem witness_Attestation :
    ((Quiet states2_4) ∧ (states2_4.klp.mode ≠ KMode.running)) ∧
    ((Quiet states2_0) ∧ (states2_0.klp.mode = KMode.running) ∧ (states2_0.klp.spdm < 1)) ∧
    ((Quiet states2_1) ∧ (states2_1.klp.mode = KMode.running) ∧ (1 ≤ states2_1.klp.spdm)) ∧
    ((Quiet states2_0) ∧ (states2_0.klp.mode = KMode.running) ∧ (states2_0.klp.spdm < 2)) ∧
    ((Quiet states2_2) ∧ (states2_2.klp.mode = KMode.running) ∧ (2 ≤ states2_2.klp.spdm)) ∧
    ((Quiet states2_0) ∧ (states2_0.klp.mode = KMode.running) ∧ (states2_0.klp.spdm < 3)) ∧
    ((Quiet states2_3) ∧ (states2_3.klp.mode = KMode.running) ∧ (3 ≤ states2_3.klp.spdm) ∧ (3#8 ≠ 0) ∧ (states2_3.cryptoErr = false)) ∧
    ((Quiet states2_5) ∧ (states2_5.klp.mode = KMode.running) ∧ (3 ≤ states2_5.klp.spdm) ∧ (states2_5.cryptoErr = true)) ∧
    ((Quiet states2_3) ∧ (states2_3.klp.mode = KMode.running) ∧ (3 ≤ states2_3.klp.spdm) ∧ (states2_3.cryptoErr = false) ∧ (8 ≤ (8#8).toNat) ∧ (8#8 ≠ 255)) ∧
    ((Quiet states2_3) ∧ (states2_3.klp.mode = KMode.running) ∧ (3 ≤ states2_3.klp.spdm) ∧ (states2_3.cryptoErr = false) ∧ ((0#8).toNat < 8 ∨ 0#8 = 255)) := by
  refine ⟨?_, ?_, ?_, ?_, ?_, ?_, ?_, ?_, ?_, ?_⟩ <;> decide +kernel
end Security

namespace Tray
def lf (typ : BitVec 4) (mode posa : Bool) (claim : W16) : LeashFrame :=
  let f : LeashFrame := { typ := typ, mode := mode, posa := posa, rsv := 0, lser := 5, claim := claim, crc := 0 }
  { f with crc := BitVec.ofNat 8 (crcMsb 8 0x07 0 (leashBody f)) }
def leashFrames0 : List LeashFrame := [lf 1 false true 9, lf 2 false true 9, lf 1 true true 9, lf 2 true true 9, {lf 1 true true 9 with crc := 0}, lf 1 false true 2]
def y0 (y : TrayCtl) : State := {upS.wr F.TWN_LCTL_ENABLE 1 with tray := y}
def ys : List TrayCtl := [{}, {holder := true, claim := 4, highC := some 4}, {claiming := true, claim := 6, highC := some 5}, {claiming := true, strapA := false, actA := some true}]
def sts : List State := ys.map y0 ++ (ys.map fun y => (y0 y).wr F.TWN_LCTL_MODE 1) ++ [(y0 {}).wr F.TWN_LCTL_ENABLE 0]
def states0 : List State := sts
def idn : Ident := ⟨1,2,3,4,9⟩
def pk (addr len : Nat) (pl : List Byte) : Packet := { dst := 0, src := BitVec.ofNat 16 (mateEid {upS with spg := {upS.spg with active := {regs := [(fkey F.RTE_SELF_SELF 0, 100)]}}}), ktag := 0, win := 3, psn := 4, addr := BitVec.ofNat 48 addr, vc := 6, opc := 0x20, len := BitVec.ofNat 9 len, fen := false, cmk := 0, epb := false, dln := 0, twn := false, col := 0, hop := 3, gen := 2, rsv := 0, payload := pl, check := 0 }
def mtt (fl claim v : Nat) : List Byte := leBytes 2 fl ++ leBytes 2 claim ++ leBytes 4 v ++ leBytes 4 7 ++ leBytes 4 3 ++ leBytes 8 99 ++ leBytes 40 0
def ars : List Arrival := [⟨140, pk 0xFFFFFFFFFB00 4 (mtt 1 7 0), 5⟩, ⟨140, pk 0xFFFFFFFFFB00 4 (mtt 3 7 5), 5⟩, ⟨140, pk 0xFFFFFFFFFB00 3 (mtt 3 7 5), 5⟩, ⟨14, pk 0xFFFFFFFFFB00 3 (mtt 3 7 5), 5⟩, ⟨14, pk 0xFFFFFFFFFC00 2 (mtt 3 7 5), 5⟩, ⟨140, pk 0xFFFFFFFFFC00 2 (mtt 3 7 5), 5⟩, ⟨140, pk 0xFFFFFFFFFC00 3 (mtt 3 7 5), 5⟩,⟨140, pk 0xFFFFFFFFFC00 2 (leBytes 8 7 ++ leBytes 8 (5*2^21) ++ leBytes 16 77), 5⟩]
def arrivals0 : List Arrival := ars
def kn : Kennel := {st := .open, ktag := 7, feat := BitVec.allOnes 64, root := some 0}
def m0 (y : TrayCtl) : State := {((y0 y).setPort 140 {st := .active, ident := some idn}) with spg := {upS.spg with active := {regs := [(fkey F.RTE_SELF_SELF 0, 100)]}}, pool := {mem := tbls [(0, 3+256*5), (2, 3+256*6), (5, 1 + 2^3 + 256*9), (6, 1 + 2^2 + 256*9), (7, 1 + 2^4), (8, 1 + 2^5), (9, 1+2^6), (10, 1+2^7)]}, knl := [(1, kn)]}
def ms : List State := (ys.map m0) ++ (ys.map fun y => (m0 y).wr F.TWN_LSTS_MATESEEN 1) ++ (ys.map fun y => {m0 y with spg := {(m0 y).spg with plan := true}}) ++ sts.take 1 ++ ((List.range 11).map fun i => (((m0 {}).wr F.TWN_RSYNC_KENNEL 1).wr F.TWN_RSYNC_VA_PAGE i)) ++ [m0 {resync := some {id := 0, k := 1, page := 0}}]
def states1 : List State := ms
def arrivals0_0 : Arrival := arrivals0[0]'(by decide +kernel)
def arrivals0_2 : Arrival := arrivals0[2]'(by decide +kernel)
def arrivals0_3 : Arrival := arrivals0[3]'(by decide +kernel)
def arrivals0_4 : Arrival := arrivals0[4]'(by decide +kernel)
def arrivals0_5 : Arrival := arrivals0[5]'(by decide +kernel)
def arrivals0_6 : Arrival := arrivals0[6]'(by decide +kernel)
def arrivals0_7 : Arrival := arrivals0[7]'(by decide +kernel)
def leashFrames0_0 : LeashFrame := leashFrames0[0]'(by decide +kernel)
def leashFrames0_1 : LeashFrame := leashFrames0[1]'(by decide +kernel)
def leashFrames0_2 : LeashFrame := leashFrames0[2]'(by decide +kernel)
def leashFrames0_5 : LeashFrame := leashFrames0[5]'(by decide +kernel)
def states0_0 : State := states0[0]'(by decide +kernel)
def states0_1 : State := states0[1]'(by decide +kernel)
def states0_2 : State := states0[2]'(by decide +kernel)
def states0_4 : State := states0[4]'(by decide +kernel)
def states0_5 : State := states0[5]'(by decide +kernel)
def states1_0 : State := states1[0]'(by decide +kernel)
def states1_12 : State := states1[12]'(by decide +kernel)
def states1_19 : State := states1[19]'(by decide +kernel)
def states1_24 : State := states1[24]'(by decide +kernel)
def states1_5 : State := states1[5]'(by decide +kernel)
def states1_8 : State := states1[8]'(by decide +kernel)
/-- The hypotheses of Obligations.LeashAndClaims. -/
theorem witness_LeashAndClaims :
    ((Quiet states0_0) ∧ (leashGood leashFrames0_1 = false ∨ leashFrames0_1.typ ≠ 1)) ∧
    ((Quiet states0_0) ∧ (leashGood leashFrames0_0 = false ∨ leashFrames0_0.typ ≠ 2)) ∧
    ((Quiet states0_4) ∧ (leashGood leashFrames0_2 = true) ∧ (leashFrames0_2.mode = claimMode states0_4) ∧ (leashFrames0_2.posa ≠ states0_4.tray.strapA) ∧ (leashFrames0_2.typ = 1) ∧ (claimMode states0_4 = true)) ∧
    ((Quiet states0_0) ∧ (leashGood leashFrames0_0 = true) ∧ (leashFrames0_0.mode = claimMode states0_0) ∧ (leashFrames0_0.posa ≠ states0_0.tray.strapA) ∧ (leashFrames0_0.typ = 1) ∧ (claimMode states0_0 = false) ∧ (states0_0.tray.holder = false)) ∧
    ((Quiet states0_1) ∧ (leashGood leashFrames0_0 = true) ∧ (leashFrames0_0.mode = claimMode states0_1) ∧ (leashFrames0_0.posa ≠ states0_1.tray.strapA) ∧ (leashFrames0_0.typ = 1) ∧ (claimMode states0_1 = false) ∧ (states0_1.tray.holder = true) ∧ (states0_1.tray.mate = none) ∧ (above leashFrames0_0.claim states0_1.tray.claim = true)) ∧
    ((Quiet states0_1) ∧ (leashGood leashFrames0_5 = true) ∧ (leashFrames0_5.mode = claimMode states0_1) ∧ (leashFrames0_5.posa ≠ states0_1.tray.strapA) ∧ (leashFrames0_5.typ = 1) ∧ (claimMode states0_1 = false) ∧ (states0_1.tray.holder = true) ∧ (above leashFrames0_5.claim states0_1.tray.claim = false)) ∧
    ((Quiet states0_2) ∧ (leashGood leashFrames0_1 = true) ∧ (leashFrames0_1.mode = claimMode states0_2) ∧ (leashFrames0_1.posa ≠ states0_2.tray.strapA) ∧ (leashFrames0_1.typ = 2) ∧ (claimMode states0_2 = false) ∧ (states0_2.tray.claiming = true)) ∧
    ((Quiet states0_0) ∧ (leashGood leashFrames0_1 = true) ∧ (leashFrames0_1.mode = claimMode states0_0) ∧ (leashFrames0_1.posa ≠ states0_0.tray.strapA) ∧ (leashFrames0_1.typ = 2) ∧ (claimMode states0_0 = true ∨ states0_0.tray.claiming = false)) ∧
    ((Quiet states0_4) ∧ (leashGood leashFrames0_0 = true) ∧ (leashFrames0_0.typ = 1) ∧ (leashFrames0_0.mode ≠ claimMode states0_4) ∧ (leashFrames0_0.posa ≠ states0_4.tray.strapA) ∧ (claimMode states0_4 = true) ∧ (stickyBit states0_4 726 = false) ∧ (effSev states0_4 726 ≤ 1)) ∧
    ((Quiet states0_2) ∧ (claimMode states0_2 = false) ∧ (states0_2.tray.holder = false) ∧ (states0_2.tray.claiming = true)) ∧
    ((Quiet states0_5) ∧ (claimMode states0_5 = true) ∧ (states0_5.tray.holder = true) ∧ (states0_5.tcl.phase = TclPhase.idle) ∧ (states0_5.tcl.queue = [])) ∧
    ((Quiet states0_4) ∧ (claimMode states0_4 = true) ∧ (states0_4.tray.holder = false ∨ states0_4.tcl.phase ≠ TclPhase.idle)) ∧
    ((Quiet states0_1) ∧ (states0_1.tray.holder = true ∨ states0_1.tray.claiming = true ∨ states0_1.rd F.TWN_LCTL_ENABLE = 0)) ∧
    ((Quiet states0_0) ∧ (states0_0.tray.holder = false) ∧ (states0_0.tray.claiming = false) ∧ (states0_0.rd F.TWN_LCTL_ENABLE = 1) ∧ (claimMode states0_0 = false)) ∧
    ((Quiet states0_4) ∧ (states0_4.tray.holder = false) ∧ (states0_4.tray.claiming = false) ∧ (states0_4.rd F.TWN_LCTL_ENABLE = 1) ∧ (claimMode states0_4 = true)) := by
  refine ⟨?_, ?_, ?_, ?_, ?_, ?_, ?_, ?_, ?_, ?_, ?_, ?_, ?_, ?_, ?_⟩ <;> decide +kernel
/-- The hypotheses of Obligations.MateAndResync. -/
theorem witness_MateAndResync :
    ((Quiet states1_0) ∧ (isFunction arrivals0_4.pkt 281474976709376 = false)) ∧
    ((Quiet states1_0) ∧ (isFunction arrivals0_0.pkt 281474976709632 = false)) ∧
    ((Quiet states1_0) ∧ (isFunction arrivals0_3.pkt 281474976709376 = true) ∧ (fromTrayMate states1_0 arrivals0_3 = false)) ∧
    ((Quiet states1_0) ∧ (isFunction arrivals0_2.pkt 281474976709376 = true) ∧ (fromTrayMate states1_0 arrivals0_2 = true) ∧ (arrivals0_2.pkt.len ≠ 4)) ∧
    ((Quiet states1_0) ∧ (isFunction arrivals0_0.pkt 281474976709376 = true) ∧ (fromTrayMate states1_0 arrivals0_0 = true) ∧ (arrivals0_0.pkt.len = 4)) ∧
    ((Quiet states1_0) ∧ (isFunction arrivals0_4.pkt 281474976709632 = true) ∧ (fromTrayMate states1_0 arrivals0_4 = false)) ∧
    ((Quiet states1_0) ∧ (isFunction arrivals0_6.pkt 281474976709632 = true) ∧ (fromTrayMate states1_0 arrivals0_6 = true) ∧ (arrivals0_6.pkt.len ≠ 2)) ∧
    ((Quiet states1_0) ∧ (isFunction arrivals0_5.pkt 281474976709632 = true) ∧ (fromTrayMate states1_0 arrivals0_5 = true) ∧ (arrivals0_5.pkt.len = 2) ∧ (resyncPage states1_0 arrivals0_5.pkt.payload = none)) ∧
    ((Quiet states1_0) ∧ (isFunction arrivals0_7.pkt 281474976709632 = true) ∧ (fromTrayMate states1_0 arrivals0_7 = true) ∧ (arrivals0_7.pkt.len = 2) ∧ (Option.any (fun r => true) (resyncPage states1_0 arrivals0_7.pkt.payload)) = true) ∧
    ((Quiet states1_0) ∧ (Option.any (fun p => decide (states1_0.self ≠ 65535)) (trayPort states1_0)) = true) ∧
    ((Quiet states1_12) ∧ (trayPort states1_12 = none)) ∧
    ((Quiet states1_0) ∧ (trayPort states1_0 = none ∨ states1_0.rd F.TWN_LSTS_MATESEEN = 0 ∨ states1_0.tray.holder = false)) ∧
    ((Quiet states1_5) ∧ (Option.any (fun p => decide (states1_5.self ≠ 65535) && (decide (states1_5.rd F.TWN_LSTS_MATESEEN = 1) && decide (states1_5.tray.holder = true))) (trayPort states1_5)) = true) ∧
    ((Quiet states1_8) ∧ (states1_8.spg.plan = true)) ∧
    ((Quiet states1_0) ∧ (states1_0.spg.plan = false)) ∧
    ((Quiet states1_24) ∧ (states1_24.tray.resync ≠ none)) ∧
    ((Quiet states1_0) ∧ (states1_0.tray.resync = none) ∧ (let able := (states1_0.kennel (states1_0.rd F.TWN_RSYNC_KENNEL)).live = true ∧ Pte.v ((pageEntry states1_0 (states1_0.rd F.TWN_RSYNC_KENNEL) (states1_0.rd F.TWN_RSYNC_VA_PAGE)).getD 0) = true ∧ Pte.m ((pageEntry states1_0 (states1_0.rd F.TWN_RSYNC_KENNEL) (states1_0.rd F.TWN_RSYNC_VA_PAGE)).getD 0) = true ∧ Pte.stale ((pageEntry states1_0 (states1_0.rd F.TWN_RSYNC_KENNEL) (states1_0.rd F.TWN_RSYNC_VA_PAGE)).getD 0) = false; decide ¬able) = true) ∧
    ((Quiet states1_19) ∧ (states1_19.tray.resync = none) ∧ (let able := (states1_19.kennel (states1_19.rd F.TWN_RSYNC_KENNEL)).live = true ∧ Pte.v ((pageEntry states1_19 (states1_19.rd F.TWN_RSYNC_KENNEL) (states1_19.rd F.TWN_RSYNC_VA_PAGE)).getD 0) = true ∧ Pte.m ((pageEntry states1_19 (states1_19.rd F.TWN_RSYNC_KENNEL) (states1_19.rd F.TWN_RSYNC_VA_PAGE)).getD 0) = true ∧ Pte.stale ((pageEntry states1_19 (states1_19.rd F.TWN_RSYNC_KENNEL) (states1_19.rd F.TWN_RSYNC_VA_PAGE)).getD 0) = false; decide able) = true) := by
  refine ⟨?_, ?_, ?_, ?_, ?_, ?_, ?_, ?_, ?_, ?_, ?_, ?_, ?_, ?_, ?_, ?_, ?_, ?_⟩ <;> decide +kernel
end Tray

namespace Control
def tf (addr typ src : Byte) (claim : W16) (tseq : Byte) : TclFrame :=
  let f : TclFrame := { addr := addr, typ := typ, src := src, claim := claim, tseq := tseq, reg := 7, data := [1,2], crc := 0 }
  { f with crc := BitVec.ofNat 16 (tclCrc (tclBody f)) }
def tclFrames0 : List TclFrame := [tf 5 1 1 9 3, tf 5 3 1 2 3, tf 5 7 1 2 3, {tf 5 1 1 9 3 with crc := 0}, tf 133 0x11 0 2 9, tf 133 0x12 0 2 9, tf 133 0x13 0 2 9, tf 133 0x14 0 2 9]
def y0 (y : Tcl) : State := {(upS.wr F.TCL_CMD_BYTES 9).wr F.TCL_TXBUF_WORD 0x105 with tcl := y}
def fb : List Byte := [5, 1, 0, 0, 0, 9, 2, 0, 1, 7, 8]
def ys : List Tcl := [{}, {phase := .start, bytes := fb}, {phase := .backoff, bytes := fb}, {phase := .answer, bytes := fb, sends := 1}, {phase := .answer, bytes := fb, sends := 3}, {phase := .start, bytes := [127,7,0,0,0,9,0,0,0]}]
def sts : List State := ys.map y0 ++ ys.map fun y => {y0 y with tray := {holder := true, claim := 4}}
def states0 : List State := sts ++ [(y0 {}).wr F.TCL_CMD_BYTES 3]
def pw : List Byte := List.replicate 18 0 ++ [5, 9] ++ List.replicate 28 0
def idn : Ident := ⟨1,2,3,4,9⟩
def hs : State := {y0 {} with tray := {holder := true, claim := 4}, spg := {upS.spg with active := {power := pw}}}
def mtp (p : List Byte) : State := {(hs.setPort 140 {st := .active, ident := some idn}) with spg := {upS.spg with active := {power := p, regs := [(fkey F.RTE_SELF_SELF 0, 100)]}}}
def states1 : List State := sts ++ [hs, mtp pw, mtp []]
def states0_0 : State := states0[0]'(by decide +kernel)
def states0_1 : State := states0[1]'(by decide +kernel)
def states0_2 : State := states0[2]'(by decide +kernel)
def states0_3 : State := states0[3]'(by decide +kernel)
def states0_4 : State := states0[4]'(by decide +kernel)
def states0_5 : State := states0[5]'(by decide +kernel)
def states0_6 : State := states0[6]'(by decide +kernel)
def states0_7 : State := states0[7]'(by decide +kernel)
def states1_0 : State := states1[0]'(by decide +kernel)
def states1_12 : State := states1[12]'(by decide +kernel)
def states1_13 : State := states1[13]'(by decide +kernel)
def states1_6 : State := states1[6]'(by decide +kernel)
def tclFrames0_0 : TclFrame := tclFrames0[0]'(by decide +kernel)
def tclFrames0_2 : TclFrame := tclFrames0[2]'(by decide +kernel)
def tclFrames0_3 : TclFrame := tclFrames0[3]'(by decide +kernel)
def tclFrames0_7 : TclFrame := tclFrames0[7]'(by decide +kernel)
/-- The hypotheses of Obligations.TrayControl, its part on tray control link. -/
theorem witness_TrayControlLink :
    ((Quiet states0_6) ∧ (states0_6.tcl.phase = TclPhase.idle) ∧ (9 ≤ states0_6.rd F.TCL_CMD_BYTES) ∧ (states0_6.rd F.TCL_CMD_BYTES ≤ 73) ∧ ((fun l => l.getD 1 0 = 1 ∨ l.getD 1 0 = 3) (List.take (states0_6.rd F.TCL_CMD_BYTES) (List.flatMap (fun w => leBytes 4 (states0_6.rd F.TCL_TXBUF_WORD w)) (List.range 19))) → states0_6.tray.holder = true)) ∧
    ((Quiet states0_0) ∧ (states0_0.tcl.phase ≠ TclPhase.idle ∨ states0_0.rd F.TCL_CMD_BYTES < 9 ∨ 73 < states0_0.rd F.TCL_CMD_BYTES ∨ (fun l => l.getD 1 0 = 1 ∨ l.getD 1 0 = 3) (List.take (states0_0.rd F.TCL_CMD_BYTES) (List.flatMap (fun w => leBytes 4 (states0_0.rd F.TCL_TXBUF_WORD w)) (List.range 19))) ∧ states0_0.tray.holder = false)) ∧
    ((Quiet states0_0) ∧ (states0_0.tcl.phase ≠ TclPhase.start)) ∧
    ((Quiet states0_7) ∧ (states0_7.tcl.phase = TclPhase.start) ∧ ((fun l => l.getD 1 0 = 1 ∨ l.getD 1 0 = 3) states0_7.tcl.bytes → states0_7.tray.holder = true) ∧ (5 ≤ states0_7.tcl.bytes.length) ∧ (field states0_7.tcl.bytes 0 1 % 128 ≠ 127)) ∧
    ((Quiet states0_5) ∧ (states0_5.tcl.phase = TclPhase.start) ∧ ((fun l => l.getD 1 0 = 1 ∨ l.getD 1 0 = 3) states0_5.tcl.bytes → states0_5.tray.holder = true) ∧ (5 ≤ states0_5.tcl.bytes.length) ∧ (field states0_5.tcl.bytes 0 1 % 128 = 127) ∧ (states0_5.tcl.queue = [])) ∧
    ((Quiet states0_1) ∧ (states0_1.tcl.phase = TclPhase.start) ∧ ((fun l => l.getD 1 0 = 1 ∨ l.getD 1 0 = 3) states0_1.tcl.bytes) ∧ (states0_1.tray.holder = false) ∧ (states0_1.tcl.queue = [])) ∧
    ((Quiet states0_2) ∧ (states0_2.tcl.phase = TclPhase.backoff)) ∧
    ((Quiet states0_0) ∧ (states0_0.tcl.phase ≠ TclPhase.backoff)) ∧
    ((Quiet states0_3) ∧ (states0_3.tcl.phase = TclPhase.answer) ∧ (states0_3.tcl.sends < 3)) ∧
    ((Quiet states0_4) ∧ (states0_4.tcl.phase = TclPhase.answer) ∧ (3 ≤ states0_4.tcl.sends) ∧ (states0_4.tcl.queue = [])) ∧
    ((Quiet states0_0) ∧ (3 < 4) ∧ (states0_0.tcl.phase ≠ TclPhase.answer)) ∧
    ((Quiet states0_3) ∧ (3 < 4) ∧ (states0_3.tcl.phase = TclPhase.answer) ∧ (tclGood tclFrames0_3 = false)) ∧
    ((Quiet states0_3) ∧ (3 < 4) ∧ (let ours := BitVec.toNat tclFrames0_0.typ = 17 + 3 ∧ BitVec.toNat tclFrames0_0.addr = 128 + field states0_3.tcl.bytes 0 1 % 128 ∧ BitVec.toNat tclFrames0_0.tseq = field states0_3.tcl.bytes 5 1; decide (states0_3.tcl.phase = TclPhase.answer) && (decide (tclGood tclFrames0_0 = true) && decide ¬ours)) = true) ∧
    ((Quiet states0_3) ∧ (3 < 4) ∧ (let ours := BitVec.toNat tclFrames0_7.typ = 17 + 3 ∧ BitVec.toNat tclFrames0_7.addr = 128 + field states0_3.tcl.bytes 0 1 % 128 ∧ BitVec.toNat tclFrames0_7.tseq = field states0_3.tcl.bytes 5 1; decide (states0_3.tcl.phase = TclPhase.answer) && (decide (tclGood tclFrames0_7 = true) && (decide ours && decide (states0_3.tcl.queue = [])))) = true) ∧
    ((Quiet states0_0) ∧ (tclGood tclFrames0_3 = false)) ∧
    ((Quiet states0_0) ∧ (tclGood tclFrames0_2 = true) ∧ (128 ≤ BitVec.toNat tclFrames0_2.addr ∨ tclFrames0_2.typ ≠ 1 ∧ tclFrames0_2.typ ≠ 3)) ∧
    ((Quiet states0_0) ∧ (tclGood tclFrames0_0 = true) ∧ (BitVec.toNat tclFrames0_0.addr < 128) ∧ (tclFrames0_0.typ = 1 ∨ tclFrames0_0.typ = 3) ∧ (BitVec.getLsbD tclFrames0_0.src 0 ≠ states0_0.tray.strapA) ∧ (states0_0.tray.holder = false ∨ above tclFrames0_0.claim states0_0.tray.claim = false)) ∧
    ((Quiet states0_6) ∧ (tclGood tclFrames0_0 = true) ∧ (BitVec.toNat tclFrames0_0.addr < 128) ∧ (tclFrames0_0.typ = 1 ∨ tclFrames0_0.typ = 3) ∧ (BitVec.getLsbD tclFrames0_0.src 0 ≠ states0_6.tray.strapA) ∧ (states0_6.tray.holder = true) ∧ (above tclFrames0_0.claim states0_6.tray.claim = true)) := by
  refine ⟨?_, ?_, ?_, ?_, ?_, ?_, ?_, ?_, ?_, ?_, ?_, ?_, ?_, ?_, ?_, ?_, ?_, ?_⟩ <;> decide +kernel
/-- The hypotheses of Obligations.TrayControl, its part on tray outputs. -/
theorem witness_TrayOutputs :
    ((Quiet states1_0) ∧ (true = true ∨ states1_0.tray.holder = true) ∧ (states1_0.rd (if true = true then F.PWR_GPIOOE_OE else F.PWR_GPIO_VAL) = (3#32).toNat ∨ states1_0.tray.holder = false ∨ trayPort states1_0 = none ∨ states1_0.self = 65535)) ∧
    ((Quiet states1_13) ∧ (false = true ∨ states1_13.tray.holder = true) ∧ (states1_13.rd (if false = true then F.PWR_GPIOOE_OE else F.PWR_GPIO_VAL) ≠ (3#32).toNat) ∧ (states1_13.tray.holder = true) ∧ (Option.any (fun p => decide (states1_13.self ≠ 65535)) (trayPort states1_13)) = true) ∧
    ((Quiet states1_0) ∧ (states1_0.tray.holder = false)) ∧
    ((Quiet states1_6) ∧ (states1_6.tray.holder = true) ∧ (∀ (k : Nat), k < 16 → bit (states1_6.rd F.PWR_TRAYRAIL_EN) k ≠ bit (3#16).toNat k → (powerMap states1_6 k).fst = 0) ∧ (states1_6.rd F.PWR_TRAYRAIL_EN = (3#16).toNat ∨ trayPort states1_6 = none ∨ states1_6.self = 65535)) ∧
    ((Quiet states1_13) ∧ (states1_13.tray.holder = true) ∧ (∀ (k : Nat), k < 16 → bit (states1_13.rd F.PWR_TRAYRAIL_EN) k ≠ bit (40000#16).toNat k → (powerMap states1_13 k).fst = 0) ∧ (states1_13.rd F.PWR_TRAYRAIL_EN ≠ (40000#16).toNat) ∧ (Option.any (fun p => decide (states1_13.self ≠ 65535)) (trayPort states1_13)) = true) ∧
    ((Quiet states1_12) ∧ (states1_12.tray.holder = true) ∧ (1 < 16) ∧ (bit (states1_12.rd F.PWR_TRAYRAIL_EN) 1 ≠ bit (3#16).toNat 1) ∧ (1 ≤ (powerMap states1_12 1).fst) ∧ ((powerMap states1_12 1).fst ≤ 8) ∧ ((powerMap states1_12 1).snd < 16) ∧ (∀ (j : Nat), j < 16 → j ≠ 1 → (powerMap states1_12 j).fst = 0) ∧ (states1_12.tcl.phase = TclPhase.idle) ∧ (states1_12.tcl.queue = [])) := by
  refine ⟨?_, ?_, ?_, ?_, ?_, ?_⟩ <;> decide +kernel
end Control

namespace Power
def sq (q : PwrSeq) (en : Nat) : State := {State.reset with pwr := {State.reset.pwr with seq := q, enabled := en, supply := false}}
def up (s : State) : State := {s with pwr := {s.pwr with supply := true}}
def w5 (s : State) : State := {s with pwr := {s.pwr with wait50 := true, upWaits := true}}
def ful (s : State) : State := {s with pwr := {s.pwr with full := true}}
def base : List State := [sq .off 3, sq .wait 3, sq .early 7, sq .early 15, sq .late 31, sq .late (2^13-1), {sq .late 127 with part := .s}, sq .train (2^13-1), {sq .train (2^13-1) with part := .s}, sq .run 15, (sq .run 15).wr F.PWR_STS_STATE 2]
def sts : List State := base ++ base.map w5 ++ base.map up ++ (base.map (w5 ∘ up)) ++ [{w5 (sq .run 15) with pwr := {(sq .run 15).pwr with wait50 := true}}]
def rel (s : State) : State := {s with pwr := {s.pwr with fabReset := false, cmpReset := false}}
def states0 : List State := sts ++ [rel (sq .late 127)]
def db : List State := [sq .down (2^13-1), sq .down 31, sq .down 15, sq .down 7, sq .down 3, sq .run (2^13 - 1), (sq .run 15).wr F.PWR_STS_STATE 2, {sq .run 31 with pwr := {(sq .run 31).pwr with wasGood := 31}}].map fun s => {s with knl := [(1,{st := .open})], ports := [(3,{st := .active})], klp := {s.klp with lcsNext := some 3}}
def dn := db ++ db.map ful ++ db.map up ++ base ++ base.map up ++ [(sq .run 31).wr F.HND_SEV_SEV1 1 92, ((sq .run 15).wr F.HND_SEV_SEV1 1 92).wr F.HND_SEV_SEV2 1 92]
def states1 : List State := dn ++ db.map rel ++ (db.map ful).map rel
def c1 : State := (sq .run 31).setCore 5 {level := 3, held := true}
def c0 : State := (List.range 32).foldl (fun s c => s.modCore c fun x => {x with level := coreGoal s c}) c1
def states2 : List State := [sq .run 15, c1, c0, c0.setCore 5 {level := 60}, c0.wr F.PWR_STS_THROT 1, {c1 with part := .m}, c0.wr F.PWR_GOV_UNIT 0, (c0.setCore 5 {level := 60}).wr F.PWR_GOV_UNIT 0, ((c1.wr F.HND_SEV_SEV7 1 91).wr F.HND_SEV_SEV0 1 92), {c1 with pwr := {c1.pwr with credit := 10000, calib := true}}]
def states0_0 : State := states0[0]'(by decide +kernel)
def states0_1 : State := states0[1]'(by decide +kernel)
def states0_10 : State := states0[10]'(by decide +kernel)
def states0_12 : State := states0[12]'(by decide +kernel)
def states0_2 : State := states0[2]'(by decide +kernel)
def states0_20 : State := states0[20]'(by decide +kernel)
def states0_22 : State := states0[22]'(by decide +kernel)
def states0_3 : State := states0[3]'(by decide +kernel)
def states0_34 : State := states0[34]'(by decide +kernel)
def states0_4 : State := states0[4]'(by decide +kernel)
def states0_44 : State := states0[44]'(by decide +kernel)
def states0_5 : State := states0[5]'(by decide +kernel)
def states0_6 : State := states0[6]'(by decide +kernel)
def states0_7 : State := states0[7]'(by decide +kernel)
def states0_9 : State := states0[9]'(by decide +kernel)
def states1_0 : State := states1[0]'(by decide +kernel)
def states1_1 : State := states1[1]'(by decide +kernel)
def states1_11 : State := states1[11]'(by decide +kernel)
def states1_16 : State := states1[16]'(by decide +kernel)
def states1_35 : State := states1[35]'(by decide +kernel)
def states1_36 : State := states1[36]'(by decide +kernel)
def states1_46 : State := states1[46]'(by decide +kernel)
def states1_48 : State := states1[48]'(by decide +kernel)
def states1_5 : State := states1[5]'(by decide +kernel)
def states1_6 : State := states1[6]'(by decide +kernel)
def states2_0 : State := states2[0]'(by decide +kernel)
def states2_5 : State := states2[5]'(by decide +kernel)
/-- The hypotheses of Obligations.PowerUp. -/
theorem witness_PowerUp :
    ((states0_22.hnd.todo = []) ∧ (states0_22.pwr.supply = true)) ∧
    ((states0_1.hnd.todo = []) ∧ (states0_1.pwr.supply = false) ∧ (states0_1.pwr.seq = PwrSeq.wait)) ∧
    ((states0_0.hnd.todo = []) ∧ (states0_0.pwr.supply = false) ∧ (states0_0.pwr.seq = PwrSeq.off)) ∧
    ((states0_0.hnd.todo = []) ∧ (3 < 13) ∧ (bit states0_0.pwr.enabled 3 = false)) ∧
    ((states0_0.hnd.todo = []) ∧ (0 < 13) ∧ (bit states0_0.pwr.enabled 0 = true) ∧ (topRail states0_0 ≠ 0)) ∧
    ((states0_2.hnd.todo = []) ∧ (2 < 13) ∧ (bit states0_2.pwr.enabled 2 = true) ∧ (topRail states0_2 = 2) ∧ (states0_2.pwr.seq = PwrSeq.early) ∧ (2 = 2)) ∧
    ((states0_3.hnd.todo = []) ∧ (3 < 13) ∧ (bit states0_3.pwr.enabled 3 = true) ∧ (topRail states0_3 = 3) ∧ (states0_3.pwr.seq = PwrSeq.early) ∧ (3 = 3)) ∧
    ((states0_4.hnd.todo = []) ∧ (4 < 13) ∧ (bit states0_4.pwr.enabled 4 = true) ∧ (topRail states0_4 = 4) ∧ (states0_4.pwr.seq = PwrSeq.late) ∧ (4 < lastRail states0_4)) ∧
    ((states0_5.hnd.todo = []) ∧ (12 < 13) ∧ (bit states0_5.pwr.enabled 12 = true) ∧ (topRail states0_5 = 12) ∧ (states0_5.pwr.seq = PwrSeq.late) ∧ (lastRail states0_5 ≤ 12) ∧ (states0_5.part ≠ Part.s)) ∧
    ((states0_6.hnd.todo = []) ∧ (6 < 13) ∧ (bit states0_6.pwr.enabled 6 = true) ∧ (topRail states0_6 = 6) ∧ (states0_6.pwr.seq = PwrSeq.late) ∧ (lastRail states0_6 ≤ 6) ∧ (states0_6.part = Part.s)) ∧
    ((states0_0.hnd.todo = []) ∧ (states0_0.pwr.fabReset = true) ∧ (3 < 144)) ∧
    ((states0_0.hnd.todo = []) ∧ (states0_0.pwr.fabReset = true) ∧ (3 < 4096)) ∧
    ((states0_0.hnd.todo = []) ∧ (states0_0.pwr.cmpReset = true) ∧ (states0_0.part ≠ Part.s) ∧ (3 < 32)) ∧
    ((states0_0.hnd.todo = []) ∧ (states0_0.pwr.seq ≠ PwrSeq.train)) ∧
    ((states0_7.hnd.todo = []) ∧ (states0_7.pwr.seq = PwrSeq.train) ∧ (stickyBit states0_7 713 = false) ∧ (effSev states0_7 713 ≤ 4) ∧ (states0_7.part ≠ Part.s)) ∧
    ((states0_0.hnd.todo = []) ∧ (states0_0.sealed' = false) ∧ (states0_0.pwr.seq = PwrSeq.off ∨ states0_0.pwr.seq = PwrSeq.wait ∨ states0_0.pwr.seq = PwrSeq.early)) ∧
    ((states0_10.hnd.todo = []) ∧ (states0_10.sealed' = false) ∧ (states0_10.pwr.seq = PwrSeq.run) ∧ (states0_10.rd F.PWR_STS_STATE ≠ 0)) ∧
    ((states0_20.hnd.todo = []) ∧ (states0_20.sealed' = false) ∧ (states0_20.pwr.seq = PwrSeq.run) ∧ (states0_20.rd F.PWR_STS_STATE = 0) ∧ (states0_20.pwr.wait50 = true)) ∧
    ((states0_9.hnd.todo = []) ∧ (states0_9.sealed' = false) ∧ (states0_9.pwr.seq = PwrSeq.run) ∧ (states0_9.rd F.PWR_STS_STATE = 0) ∧ (states0_9.pwr.wait50 = false)) ∧
    ((states0_0.hnd.todo = []) ∧ (states0_0.pwr.wait50 = false)) ∧
    ((states0_12.hnd.todo = []) ∧ (states0_12.pwr.wait50 = true) ∧ (states0_12.pwr.seq = PwrSeq.wait) ∧ (states0_12.pwr.supply = false)) ∧
    ((states0_34.hnd.todo = []) ∧ (states0_34.pwr.wait50 = true) ∧ (states0_34.pwr.seq = PwrSeq.wait) ∧ (states0_34.pwr.supply = true)) ∧
    ((states0_20.hnd.todo = []) ∧ (states0_20.pwr.wait50 = true) ∧ (states0_20.pwr.seq = PwrSeq.run) ∧ (states0_20.pwr.upWaits = true)) ∧
    ((states0_44.hnd.todo = []) ∧ (states0_44.pwr.wait50 = true) ∧ (states0_44.pwr.seq = PwrSeq.run) ∧ (states0_44.pwr.upWaits = false)) := by
  refine ⟨?_, ?_, ?_, ?_, ?_, ?_, ?_, ?_, ?_, ?_, ?_, ?_, ?_, ?_, ?_, ?_, ?_, ?_, ?_, ?_, ?_, ?_, ?_, ?_⟩ <;> decide +kernel
/-- The hypotheses of Obligations.PowerDown. -/
theorem witness_PowerDown :
    ((states1_6.hnd.todo = []) ∧ (0 < 2) ∧ (0 = 0 → states1_6.sealed' = false) ∧ (0 = 1 → states1_6.pwr.supply = true) ∧ (states1_6.pwr.seq = PwrSeq.late ∨ states1_6.pwr.seq = PwrSeq.train ∨ states1_6.pwr.seq = PwrSeq.run ∨ 0 = 1 ∧ states1_6.pwr.seq = PwrSeq.early) ∧ (0 = 0 → states1_6.pwr.seq = PwrSeq.run → states1_6.rd F.PWR_STS_STATE ≠ 0) ∧ (3 < 144) ∧ ((states1_6.port 3).forced = false)) ∧
    ((states1_6.hnd.todo = []) ∧ (0 < 2) ∧ (0 = 0 → states1_6.sealed' = false) ∧ (0 = 1 → states1_6.pwr.supply = true) ∧ (states1_6.pwr.seq = PwrSeq.late ∨ states1_6.pwr.seq = PwrSeq.train ∨ states1_6.pwr.seq = PwrSeq.run ∨ 0 = 1 ∧ states1_6.pwr.seq = PwrSeq.early) ∧ (0 = 0 → states1_6.pwr.seq = PwrSeq.run → states1_6.rd F.PWR_STS_STATE ≠ 0) ∧ (states1_6.ni.outst = [])) ∧
    ((states1_5.hnd.todo = []) ∧ (states1_5.sealed' = false) ∧ (states1_5.pwr.seq = PwrSeq.run) ∧ (states1_5.rd F.PWR_STS_STATE = 0)) ∧
    ((states1_0.hnd.todo = []) ∧ (states1_0.sealed' = false) ∧ (states1_0.pwr.seq = PwrSeq.off ∨ states1_0.pwr.seq = PwrSeq.wait ∨ states1_0.pwr.seq = PwrSeq.early ∨ states1_0.pwr.seq = PwrSeq.down)) ∧
    ((states1_0.hnd.todo = []) ∧ (states1_0.pwr.supply = false)) ∧
    ((states1_35.hnd.todo = []) ∧ (states1_35.pwr.supply = true) ∧ (states1_35.pwr.seq = PwrSeq.off)) ∧
    ((states1_36.hnd.todo = []) ∧ (states1_36.pwr.supply = true) ∧ (states1_36.pwr.seq = PwrSeq.wait)) ∧
    ((states1_16.hnd.todo = []) ∧ (states1_16.pwr.supply = true) ∧ (states1_16.pwr.seq = PwrSeq.down)) ∧
    ((states1_0.hnd.todo = []) ∧ (3 < 13) ∧ (states1_0.pwr.seq ≠ PwrSeq.down ∨ topRail states1_0 ≠ 3 ∨ 3 < if states1_0.pwr.full = true then 2 else 4)) ∧
    ((states1_0.hnd.todo = []) ∧ (12 < 13) ∧ (states1_0.pwr.seq = PwrSeq.down) ∧ (topRail states1_0 = 12) ∧ ((if states1_0.pwr.full = true then 2 else 4) ≤ 12) ∧ (let u := notGood 12 { states1_0 with pwr := { states1_0.pwr with enabled := clearBits states1_0.pwr.enabled (2 ^ 12) } }; decide ((if states1_0.pwr.full = true then 2 else 4) ≤ topRail u)) = true) ∧
    ((states1_1.hnd.todo = []) ∧ (4 < 13) ∧ (states1_1.pwr.seq = PwrSeq.down) ∧ (topRail states1_1 = 4) ∧ ((if states1_1.pwr.full = true then 2 else 4) ≤ 4) ∧ (let u := notGood 4 { states1_1 with pwr := { states1_1.pwr with enabled := clearBits states1_1.pwr.enabled (2 ^ 4) } }; decide (states1_1.pwr.full = false) && decide (topRail u < 4)) = true) ∧
    ((states1_11.hnd.todo = []) ∧ (2 < 13) ∧ (states1_11.pwr.seq = PwrSeq.down) ∧ (topRail states1_11 = 2) ∧ ((if states1_11.pwr.full = true then 2 else 4) ≤ 2) ∧ (let u := notGood 2 { states1_11 with pwr := { states1_11.pwr with enabled := clearBits states1_11.pwr.enabled (2 ^ 2) } }; decide (states1_11.pwr.full = true) && decide (topRail u < 2)) = true) ∧
    ((states1_46.hnd.todo = []) ∧ (4 < 13) ∧ (watched states1_46 4 = true) ∧ (stickyBit states1_46 737 = false) ∧ (effSev states1_46 737 ≤ 4) ∧ (bit states1_46.pwr.wasGood 4 = false)) ∧
    ((states1_46.hnd.todo = []) ∧ (3 < 13) ∧ (watched states1_46 3 = true) ∧ (stickyBit states1_46 737 = false) ∧ (effSev states1_46 737 ≤ 4) ∧ (bit states1_46.pwr.wasGood 3 = true)) ∧
    ((states1_0.hnd.todo = []) ∧ (3 < 13) ∧ (watched states1_0 3 = false ∨ bit states1_0.pwr.wasGood 3 = true)) ∧
    ((states1_0.hnd.todo = []) ∧ (4 < 13) ∧ (watched states1_0 4 = false ∨ bit states1_0.pwr.wasGood 4 = false)) ∧
    ((states1_0.hnd.todo = []) ∧ (states1_0.pwr.cmpReset = true)) ∧
    ((states1_48.hnd.todo = []) ∧ (states1_48.pwr.cmpReset = false)) ∧
    ((states1_0.hnd.todo = []) ∧ (states1_0.pwr.fabReset = true)) ∧
    ((states1_48.hnd.todo = []) ∧ (states1_48.pwr.fabReset = false)) ∧
    ((states1_0.hnd.todo = []) ∧ (states1_0.sealed' = false) ∧ (effSev states1_0 738 = 6) ∧ (stickyBit states1_0 738 = false)) := by
  refine ⟨?_, ?_, ?_, ?_, ?_, ?_, ?_, ?_, ?_, ?_, ?_, ?_, ?_, ?_, ?_, ?_, ?_, ?_, ?_, ?_, ?_⟩ <;> decide +kernel
/-- The hypotheses of Obligations.GovernorAndLimits. -/
theorem witness_GovernorAndLimits :
    ((states2_5.hnd.todo = []) ∧ (states2_5.sealed' = false) ∧ (presentCores states2_5 = [])) ∧
    ((states2_0.hnd.todo = []) ∧ (states2_0.sealed' = false) ∧ (3 < 32) ∧ (bit states2_0.part.cores 3 = true) ∧ (∀ (j : Nat), j < 32 → j ≠ 3 → (states2_0.core j).level = coreGoal states2_0 j) ∧ (0 < govUnit states2_0)) ∧
    ((states2_0.hnd.todo = []) ∧ (((fun i => BitVec.ofNat 16 (i * 7)) 0 :: List.map (fun i => BitVec.ofNat 16 (i * 7)) [1, 2, 3, 4, 5, 6, 7, 8, 9, 10, 11, 12]).length = lastRail states2_0 + 1)) ∧
    ((states2_0.hnd.todo = []) ∧ (16500 < (65531#16).toNat)) := by
  refine ⟨?_, ?_, ?_, ?_⟩ <;> decide +kernel
end Power

namespace Fault
def b0 : State := {((upS.setPort 5 {st := .active}).wr F.CMP_OWN_VALID 1 1).wr F.CMP_OWN_KENNEL 7 1 with knl := [(7,{st := .open})], klp := {upS.klp with keys := [(1,[2])]}}
def sevAll (v : Nat) (s : State) : State := (List.range 742).foldl (fun s i => s.wr (sevField i) v (i/8)) s
def states0 : List State := [b0, sevAll 1 b0, sevAll 2 b0, sevAll 3 b0, sevAll 4 b0, sevAll 6 b0, b0.wr F.HND_STS_SEALED 1, (sevAll 1 b0).wr F.HND_STICKY_STICKY 255 0, (sevAll 1 b0).wr F.HND_FORCE_FORCE 8 0, ((sevAll 1 b0).wr F.HND_STICKY_STICKY 0x300 22).wr F.POL_STS_STKUP 255, {sevAll 1 b0 with part := .m}, {sevAll 5 b0 with part := .s}]
def hActs0 : List HAct := [⟨3,4,none⟩,⟨5,5,none⟩,⟨700,6,none⟩]
def accessors0 : List Accessor := [.monitor, .firmware, .debug]
def csrRefs0 : List CsrRef := [⟨.LNK_CTL,0,0,0⟩, ⟨.LNE_EVT,5,0,0⟩, ⟨.LNE_EVT,500,0,0⟩,⟨.TWN_LSTS,0,0,0⟩,⟨.POL_STS,0,0,0⟩,⟨.RTV_CTL,0,0,0⟩,⟨.DET_TSTS,0,0,0⟩,⟨.FEA_LOCK,0,0,0⟩,⟨.TCL_STS,0,0,0⟩,⟨.HND_PATH,3,0,0⟩,⟨.KNL_CFG,3,0,0⟩,⟨.CTR_KNL,3,2,0⟩,⟨.CMP_OWN,3,0,0⟩,⟨.OUB_DROP_CNT,3,1,0⟩,⟨.CTR_SREC,0,0,0⟩,⟨.SPG_POLICY,3,0,0⟩]
def c0 : State := ((b0.wr F.CTR_KNL_COUNT 77 50).wr F.LNE_EVT_UP 1 5).wr F.HND_SEV_SEV0 1 90
def states1 : List State := [c0, {c0 with pwr := {c0.pwr with fabReset := true}}, {c0 with part := .m}, (c0.wr F.KLP_DBGSTS_UNLOCKED 1).wr F.KLP_DBGSTS_SCOPE 1, {c0 with klp := {c0.klp with mode := .reporter}, spg := {c0.spg with plan := true}, samp := [{session := 3, kennel := 4, bundle := 5, cycle := 6}]}]
def states2 : List State := [c0, {c0 with klp := {c0.klp with policyIn := true, seqAt := some 0}}, (c0.wr F.FEA_LOCK_LOCK 1).wr F.POL_MODE_PEND 1, {c0 with pool := {c0.pool with rgnSet := true}, spg := {c0.spg with armed := some ⟨1,2,3,4,true⟩}}]
def accessors0_0 : Accessor := accessors0[0]'(by decide +kernel)
def accessors0_1 : Accessor := accessors0[1]'(by decide +kernel)
def accessors0_2 : Accessor := accessors0[2]'(by decide +kernel)
def csrRefs0_0 : CsrRef := csrRefs0[0]'(by decide +kernel)
def csrRefs0_10 : CsrRef := csrRefs0[10]'(by decide +kernel)
def csrRefs0_2 : CsrRef := csrRefs0[2]'(by decide +kernel)
def hActs0_0 : HAct := hActs0[0]'(by decide +kernel)
def hActs0_1 : HAct := hActs0[1]'(by decide +kernel)
def hActs0_2 : HAct := hActs0[2]'(by decide +kernel)
def states0_0 : State := states0[0]'(by decide +kernel)
def states0_7 : State := states0[7]'(by decide +kernel)
def states0_8 : State := states0[8]'(by decide +kernel)
def states0_9 : State := states0[9]'(by decide +kernel)
def states1_0 : State := states1[0]'(by decide +kernel)
def states1_4 : State := states1[4]'(by decide +kernel)
def states2_0 : State := states2[0]'(by decide +kernel)
def states2_1 : State := states2[1]'(by decide +kernel)
def states2_2 : State := states2[2]'(by decide +kernel)
def states2_3 : State := states2[3]'(by decide +kernel)
/-- The hypotheses of Obligations.FaultSources. -/
theorem witness_FaultSources :
    ((states0_0.hnd.todo = []) ∧ (742 < 1024) ∧ (quietSource states0_0 742 = true)) ∧
    ((states0_7.hnd.todo = []) ∧ (3 < 742) ∧ (quietSource states0_7 3 = false) ∧ (3 < 712 ∨ 720 ≤ 3 ∧ 3 ≠ 727 ∧ 3 ≠ 728 ∧ 3 ≠ 733) ∧ (stickyBit states0_7 3 = true)) ∧
    ((states0_0.hnd.todo = []) ∧ (3 < 742) ∧ (quietSource states0_0 3 = false) ∧ (3 < 712 ∨ 720 ≤ 3 ∧ 3 ≠ 727 ∧ 3 ≠ 728 ∧ 3 ≠ 733) ∧ (stickyBit states0_0 3 = false) ∧ (effSev states0_0 3 ≤ 6)) ∧
    ((states0_0.hnd.todo = []) ∧ (645 < 742) ∧ (quietSource states0_0 645 = false) ∧ (645 < 712 ∨ 720 ≤ 645 ∧ 645 ≠ 727 ∧ 645 ≠ 728 ∧ 645 ≠ 733) ∧ (stickyBit states0_0 645 = false) ∧ (effSev states0_0 645 = 2) ∧ (states0_0.sealed' = false) ∧ (Option.any (fun k => decide ((states0_0.kennel k).st = KSt.open)) (namedKennel states0_0 645)) = true) ∧
    ((states0_0.hnd.todo = []) ∧ (states0_0.sealed' = false) ∧ (hActs0_0.src < 712) ∧ (hActs0_1.src < 712) ∧ (hActs0_0.sev ≤ 4) ∧ (hActs0_1.sev = 5)) ∧
    ((states0_0.hnd.todo = []) ∧ (states0_0.sealed' = false) ∧ (hActs0_0.src < 712) ∧ (hActs0_2.src < 712) ∧ (hActs0_0.sev ≤ 5) ∧ (hActs0_2.sev = 6)) ∧
    ((states0_0.hnd.todo = []) ∧ (3 < 576) ∧ (stickyBit states0_0 731 = false) ∧ (stickyBit states0_0 3 = false) ∧ (effSev states0_0 731 ≤ 1) ∧ (effSev states0_0 3 ≤ 1)) ∧
    ((states0_0.hnd.todo = []) ∧ (3 < 8) ∧ (states0_0.part ≠ Part.s) ∧ (states0_0.sealed' = false) ∧ (stickyBit states0_0 (712 + 3) = false) ∧ (effSev states0_0 (712 + 3) = 4)) ∧
    ((states0_9.hnd.todo = []) ∧ (0 < 8) ∧ (states0_9.part ≠ Part.s) ∧ (states0_9.sealed' = false) ∧ (stickyBit states0_9 (712 + 0) = true)) ∧
    ((states0_0.hnd.todo = []) ∧ (states0_0.cryptoErr = false)) ∧
    ((states0_0.hnd.todo = []) ∧ (3 < 32) ∧ (states0_0.sealed' = false) ∧ (states0_0.rd F.HND_FORCE_FORCE 3 = 0)) ∧
    ((states0_8.hnd.todo = []) ∧ (0 < 32) ∧ (states0_8.sealed' = false) ∧ (3 < 32) ∧ (states0_8.rd F.HND_FORCE_FORCE = 2 ^ 3) ∧ (quietSource states0_8 (32 * 0 + 3) = false) ∧ (effSev states0_8 (32 * 0 + 3) ≤ 1)) := by
  refine ⟨?_, ?_, ?_, ?_, ?_, ?_, ?_, ?_, ?_, ?_, ?_, ?_⟩ <;> decide +kernel
/-- The hypotheses of Obligations.RegisterAccesses. -/
theorem witness_RegisterAccesses :
    ((Quiet states1_0) ∧ (elementOf csrRefs0_2 = none) ∧ (reaches accessors0_0 states1_0 = true)) ∧
    ((Quiet states1_0) ∧ (elementOf csrRefs0_2 = none) ∧ (reaches accessors0_2 states1_0 = false)) ∧
    ((Quiet states1_0) ∧ (Option.any (fun i => decide (reaches accessors0_2 states1_0 = false ∨ absentReg states1_0 csrRefs0_0.reg i = true ∨ dieHeld states1_0 csrRefs0_0.reg = true)) (elementOf csrRefs0_0)) = true) ∧
    ((Quiet states1_0) ∧ (Option.any (fun i => decide (reaches accessors0_1 states1_0 = true) && (decide (absentReg states1_0 csrRefs0_10.reg i = false) && (decide (dieHeld states1_0 csrRefs0_10.reg = false) && (decide (monFields csrRefs0_10.reg ≠ []) && (decide (accessors0_1 ≠ Accessor.monitor) && (decide (stickyBit states1_0 720 = false) && decide (effSev states1_0 720 ≤ 1))))))) (elementOf csrRefs0_10)) = true) ∧
    ((Quiet states1_0) ∧ (Option.any (fun i => decide (reaches accessors0_0 states1_0 = true) && (decide (absentReg states1_0 csrRefs0_0.reg i = false) && (decide (dieHeld states1_0 csrRefs0_0.reg = false) && decide (monFields csrRefs0_0.reg = [] ∨ accessors0_0 = Accessor.monitor)))) (elementOf csrRefs0_0)) = true) ∧
    ((Quiet states1_0) ∧ (Option.any (fun i => decide (reaches accessors0_0 states1_0 = true) && (decide (absentReg states1_0 csrRefs0_0.reg i = false) && (decide (dieHeld states1_0 csrRefs0_0.reg = false) && (decide (monFields csrRefs0_0.reg = [] ∨ accessors0_0 = Accessor.monitor) && decide (csrRefs0_0.reg ∈ [Reg.CTR_SCTL, Reg.DET_TSRC, Reg.DET_TSTS, Reg.FEA_LOCK, Reg.HND_PATH, Reg.LNE_EVT, Reg.LNK_CTL, Reg.LNK_EVT, Reg.OUB_MIRCTL, Reg.OUB_MIRMATCH, Reg.POL_ECCLOG, Reg.POL_SCRUB, Reg.POL_STS, Reg.PWR_STS, Reg.RTE_CCTL, Reg.RTE_STS, Reg.RTV_CTL, Reg.RTV_QUOTA, Reg.SPG_SRC, Reg.SPG_STS, Reg.TCL_STS, Reg.TCL_TXBUF, Reg.TWN_LSTS, Reg.TWN_RSYNC_VA]))))) (elementOf csrRefs0_0)) = true) ∧
    ((Quiet states1_0) ∧ (Option.any (fun i => decide (reaches accessors0_2 states1_0 = false)) (elementOf csrRefs0_0)) = true) ∧
    ((Quiet states1_0) ∧ (Option.any (fun i => decide (reaches accessors0_0 states1_0 = true) && decide (false = true ∨ accessors0_0 = Accessor.debug ∨ accessors0_0 = Accessor.monitor ∨ monFields csrRefs0_0.reg = [] ∨ absentReg states1_0 csrRefs0_0.reg i = true)) (elementOf csrRefs0_0)) = true) ∧
    ((Quiet states1_0) ∧ (Option.any (fun i => decide (accessors0_1 = Accessor.firmware) && (decide (false = false) && (decide (monFields csrRefs0_10.reg ≠ []) && (decide (absentReg states1_0 csrRefs0_10.reg i = false) && (decide (stickyBit states1_0 720 = false) && decide (effSev states1_0 720 ≤ 1)))))) (elementOf csrRefs0_10)) = true) ∧
    ((Quiet states1_0) ∧ (Option.any (fun i => decide (csrRefs0_0.reg ≠ Reg.CTR_SREC) && decide (reaches accessors0_0 states1_0 = true)) (elementOf csrRefs0_0)) = true) ∧
    ((Quiet states1_0) ∧ (Option.any (fun i => decide (states1_0.klp.mode ≠ KMode.reporter)) (elementOf csrRefs0_0)) = true) ∧
    ((Quiet states1_4) ∧ (Option.any (fun i => decide (states1_4.klp.mode = KMode.reporter)) (elementOf csrRefs0_0)) = true) := by
  refine ⟨?_, ?_, ?_, ?_, ?_, ?_, ?_, ?_, ?_, ?_, ?_, ?_⟩ <;> decide +kernel
/-- The hypotheses of Obligations.RegisterAccesses, its part on command registers. -/
theorem witness_CommandRegisters :
    ((Quiet states2_3) ∧ (states2_3.pool.rgnSet = true)) ∧
    ((Quiet states2_0) ∧ (states2_0.pool.rgnSet = false)) ∧
    ((Quiet states2_0) ∧ (3 < 8) ∧ (states2_0.rd F.FEA_LOCK_LOCK = 0)) ∧
    ((Quiet states2_2) ∧ (3 < 8) ∧ (states2_2.rd F.FEA_LOCK_LOCK ≠ 0)) ∧
    ((Quiet states2_0) ∧ (3 < 92) ∧ (3 < 8)) ∧
    ((Quiet states2_0) ∧ (3 < 1280) ∧ (states2_0.rd F.POL_MODE_MODE = 0) ∧ (states2_0.rd F.POL_MODE_PEND = 0)) ∧
    ((Quiet states2_2) ∧ (states2_2.rd F.POL_MODE_MODE ≠ 0 ∨ states2_2.rd F.POL_MODE_PEND ≠ 0)) ∧
    ((Quiet states2_0) ∧ (states2_0.rd F.SPG_SRC_LEN ≤ 2 ^ 21)) ∧
    ((Quiet states2_0) ∧ (3 < 24) ∧ (states2_0.klp.policyIn = false)) ∧
    ((Quiet states2_1) ∧ (3 < 24) ∧ (states2_1.klp.policyIn = true)) ∧
    ((Quiet states2_0) ∧ (3 < 32)) ∧
    ((Quiet states2_0) ∧ (3 < 144)) ∧
    ((Quiet states2_3) ∧ (states2_3.spg.armed ≠ none)) ∧
    ((Quiet states2_0) ∧ (16 < List.foldl (fun x1 x2 => x1 + x2) 0 (List.map (fun c => 305419896 / 2 ^ (4 * c) % 16) (List.range 8)))) := by
  refine ⟨?_, ?_, ?_, ?_, ?_, ?_, ?_, ?_, ?_, ?_, ?_, ?_, ?_, ?_⟩ <;> decide +kernel
end Fault

namespace Stated
def tl (v : Nat) : Packet := { dst := 0, src := 4, ktag := 7, win := 3, psn := 4, addr := BitVec.ofNat 48 0x400000002000, vc := 0, opc := 1, len := 1, fen := false, cmk := 0, epb := false, dln := 0, twn := false, col := 0, hop := 3, gen := 2, rsv := 0, payload := leBytes 16 v, check := 0 }
def arr (v : Nat) : Arrival := ⟨3, tl v, 0⟩
def arrivals0 : List Arrival := [arr 8, arr 9, arr 70, arr 71, arr 3]
def qk : Queue := {head := 6, tail := 8, log2 := 6, base := 4096}
def kx (st : KSt) : Kennel := {st := st, ktag := 7, gen := 2, feat := BitVec.allOnes 64, nWh := 8, queues := [(1, {head := 9, tail := 12}), (2, qk)], rankN := 2, ranks := [(0,0x10009)]}
def sx (p : Part) : State := {upS with knl := [(1, kx .open)], part := p, time := 9000*77}
def states0 : List State := [sx .a, sx .s, {sx .a with knl := [(1, {kx .open with queues := [(2, {qk with head := 0xfffffffe, tail := 3})]})]}]
def states1 : List State := [upS]
def pl (opc len : Nat) : Packet := { tl 5 with addr := 0x40, opc := BitVec.ofNat 6 opc, len := BitVec.ofNat 9 len }
def arrivals1 : List Arrival := [⟨3, pl 1 1, 0⟩, ⟨3, pl 2 1, 0⟩, ⟨3, pl 3 1, 0⟩, ⟨3, pl 6 1, 0⟩]
def states2 : List State := [sx .s]
def arrivals0_0 : Arrival := arrivals0[0]'(by decide +kernel)
def arrivals0_3 : Arrival := arrivals0[3]'(by decide +kernel)
def arrivals1_0 : Arrival := arrivals1[0]'(by decide +kernel)
def states0_0 : State := states0[0]'(by decide +kernel)
def states0_1 : State := states0[1]'(by decide +kernel)
def states1_0 : State := states1[0]'(by decide +kernel)
def states2_0 : State := states2[0]'(by decide +kernel)
/-- The hypotheses of Obligations.TailWriteRule. -/
theorem witness_TailWriteRule :
    ((Runs states0_0) ∧ (isTail arrivals0_0.pkt = true) ∧ (arrivals0_0.pkt.ktag ≠ 0) ∧ (Option.any (fun k => decide ((states0_0.kennel k).st = KSt.open) && (decide (offOf arrivals0_0.pkt / 4096 < 16) && Option.any (fun x => decide (pageOffOf arrivals0_0.pkt = 0) && (decide (arrivals0_0.pkt.len = 1) && (decide (field arrivals0_0.pkt.payload 4 12 = 0) && let ahead := ((BitVec.ofNat 32 (field arrivals0_0.pkt.payload 0 4)).toNat + 2 ^ 32 - BitVec.toNat x.tail) % 2 ^ 32; let room := 2 ^ x.log2 - BitVec.toNat (x.tail - x.head); decide (states0_0.part ≠ Part.s) && decide (ahead ≤ room)))) (states0_0.queue k (offOf arrivals0_0.pkt / 4096)))) (servedKennel states0_0 arrivals0_0.pkt.ktag)) = true) ∧
    ((Runs states0_0) ∧ (isTail arrivals0_0.pkt = true) ∧ (arrivals0_0.pkt.ktag ≠ 0) ∧ (Option.any (fun k => decide ((states0_0.kennel k).st = KSt.open) && (decide (offOf arrivals0_0.pkt / 4096 < 16) && Option.any (fun x => decide (pageOffOf arrivals0_0.pkt = 0) && (decide (arrivals0_0.pkt.len = 1) && (decide (field arrivals0_0.pkt.payload 4 12 = 0) && let ahead := ((BitVec.ofNat 32 (field arrivals0_0.pkt.payload 0 4)).toNat + 2 ^ 32 - BitVec.toNat x.tail) % 2 ^ 32; let room := 2 ^ x.log2 - BitVec.toNat (x.tail - x.head); decide (states0_0.part ≠ Part.s) && (decide (ahead ≤ room) && decide (1 ≠ k ∨ 1 ≠ offOf arrivals0_0.pkt / 4096))))) (states0_0.queue k (offOf arrivals0_0.pkt / 4096)))) (servedKennel states0_0 arrivals0_0.pkt.ktag)) = true) ∧
    ((Runs states0_0) ∧ (isTail arrivals0_0.pkt = true) ∧ (arrivals0_0.pkt.ktag ≠ 0) ∧ (Option.any (fun k => decide ((states0_0.kennel k).st = KSt.open) && (decide (offOf arrivals0_0.pkt / 4096 < 16) && Option.any (fun x => decide (pageOffOf arrivals0_0.pkt = 0) && (decide (arrivals0_0.pkt.len = 1) && (decide (field arrivals0_0.pkt.payload 4 12 = 0) && (decide (states0_0.part ≠ Part.s) && decide (BitVec.ofNat 32 (field arrivals0_0.pkt.payload 0 4) = x.tail))))) (states0_0.queue k (offOf arrivals0_0.pkt / 4096)))) (servedKennel states0_0 arrivals0_0.pkt.ktag)) = true) ∧
    ((Runs states0_0) ∧ (isTail arrivals0_3.pkt = true) ∧ (arrivals0_3.pkt.ktag ≠ 0) ∧ (Option.any (fun k => decide ((states0_0.kennel k).st = KSt.open) && (decide (offOf arrivals0_3.pkt / 4096 < 16) && Option.any (fun x => decide (pageOffOf arrivals0_3.pkt = 0) && (decide (arrivals0_3.pkt.len = 1) && (decide (field arrivals0_3.pkt.payload 4 12 = 0) && let ahead := ((BitVec.ofNat 32 (field arrivals0_3.pkt.payload 0 4)).toNat + 2 ^ 32 - BitVec.toNat x.tail) % 2 ^ 32; let room := 2 ^ x.log2 - BitVec.toNat (x.tail - x.head); decide (states0_0.part ≠ Part.s) && decide (room < ahead)))) (states0_0.queue k (offOf arrivals0_3.pkt / 4096)))) (servedKennel states0_0 arrivals0_3.pkt.ktag)) = true) ∧
    ((Runs states0_1) ∧ (isTail arrivals0_0.pkt = true) ∧ (arrivals0_0.pkt.ktag ≠ 0) ∧ (Option.any (fun k => decide ((states0_1.kennel k).st = KSt.open) && (decide (offOf arrivals0_0.pkt / 4096 < 16) && Option.any (fun x => decide (pageOffOf arrivals0_0.pkt = 0) && (decide (arrivals0_0.pkt.len = 1) && (decide (field arrivals0_0.pkt.payload 4 12 = 0) && decide (states0_1.part = Part.s)))) (states0_1.queue k (offOf arrivals0_0.pkt / 4096)))) (servedKennel states0_1 arrivals0_0.pkt.ktag)) = true) ∧
    ((Runs states0_0) ∧ (isTail arrivals0_0.pkt = true) ∧ (arrivals0_0.pkt.ktag ≠ 0) ∧ (Option.any (fun k => decide ((states0_0.kennel k).st = KSt.open) && (decide (offOf arrivals0_0.pkt / 4096 < 16) && Option.any (fun x => decide (pageOffOf arrivals0_0.pkt = 0) && (decide (arrivals0_0.pkt.len = 1) && decide (field arrivals0_0.pkt.payload 4 12 = 0))) (states0_0.queue k (offOf arrivals0_0.pkt / 4096)))) (servedKennel states0_0 arrivals0_0.pkt.ktag)) = true) := by
  refine ⟨?_, ?_, ?_, ?_, ?_, ?_⟩ <;> decide +kernel
/-- The hypotheses of Obligations.SeverityFloor. -/
theorem witness_SeverityFloor :
    ((Quiet states1_0) ∧ (states1_0.sealed' = false) ∧ (741 < 742)) := by decide +kernel
/-- The hypotheses of Obligations.NoPoolOnTheSwitchPart. -/
theorem witness_NoPoolOnTheSwitchPart :
    ((Runs states2_0) ∧ (states2_0.part = Part.s) ∧ (arrivals1_0.pkt.ktag ≠ 0) ∧ (Option.any (fun k => decide (states2_0.scent k = none) && [(Instr.poolRead arrivals1_0, 2), (Instr.poolWrite arrivals1_0, 1), (Instr.poolFaddI32 arrivals1_0, 3), (Instr.poolFaddI64 arrivals1_0, 4), (Instr.poolFaddF32 arrivals1_0, 5), (Instr.poolCas64 arrivals1_0, 6)].any fun r => decide (isPool arrivals1_0.pkt r.snd = true)) (servedKennel states2_0 arrivals1_0.pkt.ktag)) = true) := by decide +kernel
end Stated

namespace Whole
/-- A sealed module with nothing left for Hound to do. -/
def sealedState : State := (State.reset.wr F.HND_STS_SEALED 1)
/-- The hypotheses of Obligations.SafeStateHolds. -/
theorem witness_SafeStateHolds : sealedState.sealed' = true ∧ sealedState.hnd.todo = [] ∧ actsSealed (.nop 0 0) = false ∧
    after (exec (.nop 0 0) sealedState) (fun _ => true) false = true ∧ after (step sealedState) (fun _ => true) false = true := by
  refine ⟨?_, ?_, ?_, ?_, ?_⟩ <;> decide +kernel
/-- The hypotheses of Obligations.StepRunsFront, its three clauses. -/
theorem witness_StepRunsFront : (queued (.nop 0 0)).pending = Instr.nop 0 0 :: [] ∧
    (sealedState.pending = [] ∧ sealedState.sealed' = true) ∧
    (State.reset.pending = [] ∧ State.reset.sealed' = false ∧ State.reset.hnd.todo = [] ∧ State.reset.ports = [] ∧ State.reset.isl.cores = [] ∧
      State.reset.isl.progs = [] ∧ State.reset.det.alignWait = false ∧ State.reset.rd F.POL_MODE_PEND = 0 ∧
      State.reset.rd F.POL_STS_CUR = 0) := by
  refine ⟨?_, ?_, ?_⟩ <;> decide +kernel
/-- The hypotheses of Obligations.WellFormedCommandsComplete. -/
theorem witness_WellFormedCommandsComplete : wellFormed (.nop 4095 15) = true := by decide
/-- The hypotheses of Obligations.MemoryStaysCanonical. -/
theorem witness_MemoryStaysCanonical : MemOk State.reset ∧ after (step State.reset) (fun _ => true) false = true := by
  refine ⟨?_, ?_⟩ <;> decide +kernel
/-- The hypotheses of Obligations.ResetValues. -/
theorem witness_ResetValues : 741 < 742 ∧ 742 ≤ 742 ∧ 143 < 144 ∧ 4095 < 4096 ∧ 31 < 32 ∧ 3 < 4 ∧
    State.reset.klp.harts.any (fun _ => true) = true := by
  refine ⟨?_, ?_, ?_, ?_, ?_, ?_, ?_⟩ <;> decide +kernel
/-- Every form of the tensor slot completes on one state: no check fails and its guard holds. -/
theorem witness_TensorSlot_forms :
    let s := Tensor.st Tensor.x1
    let c := 5
    let x := s.core c
    let m : TM := ⟨6, false, 1, false, 3, 1, false, 0, true, 6, 1, 0⟩
    Issues s c ∧ x.guard {} = true ∧ checked s c {} { bad := (0 : NoFmt) != 0 } = none ∧
    checked s c {} (usesTC ⟨1, 2, true, 3, 0⟩ s.cyc.toNat x) = none ∧
    checked s c {} (usesTA ⟨1, 2, 3, 3, 0⟩ s.cyc.toNat x) = none ∧
    [TFmt.f4, .lb4, .e2m3, .e3m2, .e4m3, .e5m2, .bf16, .f16].all
      (fun f => (checked s c {} (usesTM f m s.cyc.toNat x)).isNone) = true := by decide +kernel
/-- The hypotheses of Obligations.TensorSlot, its part on the arithmetic of a tile. -/
theorem witness_TileArithmetic : ({} : Tile).lost = false ∧ ({} : Tile).free = false ∧ 0 < ([[]] : List (List Nat)).length ∧
    ([[]] : List (List Nat)).length ≤ 64 ∧ (0 : Nat) < 2 ^ 79 ∧ (List.replicate 512 (0 : W32)).length = 512 := by
  refine ⟨?_, ?_, ?_, ?_, ?_, ?_⟩ <;> decide +kernel
end Whole

end Sys2Proof.Tests
end

section
/-! SUPPORT. What the packets that the module forms itself can change, and pool accesses on the part without a pool
(R4). -/

namespace Sys2Proof.Machine

/-! ## The packets that the module forms -/

/-- What forming and admitting a packet may change: registers, samples, the index of the free values, the crossbar
and the network interface. -/
def SendsOnly (s t : State) : Prop :=
  t = { s with csr := t.csr, samp := t.samp, freeIdx := t.freeIdx, xbr := t.xbr, ni := t.ni }

theorem SendsOnly.refl (s : State) : SendsOnly s s := rfl

theorem SendsOnly.trans {s t u : State} (h : SendsOnly s t) (k : SendsOnly t u) : SendsOnly s u := by
  unfold SendsOnly at *; rw [k, h]

theorem CountsOnly.sendsOnly {s t : State} (h : CountsOnly s t) : SendsOnly s t := by
  unfold CountsOnly at h; unfold SendsOnly; rw [h]

theorem SendsOnly.hnd {s t : State} (h : SendsOnly s t) : t.hnd = s.hnd := by rw [h]
theorem SendsOnly.pool {s t : State} (h : SendsOnly s t) : t.pool = s.pool := by rw [h]

theorem choose_sendsOnly {s t : State} {win ptr p : Nat} {ports : List Nat} {adapt : Bool}
    (h : choose s win ports adapt ptr = some (p, t)) : SendsOnly s t := by
  simp only [choose] at h
  split at h
  · cases h
  · split at h <;> cases h <;> rfl

theorem routeHall_sendsOnly (s : State) (b : Bank) (inp : Nat) (pkt : Packet) (d : Nat) :
    SendsOnly s (routeHall s b inp pkt d).2 := by
  simp only [routeHall]
  split
  · split
    · split
      case h_1 h => exact choose_sendsOnly h
      case h_2 => exact .refl s
    · exact .refl s
  · split
    · exact .refl s
    · split
      · split
        case h_1 h => exact choose_sendsOnly h
        case h_2 => exact .refl s
      · exact .refl s

theorem route_sendsOnly (s : State) (b : Bank) (inp : Nat) (pkt : Packet) : SendsOnly s (route s b inp pkt).2 := by
  simp only [route]
  split
  · exact .refl s
  split
  · split
    · exact routeHall_sendsOnly ..
    · exact routeHall_sendsOnly ..
    · exact .refl s
  split
  · split
    · exact routeHall_sendsOnly ..
    · exact routeHall_sendsOnly ..
    · exact .refl s
  split
  · exact .refl s
  split
  · exact .refl s
  split
  · split <;> exact .refl s
  · split
    case h_1 h => split <;> exact choose_sendsOnly h
    case h_2 => exact .refl s

theorem countDrop_countsOnly (inp out : Nat) (k : W16) (c : Cause) (s : State) :
    CountsOnly s (countDrop inp out k c s) := by
  have kennel : ∀ t : State, CountsOnly t (countKennelDrop inp k t) := by
    intro t
    unfold countKennelDrop
    split
    · split
      · exact count_frame ..
      · exact .refl t
    · exact .refl t
  exact (countCause_frame inp out c s).trans (kennel _)

theorem countTx_countsOnly (pkt : Packet) (s : State) : CountsOnly s (countTx pkt s) := by
  unfold countTx
  split
  · exact (count_frame ..).trans (count_frame ..)
  · exact .refl s

theorem addFlow_sendsOnly (f : Flow) (s : State) : SendsOnly s (addFlow f s) := rfl

/-- A packet that is admitted is counted for its kennel and put before the crossbar. -/
theorem countTx_addFlow_sendsOnly (pkt : Packet) (f : Flow) (s : State) :
    SendsOnly s (countTx pkt (addFlow f s)) :=
  (addFlow_sendsOnly f s).trans (countTx_countsOnly ..).sendsOnly

theorem acceptTwin_sendsOnly (q : Packet) (s : State) : SendsOnly s (acceptTwin q s).2 := by
  simp only [acceptTwin]
  have counted : ∀ f : Fld, SendsOnly s (s.count f) := fun f => (count_frame s f 0 1).sendsOnly
  split
  · split
    · exact counted F.TWN_FULL_CNT_COUNT
    · rfl
  · split
    · rfl
    · split
      · split
        · exact counted F.TWN_DUP_CNT_COUNT
        · rfl
      · exact counted F.TWN_OLD_CNT_COUNT

theorem emit_sendsOnly (pkt : Packet) (forced : Option Nat) (s : State) : SendsOnly s (emit pkt forced s).2 := by
  cases forced with
  | some p => exact countTx_addFlow_sendsOnly ..
  | none =>
    simp only [emit]
    split
    · exact ((count_frame ..).trans (countDrop_countsOnly ..)).sendsOnly
    case h_2 b _ =>
      have hr := route_sendsOnly s b (localPos pkt.seal) pkt.seal
      split
      case h_1 h => rw [h] at hr; exact hr.trans (countDrop_countsOnly ..).sendsOnly
      case h_2 h => rw [h] at hr; exact hr.trans (countDrop_countsOnly ..).sendsOnly
      case h_3 h => rw [h] at hr; exact hr.trans (countTx_addFlow_sendsOnly ..)
      case h_4 u h =>
        rw [h] at hr
        have ht := acceptTwin_sendsOnly pkt.seal u
        split
        · split
          case h_1 h => rw [h] at ht; exact hr.trans (ht.trans (countTx_addFlow_sendsOnly ..))
          case h_2 h => rw [h] at ht; exact hr.trans (ht.trans (countTx_countsOnly ..).sendsOnly)
        · exact hr.trans (countTx_addFlow_sendsOnly ..)

theorem emitTwin_sendsOnly (pkt : Packet) (s : State) : SendsOnly s (emitTwin pkt s).2 := by
  simp only [emitTwin]
  split
  · split
    · exact (emit_sendsOnly ..).trans (emit_sendsOnly ..)
    all_goals exact emit_sendsOnly ..
  · split
    · exact emit_sendsOnly ..
    · refine SendsOnly.trans (emit_sendsOnly pkt none s) (SendsOnly.trans ?_ (emit_sendsOnly ..))
      unfold cond'
      split <;> exact .refl _

theorem emitAny_sendsOnly (pkt : Packet) (forced : Option Nat) (s : State) :
    SendsOnly s (emitAny pkt forced s).2 := by
  unfold emitAny
  split
  · exact emitTwin_sendsOnly ..
  · exact emit_sendsOnly ..

theorem sendErr_sendsOnly (q : Packet) (code : Nat) (s : State) : SendsOnly s (sendErr q code s) :=
  emitAny_sendsOnly ..

/-! ## The part without a pool (R4) -/

/-- A step of the fabric die that leaves Hound nothing to do is its effect (R463, R482). -/
theorem onFabric_runs (f : State → State) (s : State) (hs : Runs s) (h : (f s).hnd.todo = []) :
    onFabric f s = .next (f s) := by
  obtain ⟨⟨hsealed, -⟩, hfab, -⟩ := hs
  have hf : cond' s.fabRuns f s = f s := by simp [cond', hfab]
  exact (live_quiet _ s hsealed (by rw [hf]; exact h)).trans (by rw [hf])

/-- The tests of R241 begin with the part: without a pool every access is refused, and nothing is translated. -/
theorem poolAccess_noPool (op : PoolOp) (a : Arrival) (k : Nat) (p : Packet) (s : State) (h : s.part = .s) :
    poolAccess op a k p s = sendErr p Code.featureNotAccepted s := by
  have early : refusedEarly s k p.addr.toNat op = some Code.featureNotAccepted := by
    simp [refusedEarly, State.hasPool, h]
  simp [poolAccess, poolCheck, walkRaise, early, cond']

/-- A packet for the pool of a part without one is answered, whatever it asks for. -/
theorem poolPacket_noPool {s : State} {a : Arrival} {k opc : Nat} (op : Packet → PoolOp) (hp : s.part = .s)
    (ht : a.pkt.ktag ≠ 0) (hk : servedKennel s a.pkt.ktag = some k) (hc : s.scent k = none)
    (hr : isPool a.pkt opc = true) :
    poolPacket opc op a s = sendErr a.pkt Code.featureNotAccepted (takeArrival a s) := by
  have held : heldByScent a s = false := by simp [heldByScent, hk, scentHolds, hc]
  have hk' : servedKennel (takeArrival a s) a.pkt.ktag = some k := hk
  have ht' : ¬ a.pkt.ktag = 0#16 := ht
  simp [poolPacket, hr, held, forKennel, ht', hk', poolAccess_noPool _ _ _ _ (takeArrival a s) hp]

/-- Settles O54: the first test of R241 refuses the access with FEATURE_NOT_ACCEPTED, and an answer leaves the pool as
it is. -/
theorem noPoolOnTheSwitchPart : Obligations.NoPoolOnTheSwitchPart := by
  unfold Obligations.NoPoolOnTheSwitchPart
  intro s a k hs hp ht hk hc r hr hi
  have answer : SendsOnly s (sendErr a.pkt Code.featureNotAccepted (takeArrival a s)) :=
    SendsOnly.trans (t := takeArrival a s) rfl (sendErr_sendsOnly ..)
  have runs : ∀ (opc : Nat) (op : Packet → PoolOp), isPool a.pkt opc = true →
      onFabric (poolPacket opc op a) s = .next (sendErr a.pkt Code.featureNotAccepted (takeArrival a s)) := by
    intro opc op ho
    have heq := poolPacket_noPool op hp ht hk hc ho
    rw [onFabric_runs _ s hs (by rw [heq, answer.hnd]; exact hs.1.2), heq]
  refine ⟨?_, answer.pool⟩
  simp only [List.mem_cons, List.not_mem_nil, or_false] at hr
  obtain rfl | rfl | rfl | rfl | rfl | rfl := hr
  all_goals exact runs _ _ hi

end Sys2Proof.Machine
end

section
/-! SUPPORT. Register accesses (R5 to R10): what a write and a clearing read store in each field, and a source of
severity 0 or 1. -/

namespace Sys2Proof.Machine

/-! ## Registers alone change -/

/-- What a write of stored fields may change. -/
def RegsOnly (s t : State) : Prop := t = { s with csr := t.csr }

theorem RegsOnly.refl (s : State) : RegsOnly s s := rfl

theorem RegsOnly.trans {s t u : State} (h : RegsOnly s t) (k : RegsOnly t u) : RegsOnly s u := by
  unfold RegsOnly at *; rw [k, h]

theorem RegsOnly.foldl {α : Type} (f : State → α → State) (h : ∀ s a, RegsOnly s (f s a)) (l : List α) (s : State) :
    RegsOnly s (l.foldl f s) :=
  l.foldlRecOn f (.refl s) fun _ hb a _ => hb.trans (h _ a)

theorem RegsOnly.spg {s t : State} (h : RegsOnly s t) : t.spg = s.spg := by rw [h]
theorem RegsOnly.hnd {s t : State} (h : RegsOnly s t) : t.hnd = s.hnd := by rw [h]
theorem RegsOnly.klp {s t : State} (h : RegsOnly s t) : t.klp = s.klp := by rw [h]
theorem RegsOnly.host {s t : State} (h : RegsOnly s t) : t.host = s.host := by rw [h]
theorem RegsOnly.outp {s t : State} (h : RegsOnly s t) (p : Nat) : t.outp p = s.outp p := by rw [h]; rfl

theorem wr_regsOnly (s : State) (f : Fld) (v i : Nat) : RegsOnly s (s.wr f v i) := rfl

/-! ## The places of fields -/

/-- Two fields of one register stand at different bits. -/
theorem fields_pairwise (r : Reg) : (Reg.fields r).Pairwise fun f g => f.reg = g.reg ∧ f.lo ≠ g.lo := by
  cases r <;> decide

theorem fkey_ne_of_lo {f g : Fld} (hr : f.reg = g.reg) (hl : f.lo ≠ g.lo) (i : Nat) : fkey f i ≠ fkey g i := by
  simp only [fkey, hr]; omega

/-- The fields of one element have places of their own. -/
theorem fields_keys (r : Reg) (i : Nat) : (Reg.fields r).Pairwise fun f g => fkey f i ≠ fkey g i :=
  (fields_pairwise r).imp fun h => fkey_ne_of_lo h.1 h.2 i

theorem fkey_ne_of_mem {r : Reg} {f g : Fld} (hf : f ∈ Reg.fields r) (hg : g ∈ Reg.fields r) (h : f ≠ g) (i : Nat) :
    fkey f i ≠ fkey g i := by
  obtain ⟨a, ha, rfl⟩ := List.mem_iff_getElem.mp hf
  obtain ⟨b, hb, rfl⟩ := List.mem_iff_getElem.mp hg
  have keys := List.pairwise_iff_getElem.mp (fields_keys r i)
  rcases Nat.lt_trichotomy a b with hab | rfl | hab
  · exact keys a b ha hb hab
  · exact absurd rfl h
  · exact (keys b a hb ha hab).symm

/-- Updates `u a`, each of its own field `fld a` alone, leave a field at another place as it is. -/
theorem foldl_rd_other {α : Type} (fld : α → Fld) (i : Nat) (u : State → α → State)
    (hu : ∀ s a f, fkey f i ≠ fkey (fld a) i → (u s a).rd f i = s.rd f i) (f : Fld) (l : List α) (s : State)
    (h : ∀ a ∈ l, fkey f i ≠ fkey (fld a) i) : (l.foldl u s).rd f i = s.rd f i := by
  induction l generalizing s with
  | nil => rfl
  | cons a l ih =>
    rw [List.foldl_cons, ih _ fun b hb => h b (.tail _ hb), hu s a f (h a (.head _))]

/-- Of updates of fields at different places, a field sees its own alone. -/
theorem foldl_rd_own {α : Type} (fld : α → Fld) (i : Nat) (u : State → α → State)
    (hu : ∀ s a f, fkey f i ≠ fkey (fld a) i → (u s a).rd f i = s.rd f i) (hr : ∀ s a, RegsOnly s (u s a))
    (l : List α) (hl : l.Pairwise fun a b => fkey (fld a) i ≠ fkey (fld b) i) {a : α} (ha : a ∈ l) (s : State) :
    ∃ t, RegsOnly s t ∧ t.rd (fld a) i = s.rd (fld a) i ∧ (l.foldl u s).rd (fld a) i = (u t a).rd (fld a) i := by
  induction l generalizing s with
  | nil => cases ha
  | cons b l ih =>
    obtain ⟨hb, hl⟩ := List.pairwise_cons.mp hl
    rw [List.foldl_cons]
    rcases List.mem_cons.mp ha with rfl | ha
    · exact ⟨s, .refl s, rfl, foldl_rd_other fld i u hu _ l _ hb⟩
    · obtain ⟨t, ht, hsame, hown⟩ := ih hl ha (u s b)
      exact ⟨t, (hr s b).trans ht, hsame.trans (hu s b _ (hb a ha).symm), hown⟩

/-! ## Writes by access code (R5) -/

theorem writeField_regsOnly (f : Fld) (i v : Nat) (s : State) : RegsOnly s (writeField f i v s) := by
  unfold writeField
  split
  case h_3 => split <;> rfl
  all_goals rfl

theorem writeFields_regsOnly (r : Reg) (i v : Nat) (s : State) : RegsOnly s (writeFields r i v s) :=
  .foldl _ (fun s f => writeField_regsOnly f i v s) _ s

/-- A write of one field leaves every other as it is. -/
theorem writeField_rd_ne {f g : Fld} {i : Nat} (v : Nat) (s : State) (h : fkey g i ≠ fkey f i) :
    (writeField f i v s).rd g i = s.rd g i := by
  have other : ∀ x, (s.wr f x i).rd g i = s.rd g i := fun x => s.rd_wr_ne x h
  unfold writeField
  split
  case h_3 => split <;> simp only [other]
  all_goals simp only [other]

/-- A write of an element stores each field as its own access code says. -/
theorem writeFields_rd {r : Reg} {f : Fld} (hf : f ∈ Reg.fields r) (i v : Nat) (s : State) :
    ∃ t, RegsOnly s t ∧ t.rd f i = s.rd f i ∧ (writeFields r i v s).rd f i = (writeField f i v t).rd f i :=
  foldl_rd_own id i (fun s f => writeField f i v s) (fun s _ _ h => writeField_rd_ne v s h)
    (fun s f => writeField_regsOnly f i v s) _ (fields_keys r i) hf s

/-! ## Clearing reads (R5, R151) -/

theorem clear_regsOnly (l : List Fld) (i : Nat) (s : State) : RegsOnly s (l.foldl (fun s f => s.wr f 0 i) s) :=
  .foldl _ (fun s f => wr_regsOnly s f 0 i) l s

theorem clearRoc_regsOnly (r : Reg) (i : Nat) (s : State) : RegsOnly s (clearRoc r i s) := by
  unfold clearRoc
  split
  · exact (clear_regsOnly ..).trans (wr_regsOnly ..)
  · exact clear_regsOnly ..

/-- A clearing read leaves 0 in the ROC fields and nothing else; the high-water mark starts again. -/
theorem clearRoc_rd {r : Reg} {f : Fld} (hf : f ∈ Reg.fields r) (i : Nat) (s : State) :
    (clearRoc r i s).rd f i = if r = .OUB_QMAX then queueDepth s (i / 4) (i % 4) % 2 ^ f.w
      else if f.acc = .ROC then 0 else s.rd f i := by
  unfold clearRoc
  split
  case isTrue h =>
    subst h
    obtain rfl : f = F.OUB_QMAX_CELLS := List.mem_singleton.mp hf
    rw [State.rd_wr_same, queueDepth, (clear_regsOnly ..).outp, queueDepth]
  case isFalse =>
    have hu : ∀ (s : State) (a f : Fld), fkey f i ≠ fkey (id a) i → (s.wr a 0 i).rd f i = s.rd f i :=
      fun s a f h => s.rd_wr_ne 0 h
    by_cases hroc : f.acc = .ROC
    · have hmem : f ∈ (Reg.fields r).filter fun f => f.acc == .ROC := by simp [hf, hroc]
      obtain ⟨t, -, -, h⟩ := foldl_rd_own id i (fun s f => s.wr f 0 i) hu (fun s f => wr_regsOnly s f 0 i) _
        ((fields_keys r i).filter _) hmem s
      simpa [hroc] using h
    · have hne : ∀ g ∈ (Reg.fields r).filter fun f => f.acc == .ROC, fkey f i ≠ fkey g i := by
        intro g hg
        obtain ⟨hg, hacc⟩ := List.mem_filter.mp hg
        have hfg : f ≠ g := fun h => hroc (by simpa [h] using hacc)
        exact fkey_ne_of_mem hf hg hfg i
      simpa [hroc] using foldl_rd_other id i (fun s f => s.wr f 0 i) hu f _ s hne

/-! ## Sources of severity 0 and 1 (R463, R466) -/

/-- The model's bits of a number are Lean's. -/
theorem bit_eq_testBit (n i : Nat) : bit n i = n.testBit i := by
  rw [bit, Nat.testBit_eq_decide_div_mod_eq]
  rfl

/-- A count changes its own counter, and that of the samples lost. -/
theorem count_rd_ne (s : State) {f g : Fld} {i j : Nat} (n : Nat) (hf : fkey g j ≠ fkey f i)
    (hl : fkey g j ≠ fkey F.CTR_SLOST_CNT_COUNT 0) : (s.count f i n).rd g j = s.rd g j := by
  have record : ∀ (t : State) (m : Nat), (sampleRecord t f i m).2.csr = t.csr := by
    intro t m
    simp only [sampleRecord, State.free]
    split <;> rfl
  have push : ∀ (t : State) (r : SRec), (pushSample t r).rd g j = t.rd g j := by
    intro t r
    unfold pushSample
    split
    · rfl
    · exact State.rd_wr_ne _ _ hl
  have sampled : ∀ (t : State) (m : Nat),
      (pushSample (sampleRecord t f i m).2 (sampleRecord t f i m).1).rd g j = t.rd g j := by
    intro t m
    rw [push, State.rd, record, State.rd]
  exact List.foldlRecOn (motive := fun t : State => t.rd g j = s.rd g j) _ _ (State.rd_wr_ne _ _ hf)
    fun t ht m _ => (sampled t m).trans ht

/-- What the assertion of a source changes by itself: its sticky bit is set and its rise counted. -/
def asserted (i : Nat) (s : State) : State :=
  (s.wr F.HND_STICKY_STICKY (setBit (s.rd F.HND_STICKY_STICKY (i / 32)) (i % 32)) (i / 32)).count
    F.HND_EVT_CNT_COUNT (effSev s i)

theorem asserted_countsOnly (i : Nat) (s : State) : CountsOnly s (asserted i s) :=
  CountsOnly.trans (t := s.wr F.HND_STICKY_STICKY _ (i / 32)) rfl (count_frame ..)

theorem sealed_wr_sticky (s : State) (v i : Nat) : (s.wr F.HND_STICKY_STICKY v i).sealed' = s.sealed' := by
  refine State.rdB_wr_ne _ _ ?_
  simp only [fkey, Reg.base, Reg.bytes, Reg.wide, F.HND_STS_SEALED, F.HND_STICKY_STICKY]
  omega

theorem asserted_stickyBit {i : Nat} {s : State} (hi : i < 742) (hv : effSev s i ≤ 7) :
    stickyBit (asserted i s) i = true := by
  have h : (asserted i s).rd F.HND_STICKY_STICKY (i / 32) =
      setBit (s.rd F.HND_STICKY_STICKY (i / 32)) (i % 32) % 2 ^ 32 := by
    rw [asserted, count_rd_ne, State.rd_wr_same] <;> simp [fkey, Reg.base, Reg.bytes, Reg.wide,
      F.HND_STICKY_STICKY, F.HND_EVT_CNT_COUNT, F.CTR_SLOST_CNT_COUNT] <;> omega
  rw [stickyBit, h, bit_eq_testBit, Nat.testBit_mod_two_pow]
  simp [setBit, Nat.mod_lt]

/-- The class of a source of severity 0 or 1 has no action. -/
theorem actTogether_low (a : HAct) (s : State) (hv : a.sev ≤ 1) (hu : unitAction a.src s = s) :
    actTogether [a] s = s := by
  have hsealed : sealedBy [a] = none := by simp [sealedBy, show ¬ a.sev = 6 by omega]
  have hact : houndAct a s = s := by
    unfold houndAct
    split
    case h_4 => rfl
    all_goals omega
  simp [actTogether, hu, hsealed, hact, show ¬ a.sev = 5 by omega]

/-- An action that does nothing is taken and gone. -/
theorem settle_single (a : HAct) (s : State) (h : s.hnd.todo = []) (ha : actTogether [a] s = s) :
    settle { s with hnd := { s.hnd with todo := [a] } } = s := by
  have hclear : { s.hnd with todo := [] } = s.hnd := by rw [← h]
  simp [settle, houndRun, hclear, ha, h]

/-- A source of severity 0 or 1 without an action of its unit sets its bit and is counted when it rises, and that is
all. -/
theorem settle_raise_low {i : Nat} {s : State} (hq : quietSource s i = false) (hb : stickyBit s i = false)
    (hv : effSev s i ≤ 1) (hu : ∀ t, unitAction i t = t) (hs : Quiet s) : settle (raise i s) = asserted i s := by
  obtain ⟨hsealed, htodo⟩ := hs
  have hhnd : (asserted i s).hnd.todo = [] := by rw [(asserted_countsOnly i s).hnd, htodo]
  have hwr : ∀ v, (s.wr F.HND_STICKY_STICKY v (i / 32)).sealed' = false := fun v => (sealed_wr_sticky ..).trans hsealed
  have hraise : raise i s = { asserted i s with hnd := { (asserted i s).hnd with todo :=
      (asserted i s).hnd.todo ++ [⟨i, effSev s i, namedKennel (s.wr F.HND_STICKY_STICKY
        (setBit (s.rd F.HND_STICKY_STICKY (i / 32)) (i % 32)) (i / 32)) i⟩] } } := by
    simp only [raise, hq, hb, hwr, asserted]
    rfl
  rw [hraise, hhnd, List.nil_append]
  exact settle_single _ _ hhnd (actTogether_low _ _ hv (hu _))

end Sys2Proof.Machine
end

section
/-! SUPPORT. What the commands that access a register do, by accessor and by what the register holds (R5 to R10, R414,
R437, R522). -/

namespace Sys2Proof.Machine

/-! ## The commands and their registers -/

theorem exec_registerWrite {s : State} {r : CsrRef} {i : Nat} (hs : Quiet s) (h : elementOf r = some i)
    (by_ : Accessor) (v : W64) : exec (.registerWrite by_ r v) s = fin (csrWrite by_ r.reg i v.toNat s) := by
  show execRegisterWrite by_ r v s = _
  simp [execRegisterWrite, h, live, hs.1]

theorem exec_monRead {s : State} {r : CsrRef} {i : Nat} (hs : Quiet s) (h : elementOf r = some i)
    (by_ : Accessor) (q : Bool) : exec (.nonMonitorMonRead by_ ⟨q, r⟩) s = fin (monRead by_ q r.reg i s) := by
  show execNonMonitorMonRead by_ ⟨q, r⟩ s = _
  simp [execNonMonitorMonRead, h, live, hs.1]

theorem exec_clearingRead {s : State} {r : CsrRef} {i : Nat} (hs : Quiet s) (h : elementOf r = some i)
    (by_ : Accessor) (q : Bool) : exec (.counterClearingRead ⟨by_, q, r⟩) s = fin (clearingRead by_ q r.reg i s) := by
  show execCounterClearingRead ⟨by_, q, r⟩ s = _
  simp [execCounterClearingRead, h, live, hs.1]

theorem exec_reporterRequest {s : State} {r : CsrRef} {i : Nat} (h : elementOf r = some i) :
    exec (.reporterRequest r) s = fin (reporter r.reg i s) := by
  show execReporterRequest r s = _
  simp [execReporterRequest, h]

/-! ## An address that no register occupies (R522) -/

theorem registerWrite_unoccupied {s : State} {r : CsrRef} (hs : Quiet s) (h : elementOf r = none) (by_ : Accessor)
    (v : W64) : exec (.registerWrite by_ r v) s = .next s := by
  show execRegisterWrite by_ r v s = _
  simp [execRegisterWrite, h, live_quiet id s hs.1 hs.2]

/-- Both commands that read return 0 to an accessor that reaches the address, and nothing to another. -/
theorem read_unoccupied {s : State} {r : CsrRef} (hs : Quiet s) (h : elementOf r = none) (by_ : Accessor) (q : Bool) :
    exec (.nonMonitorMonRead by_ ⟨q, r⟩) s = .next (unoccupiedRead by_ s) ∧
      exec (.counterClearingRead ⟨by_, q, r⟩) s = .next (unoccupiedRead by_ s) := by
  have hl : live (unoccupiedRead by_) s = .next (unoccupiedRead by_ s) := by
    refine live_quiet _ s hs.1 ?_
    unfold unoccupiedRead
    split <;> exact hs.2
  constructor
  · show execNonMonitorMonRead by_ ⟨q, r⟩ s = _
    simpa [execNonMonitorMonRead, h] using hl
  · show execCounterClearingRead ⟨by_, q, r⟩ s = _
    simpa [execCounterClearingRead, h] using hl

theorem reporterRequest_unoccupied {s : State} {r : CsrRef} (hs : Quiet s) (h : elementOf r = none) :
    exec (.reporterRequest r) s = .next s := by
  show execReporterRequest r s = _
  simp [execReporterRequest, h, fin_nil s hs.2]

/-! ## Writes (R5, R8, R9) -/

theorem csrWrite_ignored {by_ : Accessor} {r : Reg} {i : Nat} {s : State}
    (h : reaches by_ s = false ∨ absentReg s r i = true ∨ dieHeld s r = true) (v : Nat) :
    csrWrite by_ r i v s = s := by
  unfold csrWrite
  rw [if_pos]
  rcases h with h | h | h <;> simp [h]

section
variable {by_ : Accessor} {r : Reg} {i : Nat} {s : State} (hr : reaches by_ s = true) (ha : absentReg s r i = false)
  (hd : dieHeld s r = false)
include hr ha hd

/-- R9: a write of a MON field by another accessor than the monitor. -/
theorem csrWrite_refused (hm : monFields r ≠ []) (hb : by_ ≠ .monitor) (v : Nat) :
    csrWrite by_ r i v s = raise 720 s := by
  simp [csrWrite, hr, ha, hd, hm, hb]

theorem csrWrite_allowed (h : monFields r = [] ∨ by_ = .monitor) (v : Nat) :
    csrWrite by_ r i v s = writeElem r i (wordFor r v) s := by
  rcases h with h | rfl
  · simp [csrWrite, hr, ha, hd, h]
  · simp [csrWrite, hr, ha, hd]

end

/-- R9: the monitor-access source of severity 0 or 1 sets its bit and is counted. -/
theorem settle_raise_monitorAccess {s : State} (hs : Quiet s) (hb : stickyBit s 720 = false) (hv : effSev s 720 ≤ 1) :
    settle (raise 720 s) = asserted 720 s :=
  settle_raise_low (by simp [quietSource]) hb hv (fun t => by simp [unitAction]) hs

/-- The registers that O51 names as written by the access codes of their fields alone. -/
def storedRegs : List Reg :=
  [.CTR_SCTL, .DET_TSRC, .DET_TSTS, .FEA_LOCK, .HND_PATH, .LNE_EVT, .LNK_CTL, .LNK_EVT, .OUB_MIRCTL, .OUB_MIRMATCH,
    .POL_ECCLOG, .POL_SCRUB, .POL_STS, .PWR_STS, .RTE_CCTL, .RTE_STS, .RTV_CTL, .RTV_QUOTA, .SPG_SRC, .SPG_STS,
    .TCL_STS, .TCL_TXBUF, .TWN_LSTS, .TWN_RSYNC_VA]

theorem writeElem_stored {r : Reg} (h : r ∈ storedRegs) (i v : Nat) (s : State) :
    writeElem r i v s = writeFields r i v s := by
  simp only [storedRegs, List.mem_cons, List.not_mem_nil, or_false] at h
  rcases h with rfl | rfl | rfl | rfl | rfl | rfl | rfl | rfl | rfl | rfl | rfl | rfl | rfl | rfl | rfl | rfl | rfl |
    rfl | rfl | rfl | rfl | rfl | rfl | rfl <;> rfl

/-- R5: what a field of width `w` that holds `old` holds after a write of `x`, `plan` telling whether RWL fields are
locked. -/
def storedAs (plan : Bool) (acc : Access) (w old x : Nat) : Nat :=
  match acc with
  | .RW | .MON => x
  | .RWL => if plan then old else x
  | .W1C => clearBits old x % 2 ^ w
  | .W1S => (old ||| x) % 2 ^ w
  | .RO | .WO | .ROC => old

theorem writeField_rd_same (f : Fld) (i v : Nat) (s : State) : (writeField f i v s).rd f i =
    storedAs s.spg.plan f.acc f.w (s.rd f i) (v / 2 ^ f.lo % 2 ^ f.w) := by
  cases h : f.acc
  case RWL => cases hp : s.spg.plan <;> simp [writeField, storedAs, h, hp]
  all_goals simp [writeField, storedAs, h]

theorem writeFields_rd_same {r : Reg} {f : Fld} (hf : f ∈ Reg.fields r) (i v : Nat) (s : State) :
    (writeFields r i v s).rd f i = storedAs s.spg.plan f.acc f.w (s.rd f i) (v / 2 ^ f.lo % 2 ^ f.w) := by
  obtain ⟨t, ht, hsame, hown⟩ := writeFields_rd hf i v s
  rw [hown, writeField_rd_same, hsame, ht.spg]

/-! ## Reads (R9, R10) -/

theorem monRead_unreached {by_ : Accessor} {s : State} (h : reaches by_ s = false) (q : Bool) (r : Reg) (i : Nat) :
    monRead by_ q r i s = s := by simp [monRead, h]

theorem clearingRead_unreached {by_ : Accessor} {s : State} (h : reaches by_ s = false) (q : Bool) (r : Reg) (i : Nat) :
    clearingRead by_ q r i s = s := by simp [clearingRead, h]

/-- A quiet read, or one that R9 lets be, returns the word. -/
theorem monRead_returned {by_ : Accessor} {q : Bool} {r : Reg} {i : Nat} {s : State} (hr : reaches by_ s = true)
    (h : q = true ∨ by_ = .debug ∨ by_ = .monitor ∨ monFields r = [] ∨ absentReg s r i = true) :
    monRead by_ q r i s = returned (readAs by_ s r i) s := by
  simp only [monRead, hr, isQuiet]
  rcases h with h | h | h | h | h <;> simp [h]

/-- R9: the firmware's normal read of a MON field. -/
theorem monRead_firmware {r : Reg} {i : Nat} {s : State} (hm : monFields r ≠ []) (ha : absentReg s r i = false) :
    monRead .firmware false r i s = raise 720 (returned (readAs .firmware s r i) s) := by
  simp [monRead, reaches, isQuiet, hm, ha]

theorem clearingRead_quiet {by_ : Accessor} {q : Bool} {r : Reg} {i : Nat} {s : State} (hr : reaches by_ s = true)
    (hn : r ≠ .CTR_SREC) (h : isQuiet by_ q = true ∨ absentReg s r i = true) :
    clearingRead by_ q r i s = returned (readAs by_ s r i) s := by
  rcases h with h | h <;> simp [clearingRead, hr, hn, h]

theorem clearingRead_clears {by_ : Accessor} {q : Bool} {r : Reg} {i : Nat} {s : State} (hr : reaches by_ s = true)
    (hn : r ≠ .CTR_SREC) (hq : isQuiet by_ q = false) (ha : absentReg s r i = false) :
    clearingRead by_ q r i s = clearRoc r i (returned (readAs by_ s r i) s) := by
  simp [clearingRead, hr, hn, hq, ha]

/-- A clearing read of another register than CTR_SREC changes registers alone, once it has returned the word. -/
theorem clearingRead_regsOnly {by_ : Accessor} {r : Reg} {s : State} (hr : reaches by_ s = true) (hn : r ≠ .CTR_SREC)
    (q : Bool) (i : Nat) : RegsOnly (returned (readAs by_ s r i) s) (clearingRead by_ q r i s) := by
  cases hq : isQuiet by_ q
  · cases ha : absentReg s r i
    · rw [clearingRead_clears hr hn hq ha]; exact clearRoc_regsOnly ..
    · rw [clearingRead_quiet hr hn (.inr ha)]; exact .refl _
  · rw [clearingRead_quiet hr hn (.inl hq)]; exact .refl _

theorem isQuiet_iff (by_ : Accessor) (q : Bool) : isQuiet by_ q = true ↔ q = true ∨ by_ = .debug := by
  simp [isQuiet]

/-- R10: what a clearing read leaves, by what kind of read it is. -/
theorem clearingRead_spec {by_ : Accessor} {r : CsrRef} {i : Nat} {s : State} (hs : Quiet s)
    (h : elementOf r = some i) (hn : r.reg ≠ .CTR_SREC) (hr : reaches by_ s = true) (q : Bool) :
    ∃ t, exec (.counterClearingRead ⟨by_, q, r⟩) s = .next t ∧
      t.host.lastRead = BitVec.ofNat 64 (readAs by_ s r.reg i) ∧ t = { s with csr := t.csr, host := t.host } ∧
      (q = true ∨ by_ = .debug → t.csr = s.csr) ∧
      (q = false → by_ ≠ .debug → absentReg s r.reg i = false →
        ∀ f, f ∈ Reg.fields r.reg → t.rd f i = if r.reg = .OUB_QMAX then queueDepth s (i / 4) (i % 4) % 2 ^ f.w
          else if f.acc = .ROC then 0 else s.rd f i) := by
  have regs := clearingRead_regsOnly hr hn q i
  refine ⟨clearingRead by_ q r.reg i s, ?_, ?_, ?_, ?_, ?_⟩
  · rw [exec_clearingRead hs h, fin_nil _ (by rw [regs.hnd]; exact hs.2)]
  · rw [regs.host]; rfl
  · unfold RegsOnly at regs; rw [regs]; rfl
  · intro hq
    rw [clearingRead_quiet hr hn (.inl ((isQuiet_iff by_ q).mpr hq))]; rfl
  · intro hq hd ha f hf
    have hquiet : isQuiet by_ q = false := by simp [isQuiet, hq, hd]
    rw [clearingRead_clears hr hn hquiet ha]
    exact clearRoc_rd hf i _

/-- R9: what the firmware's normal read of a MON field leaves. -/
theorem monRead_firmware_spec {r : CsrRef} {i : Nat} {s : State} (hs : Quiet s) (h : elementOf r = some i)
    (hm : monFields r.reg ≠ []) (ha : absentReg s r.reg i = false) (hb : stickyBit s 720 = false)
    (hv : effSev s 720 ≤ 1) : ∃ t, exec (.nonMonitorMonRead .firmware ⟨false, r⟩) s = .next t ∧
      t.host.lastRead = BitVec.ofNat 64 (readAs .firmware s r.reg i) ∧ stickyBit t 720 = true := by
  have hq : Quiet (returned (readAs .firmware s r.reg i) s) := hs
  refine ⟨asserted 720 (returned (readAs .firmware s r.reg i) s), ?_, ?_, ?_⟩
  · rw [exec_monRead hs h, monRead_firmware hm ha, fin, settle_raise_monitorAccess hq hb hv]
  · rw [asserted_countsOnly]; rfl
  · exact asserted_stickyBit (by omega) (Nat.le_trans hv (by omega))

/-- R5: what a write stores in a register whose fields act by their access codes alone. -/
theorem registerWrite_stored_spec {by_ : Accessor} {r : CsrRef} {i : Nat} {s : State} (hs : Quiet s)
    (h : elementOf r = some i) (hr : reaches by_ s = true) (ha : absentReg s r.reg i = false)
    (hd : dieHeld s r.reg = false) (hm : monFields r.reg = [] ∨ by_ = .monitor) (hst : r.reg ∈ storedRegs) (v : W64) :
    ∃ t, exec (.registerWrite by_ r v) s = .next t ∧ t = { s with csr := t.csr } ∧
      ∀ f, f ∈ Reg.fields r.reg → t.rd f i = storedAs s.spg.plan f.acc f.w (s.rd f i)
        (wordFor r.reg v.toNat / 2 ^ f.lo % 2 ^ f.w) := by
  have regs := writeFields_regsOnly r.reg i (wordFor r.reg v.toNat) s
  refine ⟨writeFields r.reg i (wordFor r.reg v.toNat) s, ?_, regs, fun f hf => writeFields_rd_same hf ..⟩
  rw [exec_registerWrite hs h, csrWrite_allowed hr ha hd hm, writeElem_stored hst,
    fin_nil _ (by rw [regs.hnd]; exact hs.2)]

theorem registerWrite_refused_spec {by_ : Accessor} {r : CsrRef} {i : Nat} {s : State} (hs : Quiet s)
    (h : elementOf r = some i) (hr : reaches by_ s = true) (ha : absentReg s r.reg i = false)
    (hd : dieHeld s r.reg = false) (hm : monFields r.reg ≠ []) (hby : by_ ≠ .monitor) (hb : stickyBit s 720 = false)
    (hv : effSev s 720 ≤ 1) (v : W64) : ∃ t, exec (.registerWrite by_ r v) s = .next t ∧ stickyBit t 720 = true ∧
      t = { s with csr := t.csr, samp := t.samp, freeIdx := t.freeIdx } := by
  refine ⟨asserted 720 s, ?_, asserted_stickyBit (by omega) (Nat.le_trans hv (by omega)), asserted_countsOnly 720 s⟩
  rw [exec_registerWrite hs h, csrWrite_refused hr ha hd hm hby, fin, settle_raise_monitorAccess hs hb hv]

/-! ## The reporter and the sampling queue (R414, R473, R516) -/

theorem reporterRequest_spec {r : CsrRef} {i : Nat} {s : State} (hs : Quiet s) (h : elementOf r = some i) :
    (s.klp.mode ≠ .reporter → exec (.reporterRequest r) s = .next s) ∧
    (s.klp.mode = .reporter → exec (.reporterRequest r) s = .next { s with klp := { s.klp with
      report := some (Reg.base .KLP_BOOTSTS, csrWord s .KLP_BOOTSTS 0) } }) := by
  rw [exec_reporterRequest h]
  constructor
  · intro hm
    rw [show reporter r.reg i s = s by simp [reporter, hm], fin_nil s hs.2]
  · intro hm
    rw [reporter, if_neg (fun h => h hm), if_neg (by simp [hs.1])]
    exact fin_nil _ hs.2

theorem exec_srecPop {s : State} (hs : Quiet s) (q : Bool) : exec (.srecPop q) s = .next (srecPop q s) := by
  refine live_quiet (srecPop q) s hs.1 ?_
  cases q <;> exact hs.2

/-- R522: an address that no register occupies reads 0 and ignores writes. -/
theorem unoccupied_spec (s : State) (r : CsrRef) (hs : Quiet s) :
    (elementOf r = none → ∀ by_ v q, exec (.registerWrite by_ r v) s = .next s ∧
      (reaches by_ s = true →
        exec (.nonMonitorMonRead by_ ⟨q, r⟩) s = .next { s with host := { s.host with lastRead := 0 } } ∧
        exec (.counterClearingRead ⟨by_, q, r⟩) s = .next { s with host := { s.host with lastRead := 0 } }) ∧
      (reaches by_ s = false → exec (.nonMonitorMonRead by_ ⟨q, r⟩) s = .next s ∧
        exec (.counterClearingRead ⟨by_, q, r⟩) s = .next s) ∧
      exec (.reporterRequest r) s = .next s) := by
  intro h by_ v q
  obtain ⟨hmon, hclear⟩ := read_unoccupied hs h by_ q
  refine ⟨registerWrite_unoccupied hs h by_ v, fun hr => ?_, fun hr => ?_, reporterRequest_unoccupied hs h⟩
  · rw [hmon, hclear, unoccupiedRead, if_pos hr]; exact ⟨rfl, rfl⟩
  · rw [hmon, hclear, unoccupiedRead, if_neg (by simp [hr])]; exact ⟨rfl, rfl⟩

end Sys2Proof.Machine
end

section
/-! SUPPORT. The registers whose writes do more than store their fields (R8, R255, R259, R395, R406, R438, R439, R465,
R483), and the statement on register accesses. -/

namespace Sys2Proof.Machine

/-! ## Severities (R465) -/

theorem sevField_reg (i : Nat) : (sevField i).reg = .HND_SEV := by
  unfold sevField; split <;> rfl

theorem sevField_w (i : Nat) : (sevField i).w = 3 := by
  unfold sevField; split <;> rfl

theorem sevField_lo (i : Nat) : (sevField i).lo = 4 * (i % 8) := by
  have h : i % 8 = 0 ∨ i % 8 = 1 ∨ i % 8 = 2 ∨ i % 8 = 3 ∨ i % 8 = 4 ∨ i % 8 = 5 ∨ i % 8 = 6 ∨ i % 8 = 7 := by omega
  rcases h with h | h | h | h | h | h | h | h <;> simp only [sevField, h] <;> rfl

theorem houndFloor_lt (i : Nat) : houndFloor i < 8 := by
  unfold houndFloor
  split
  · omega
  · split
    · omega
    · split <;> omega

/-- One severity of a word, below its floor raised to it. -/
def writeSevField (n v : Nat) (s : State) (j : Nat) : State :=
  if 8 * n + j < 742 then s.wr (sevField (8 * n + j)) (max (v / 2 ^ (4 * j) % 8) (houndFloor (8 * n + j))) n else s

theorem writeSev_eq (n v : Nat) (s : State) : writeSev n v s = (upto 8).foldl (writeSevField n v) s := rfl

theorem writeSev_sev {n j : Nat} (v : Nat) (s : State) (hn : n < 92) (hj : j < 8) :
    (writeSev n v s).sev (8 * n + j) = max (v / 2 ^ (4 * j) % 8) (houndFloor (8 * n + j)) := by
  have hu : ∀ (t : State) (a : Nat) (f : Fld), fkey f n ≠ fkey (sevField (8 * n + a)) n →
      (writeSevField n v t a).rd f n = t.rd f n := by
    intro t a f h
    unfold writeSevField
    split
    · exact t.rd_wr_ne _ h
    · rfl
  have hr : ∀ (t : State) (a : Nat), RegsOnly t (writeSevField n v t a) := by
    intro t a
    unfold writeSevField
    split <;> rfl
  have hl : (upto 8).Pairwise fun a b => fkey (sevField (8 * n + a)) n ≠ fkey (sevField (8 * n + b)) n := by
    refine List.pairwise_lt_range.imp_of_mem fun {a b} ha hb hab => fkey_ne_of_lo (by simp [sevField_reg]) ?_ n
    have ha := List.mem_range.mp ha
    have hb := List.mem_range.mp hb
    rw [sevField_lo, sevField_lo]
    omega
  obtain ⟨t, -, -, h⟩ := foldl_rd_own (fun a => sevField (8 * n + a)) n (writeSevField n v) hu hr (upto 8) hl
    (a := j) (by simpa [upto] using hj) s
  have hlt : max (v / 2 ^ (4 * j) % 8) (houndFloor (8 * n + j)) < 2 ^ 3 :=
    Nat.max_lt.mpr ⟨Nat.mod_lt _ (by omega), houndFloor_lt _⟩
  rw [writeSev_eq, State.sev, show (8 * n + j) / 8 = n by omega, h, writeSevField, if_pos (by omega), State.rd_wr_same,
    sevField_w, Nat.mod_eq_of_lt hlt]

/-! ## Locked sequences (R438): KLP_SEQ -/

theorem raise_klp (i : Nat) (s : State) : (raise i s).klp = s.klp := by
  have count : ∀ (t : State) (f : Fld) (i : Nat), (t.count f i).klp = t.klp := by
    intro t f i; rw [count_frame t f i 1]
  unfold raise
  split
  · rfl
  · dsimp only
    split <;> exact count ..

theorem sendKeyMsg_klp (p m : Nat) (msg : List Byte) (s : State) : (sendKeyMsg p m msg s).klp = s.klp := by
  refine List.foldlRecOn (motive := fun t : State => t.klp = s.klp) _ _ rfl fun t ht b _ => ?_
  unfold sendFar
  split <;> exact ht

theorem openExchange_seqAt (p : Nat) (k : LinkSec) (s : State) : (openExchange p k s).klp.seqAt = s.klp.seqAt := by
  unfold openExchange
  dsimp only
  split
  · rw [exchangeFails, linkAuthFail, raise_klp, count_frame _ F.MON_LINKAUTH_CNT_COUNT p 1]; rfl
  · split
    · rw [sendKeyMsg_klp]; rfl
    · rfl

theorem resumeExchanges_seqAt (s : State) : (resumeExchanges s).klp.seqAt = s.klp.seqAt := by
  unfold resumeExchanges
  refine List.foldlRecOn (motive := fun t : State => t.klp.seqAt = s.klp.seqAt) _ _ rfl fun t ht p _ => ?_
  split
  · split
    · rw [openExchange_seqAt, ht]
    · exact ht
  · exact ht

theorem seqStore_seqAt (s : State) (x : SeqOp) : (seqStore s x).klp.seqAt = s.klp.seqAt := by
  cases x with
  | link p y => unfold seqStore; dsimp only; split <;> rfl
  | _ => rfl

theorem deriveFw_seqAt (s : State) : (deriveFw s).klp.seqAt = s.klp.seqAt := by
  unfold deriveFw
  dsimp only
  split
  · rfl
  · rw [seqStore_seqAt]

theorem writePolicy_seqAt (s : State) : (writePolicy s).klp.seqAt = s.klp.seqAt := by
  have stores : ∀ (f : Nat → Fld) (v i : Nat → Nat) (l : List Nat) (t : State),
      RegsOnly t (l.foldl (fun t n => t.wr (f n) (v n) (i n)) t) :=
    fun f v i l t => .foldl _ (fun t n => wr_regsOnly t (f n) (v n) (i n)) l t
  unfold writePolicy
  split
  · rfl
  · dsimp only
    rw [(stores _ _ _ _ _).klp, (stores (fun _ => F.SPG_POLICY_HASH) _ _ _ _).klp]

theorem lockMonitor_seqAt (n : Nat) (s : State) : (lockMonitor n s).klp.seqAt = s.klp.seqAt := by
  unfold lockMonitor
  split
  · rfl
  · dsimp only
    split
    · have h : ∀ (pc : Nat) (t : State),
          (resumeExchanges (enterFirmware pc (deriveFw (writePolicy t)))).klp.seqAt = t.klp.seqAt := by
        intro pc t
        rw [resumeExchanges_seqAt]
        exact (deriveFw_seqAt _).trans (writePolicy_seqAt t)
      split
      · rw [State.wr_klp, h]; rfl
      · rw [h]; rfl
    · rfl

/-- No operand opens a sequence. -/
theorem seqApply_seqAt (s : State) (x : SeqOp) : (seqApply s x).klp.seqAt = s.klp.seqAt := by
  cases x with
  | monLock n => exact lockMonitor_seqAt n s
  | _ => exact seqStore_seqAt s _

/-- After GO no sequence is open. -/
theorem seqGo_seqAt (s : State) : (seqGo s).klp.seqAt = none := by
  unfold seqGo
  split
  case h_1 h => exact h
  case h_2 t h =>
    split
    · rw [seqAbort, if_pos (by simp [h])]; rfl
    · exact List.foldlRecOn (motive := fun u : State => u.klp.seqAt = none) _ _ rfl
        fun u hu x _ => (seqApply_seqAt u x).trans hu

/-- R7: GO written beside OPEN acts first, so that a sequence is open afterwards. -/
theorem writeSeq_open (s : State) : (writeSeq 3 s).rd F.KLP_SEQ_OPEN = 1 := by
  have h : writeSeq 3 s = seqOpen (seqGo (writeCodes [.W1C] .KLP_SEQ 0 3 s)) := rfl
  rw [h, seqOpen, if_neg (by simp [seqGo_seqAt])]
  simp [F.KLP_SEQ_OPEN]

/-! ## The policy block (R439): SPG_POLICY -/

theorem writeFields_policy (i v : Nat) (s : State) :
    writeFields .SPG_POLICY i v s = s.wr F.SPG_POLICY_HASH (v / 2 ^ 0 % 2 ^ 32) i := rfl

theorem writePolicyWord_hash {i : Nat} (v : Nat) (s : State) (hi : i < 24) :
    (writePolicyWord i v s).rd F.SPG_POLICY_HASH i = v % 2 ^ 32 := by
  have hne : fkey F.SPG_POLICY_HASH i ≠ fkey F.KLP_CERT_CERTIFIED 0 := by
    simp only [fkey, Reg.base, Reg.bytes, Reg.wide, F.SPG_POLICY_HASH, F.KLP_CERT_CERTIFIED, Bool.false_eq_true,
      if_false]
    omega
  have stored : (writeFields .SPG_POLICY i v s).rd F.SPG_POLICY_HASH i = v % 2 ^ 32 := by
    rw [writeFields_policy, State.rd_wr_same]
    simp [F.SPG_POLICY_HASH]
  unfold writePolicyWord
  dsimp only
  split
  · rw [uncertify, State.rd_wr_ne _ _ hne]; exact stored
  · exact stored

theorem writePolicyWord_first {i v : Nat} {s : State} (h : s.klp.policyIn = false) :
    (writePolicyWord i v s).klp = s.klp := by
  have hk := (writeFields_regsOnly .SPG_POLICY i v s).klp
  simp [writePolicyWord, hk, h]

theorem writePolicyWord_later {i v : Nat} {s : State} (h : s.klp.policyIn = true) :
    (writePolicyWord i v s).klp = { s.klp with certLost := true } ∧
      (writePolicyWord i v s).rd F.KLP_CERT_CERTIFIED = 0 := by
  have hk := (writeFields_regsOnly .SPG_POLICY i v s).klp
  simp [writePolicyWord, hk, h, uncertify]

/-! ## Other registers -/

theorem writeSlot_open {s : State} (hm : s.rd F.POL_MODE_MODE = 0) (hp : s.rd F.POL_MODE_PEND = 0) (e v : Nat) :
    writeSlot e v s =
      { s with pool := { s.pool with slots := Tbl.put s.pool.slots e (v % 512) (resetSlot e).word } } := by
  simp [writeSlot, State.rdB, hm, hp]

theorem writeSlot_static {s : State} (h : s.rd F.POL_MODE_MODE ≠ 0 ∨ s.rd F.POL_MODE_PEND ≠ 0) (e v : Nat) :
    writeSlot e v s = s := by
  rcases h with h | h <;> simp [writeSlot, State.rdB, h]

theorem writeAccept_open {i : Nat} {s : State} (h : s.rd F.FEA_LOCK_LOCK = 0) (v : Nat) :
    (writeAccept i v s).rd F.FEA_ACCEPT_BITS i = (v &&& (s.part.offer / 2 ^ (32 * i))) % 2 ^ 32 := by
  rw [writeAccept, if_neg (by simp [State.rdB, h]), State.rd_wr_same]
  rfl

theorem writeAccept_locked {i : Nat} {s : State} (h : s.rd F.FEA_LOCK_LOCK ≠ 0) (v : Nat) : writeAccept i v s = s := by
  simp [writeAccept, State.rdB, h]

theorem writeMonrgn_set {s : State} (h : s.pool.rgnSet = true) (v : Nat) : writeMonrgn v s = s := by
  simp [writeMonrgn, h]

theorem writeMonrgn_first {s : State} (h : s.pool.rgnSet = false) (v : Nat) :
    (writeMonrgn v s).rd F.POL_MONRGN_FIRST = v % 2 ^ F.POL_MONRGN_FIRST.w ∧ (writeMonrgn v s).pool.rgnSet = true := by
  simp [writeMonrgn, h]

/-- R395: STAGE takes its image from Kelpie's SRAM. -/
theorem writeSpgCmd_stage {s : State} (h : s.rd F.SPG_SRC_LEN ≤ 2 ^ 21) : writeSpgCmd 1 s =
    stage ((List.range (s.rd F.SPG_SRC_LEN)).map fun i => Tbl.get s.klp.sram (s.rd F.SPG_SRC_ADDR + i) 0) s := by
  show stage ((upto (min (s.rd F.SPG_SRC_LEN) (2 ^ 21))).map _) s = _
  rw [Nat.min_eq_left h]
  rfl

/-- R111: credits that sum above 16 are refused. -/
theorem writeCred_excess {v : Nat}
    (h : 16 < ((List.range 8).map fun c => v / 2 ^ (4 * c) % 16).foldl (· + ·) 0) (p : Nat) (s : State) :
    writeCred p v s = s := by
  rw [List.foldl_map] at h
  exact if_pos h

/-- Settles O51: each access by what its register is and who makes it, then each register whose write does more. -/
theorem registerAccesses : Obligations.RegisterAccesses := by
  unfold Obligations.RegisterAccesses
  constructor
  · intro s r hs
    refine ⟨unoccupied_spec s r hs, ?_, exec_srecPop hs true, exec_srecPop hs false⟩
    intro i h word
    obtain ⟨hrom, hreport⟩ := reporterRequest_spec hs h
    refine ⟨fun by_ v => ⟨fun hno => ?_, fun hr ha hd => ⟨fun hm hby hb hv => ?_, fun hm => ⟨?_, fun hst => ?_⟩⟩,
      fun q => ⟨fun hno => ?_, fun hr hret => ?_, ?_, fun hn hr => ?_⟩⟩, hrom, hreport⟩
    · rw [exec_registerWrite hs h, csrWrite_ignored hno, fin_nil s hs.2]
    · exact registerWrite_refused_spec hs h hr ha hd hm hby hb hv v
    · rw [exec_registerWrite hs h, csrWrite_allowed hr ha hd hm]; rfl
    · exact registerWrite_stored_spec hs h hr ha hd hm hst v
    · rw [exec_monRead hs h, exec_clearingRead hs h, monRead_unreached hno, clearingRead_unreached hno,
        fin_nil s hs.2]
      exact ⟨rfl, rfl⟩
    · rw [exec_monRead hs h, monRead_returned hr hret]
      exact fin_nil _ hs.2
    · rintro rfl rfl hm ha hb hv
      exact monRead_firmware_spec hs h hm ha hb hv
    · exact clearingRead_spec hs h hn hr q
  · intro s v hs
    exact ⟨rfl, fun h => writeMonrgn_set h v, fun h => writeMonrgn_first h v,
      fun i _ => ⟨fun h => writeAccept_open h v, fun h => writeAccept_locked h v⟩,
      fun n hn j hj => writeSev_sev v s hn hj, fun e _ hm hp => writeSlot_open hm hp e v,
      fun e h => writeSlot_static h e v, rfl, rfl, rfl, rfl, rfl, rfl, fun h => writeSpgCmd_stage h, writeSeq_open s,
      fun i hi => ⟨writePolicyWord_hash v s hi, writePolicyWord_first, writePolicyWord_later⟩,
      fun i _ => rfl, fun p _ => rfl, fun h => if_pos (by simpa [Option.isSome_iff_ne_none] using h),
      fun p h => writeCred_excess h p s⟩

end Sys2Proof.Machine
end

section
/-! SUPPORT. What reset leaves in the registers (R478, R148, R185), and the statement on reset values. -/

namespace Sys2Proof.Machine

@[simp] theorem State.reset_rd (f : Fld) (i : Nat) : State.reset.rd f i = resetAt f i := rfl

@[simp] theorem State.reset_act (f : Fld) (i : Nat) : State.reset.act f i = resetAt f i := rfl

/-- R478: the severity of a source resets to its class. -/
theorem State.reset_sev (i : Nat) : State.reset.sev i = houndClass i := by
  have element : State.reset.sev i = houndClass (8 * (i / 8) + (sevField i).lo / 4) := by
    simp only [State.sev, State.reset_rd, resetAt, sevField_reg]
  rw [element, sevField_lo]
  congr 1
  omega

theorem State.reset_stickyBit (i : Nat) : stickyBit State.reset i = false := by
  simp [stickyBit, bit, resetAt, F.HND_STICKY_STICKY]

/-- R465, R470: no class lies below its floor. -/
theorem houndFloor_le_houndClass (i : Nat) : houndFloor i ≤ houndClass i := by
  unfold houndFloor
  split
  case isTrue h =>
    have hclass : houndClass i = 2 := by simp [houndClass, show ¬ i < 576 by omega, show ¬ i < 612 by omega, h.2]
    exact Nat.le_of_eq hclass.symm
  split
  case isTrue h => obtain rfl | rfl | rfl | rfl := h <;> decide
  split
  case isTrue h => obtain rfl | rfl := h <;> decide
  exact Nat.zero_le _

/-- R148: the thresholds of the second curve of each class. -/
theorem State.reset_wred (c : Nat) : State.reset.act F.OUB_WRED_MIN (3 * c + 1) = 256 ∧
    State.reset.act F.OUB_WRED_MAX (3 * c + 1) = 384 := by
  have curve : (3 * c + 1) % 3 = 1 := by omega
  simp [resetAt, F.OUB_WRED_MIN, F.OUB_WRED_MAX, curve]

/-- Settles O60: the registers read their tables' values, and every other part of the state is its default. -/
theorem resetValues : Obligations.ResetValues := by
  unfold Obligations.ResetValues
  refine ⟨fun i _ => ⟨State.reset_sev i, State.reset_stickyBit i, (State.reset_sev i).symm ▸ houndFloor_le_houndClass i⟩,
    fun i hi => by simp [quietSource, hi], ⟨rfl, rfl⟩, ⟨State.reset_pool_wf, State.reset_sram_wf⟩, rfl, rfl, rfl, rfl,
    rfl, rfl, rfl, rfl, fun _ _ => ⟨rfl, rfl, rfl⟩, rfl, by decide, rfl, rfl, rfl, rfl, fun _ _ => rfl, fun _ _ => rfl,
    fun _ _ => rfl, fun c _ => State.reset_wred c⟩

end Sys2Proof.Machine
end

section
/-! SUPPORT. What the discarding of a packet changes in the switch core (R127, R149), and packets too late at an output
(R143, R168). -/

namespace Sys2Proof.Machine

/-! ## Counters (R116, R505) -/

/-- A counter shows what was added, up to its saturation. -/
theorem count_rd_same (s : State) {f : Fld} {i : Nat} (n : Nat) (hl : fkey f i ≠ fkey F.CTR_SLOST_CNT_COUNT 0) :
    (s.count f i n).rd f i = min (s.rd f i + n) (2 ^ f.w - 1) := by
  have stored : (s.wr f (min (s.rd f i + n) (2 ^ f.w - 1)) i).rd f i = min (s.rd f i + n) (2 ^ f.w - 1) := by
    rw [State.rd_wr_same, Nat.mod_eq_of_lt]
    have : 0 < 2 ^ f.w := Nat.two_pow_pos _
    omega
  have record : ∀ (t : State) (m : Nat), (sampleRecord t f i m).2.csr = t.csr := by
    intro t m
    simp only [sampleRecord, State.free]
    split <;> rfl
  have sampled : ∀ (t : State) (m : Nat),
      (pushSample (sampleRecord t f i m).2 (sampleRecord t f i m).1).rd f i = t.rd f i := by
    intro t m
    rw [← show (sampleRecord t f i m).2.rd f i = t.rd f i by rw [State.rd, record, State.rd]]
    unfold pushSample
    split
    · rfl
    · exact State.rd_wr_ne _ _ hl
  exact List.foldlRecOn (motive := fun t : State => t.rd f i = min (s.rd f i + n) (2 ^ f.w - 1)) _ _ stored
    fun t ht m _ => (sampled t m).trans ht

/-! ## A packet leaves the switch core (R127) -/

/-- What leaving its input's staging and giving back its cells changes: links, and the switch core but for its packets. -/
def KeepsFlows (s t : State) : Prop := t = { s with links := t.links, xbr := { t.xbr with flows := s.xbr.flows } }

theorem KeepsFlows.refl (s : State) : KeepsFlows s s := rfl

theorem KeepsFlows.trans {s t u : State} (h : KeepsFlows s t) (k : KeepsFlows t u) : KeepsFlows s u := by
  unfold KeepsFlows at *; rw [k, h]

theorem KeepsFlows.flows {s t : State} (h : KeepsFlows s t) : t.xbr.flows = s.xbr.flows := by rw [h]

theorem unstage_keepsFlows (f : Flow) (lo hi : Nat) (s : State) : KeepsFlows s (unstage f lo hi s) := by
  unfold unstage
  split <;> rfl

theorem unstageRest_keepsFlows (f : Flow) (s : State) : KeepsFlows s (unstageRest f s) := by
  unfold unstageRest
  split
  · exact unstage_keepsFlows ..
  · refine List.foldlRecOn (motive := KeepsFlows s) _ _ (.refl s) fun t ht c _ => ht.trans ?_
    split
    · exact unstage_keepsFlows ..
    · exact .refl t

theorem dropStream_keepsFlows (f : Flow) (s : State) : KeepsFlows s (dropStream f s) := by
  unfold dropStream
  split <;> rfl

theorem freeCells_keepsFlows (f : Flow) (n : Nat) (s : State) : KeepsFlows s (freeCells f n s) := by
  unfold freeCells
  split <;> rfl

/-- A packet that leaves changes links and the switch core, which no longer holds it. -/
theorem removeFlow_frame (f : Flow) (s : State) :
    removeFlow f s = { s with links := (removeFlow f s).links, xbr := (removeFlow f s).xbr } ∧
      (removeFlow f s).xbr.flows = s.xbr.flows.filter fun x => x.id != f.id := by
  have staging : KeepsFlows s (dropStream f (unstageRest f s)) :=
    (unstageRest_keepsFlows f s).trans (dropStream_keepsFlows f _)
  have cells : ∀ t : State, KeepsFlows t (if f.admitted then freeCells f f.heldCells t else t) := by
    intro t
    split
    · exact freeCells_keepsFlows ..
    · exact .refl t
  have output : ∀ t : State, KeepsFlows t (if f.out < 144 then t.modOutp f.out fun o =>
      { o with cur := o.cur.map fun c => if c = some f.id then none else c } else t) := by
    intro t
    split <;> rfl
  have all := (staging.trans (cells _)).trans (output _)
  constructor
  · unfold KeepsFlows at all
    unfold removeFlow
    dsimp only
    rw [all]
  · exact congrArg (List.filter _) all.flows

/-- Nothing is released and nothing delivered where no packet is. -/
theorem settleTriple_empty {s : State} (h : s.xbr.flows = []) (key : Nat) : settleTriple key s = s := by
  have released : releaseTriple key s = s := by
    simp only [releaseTriple, h, List.foldl_nil]
    rw [← h]
  rw [settleTriple, released, deliverTriple, h]
  rfl

/-- A packet from a port is discarded: it leaves, and its cause is counted. -/
theorem dropFlow_fromPort {f : Flow} (h : f.inp < 144) (c : Cause) (s : State) :
    dropFlow f c s = countCause f.inp f.out c (removeFlow f s) := by
  have hinp : ¬ 144 ≤ f.inp := by omega
  have counted : ∀ t : State, countFlow f c t = countCause f.inp f.out c t := by
    intro t
    simp [countFlow, countDrop, countKennelDrop, hinp]
  simp [dropFlow, withdrawn, hinp, counted]

/-- R149: the drop counters of port `p`. -/
theorem countDropped_rd {p : Nat} (c : Cause) (s : State) (hp : p < 144) :
    (s.count F.OUB_DROP_CNT_COUNT (16 * p + c.idx)).rd F.OUB_DROP_CNT_COUNT (16 * p + c.idx) =
      min (s.rd F.OUB_DROP_CNT_COUNT (16 * p + c.idx) + 1) (2 ^ F.OUB_DROP_CNT_COUNT.w - 1) := by
  refine count_rd_same s 1 ?_
  have hidx : c.idx ≤ 12 := by cases c <;> decide
  simp only [fkey, Reg.base, Reg.bytes, Reg.wide, F.OUB_DROP_CNT_COUNT, F.CTR_SLOST_CNT_COUNT, if_true]
  omega

/-- The only packet of the switch core is discarded, and counted for its cause at port `p`. -/
theorem dropFlow_alone {s : State} {f : Flow} {c : Cause} {p : Nat} (hf : s.xbr.flows = [f]) (hi : f.inp < 144)
    (hp : p < 144) (hc : ∀ t, countCause f.inp f.out c t = t.count F.OUB_DROP_CNT_COUNT (16 * p + c.idx)) :
    let t := settleTriple (tripleKey f) (dropFlow f c s)
    t.xbr.flows = [] ∧ t.rd F.OUB_DROP_CNT_COUNT (16 * p + c.idx) =
      min (s.rd F.OUB_DROP_CNT_COUNT (16 * p + c.idx) + 1) (2 ^ F.OUB_DROP_CNT_COUNT.w - 1) ∧
    t = { s with csr := t.csr, links := t.links, xbr := t.xbr, samp := t.samp, freeIdx := t.freeIdx } := by
  intro t
  obtain ⟨frame, flows⟩ := removeFlow_frame f s
  have counted := count_frame (removeFlow f s) F.OUB_DROP_CNT_COUNT (16 * p + c.idx) 1
  have dropped : dropFlow f c s = (removeFlow f s).count F.OUB_DROP_CNT_COUNT (16 * p + c.idx) := by
    rw [dropFlow_fromPort hi, hc]
  have empty : (dropFlow f c s).xbr.flows = [] := by rw [dropped, counted]; simp [flows, hf]
  have ht : t = (removeFlow f s).count F.OUB_DROP_CNT_COUNT (16 * p + c.idx) := by
    rw [← dropped]; exact settleTriple_empty empty _
  refine ⟨by rw [ht, ← dropped]; exact empty, ?_, ?_⟩
  · rw [ht, countDropped_rd c _ hp, show ∀ i, (removeFlow f s).rd F.OUB_DROP_CNT_COUNT i =
      s.rd F.OUB_DROP_CNT_COUNT i from fun i => by rw [frame]; rfl]
  · rw [ht]
    unfold CountsOnly at counted
    rw [counted, frame]

theorem findFlow_alone {s : State} {f : Flow} (h : s.xbr.flows = [f]) : findFlow s f.id = some f := by
  simp [findFlow, h]

/-! ## Packets too late at an output (R143, R168) -/

/-- A packet that waits over the per-hop limit is discarded and counted as LIFETIME at its input. -/
theorem lifetimeExpiry_waiting {s : State} {f : Flow} (hs : Runs s) (hf : s.xbr.flows = [f]) (hi : f.inp < 144)
    (ho : f.out < 144) (hst : f.started = false) : ∃ t, exec (.lifetimeExpiry f.id) s = .next t ∧ t.xbr.flows = [] ∧
      t.rd F.OUB_DROP_CNT_COUNT (16 * f.inp + 8) =
        min (s.rd F.OUB_DROP_CNT_COUNT (16 * f.inp + 8) + 1) (2 ^ F.OUB_DROP_CNT_COUNT.w - 1) ∧
      t = { s with csr := t.csr, links := t.links, xbr := t.xbr, samp := t.samp, freeIdx := t.freeIdx } := by
  have effect : lifetimeExpiry f.id s = settleTriple (tripleKey f) (dropFlow f .lifetime s) := by
    simp [lifetimeExpiry, findFlow_alone hf, hst, show ¬ 144 ≤ f.out by omega]
  obtain ⟨gone, counted, frame⟩ := dropFlow_alone (c := .lifetime) hf hi hi fun t => by
    simp [countCause, Cause.atInput, hi]
  refine ⟨_, ?_, gone, counted, frame⟩
  rw [← effect]
  exact onFabric_runs (lifetimeExpiry f.id) s hs (by rw [effect, frame]; exact hs.1.2)

/-- A packet with a lost cell that has neither started nor been cut short is discarded and counted as PLANE at its
output (R143). -/
theorem gapTimeout_waiting {s : State} {f : Flow} (hs : Runs s) (hf : s.xbr.flows = [f]) (hi : f.inp < 144)
    (ho : f.out < 144) (hst : f.started = false) (hcut : f.cutShort = false)
    (hlost : (f.cells.any fun c => c.st == .lost) = true) : ∃ t, exec (.resequenceGapTimeout f.id) s = .next t ∧
      t.xbr.flows = [] ∧ t.rd F.OUB_DROP_CNT_COUNT (16 * f.out + 11) =
        min (s.rd F.OUB_DROP_CNT_COUNT (16 * f.out + 11) + 1) (2 ^ F.OUB_DROP_CNT_COUNT.w - 1) ∧
      t = { s with csr := t.csr, links := t.links, xbr := t.xbr, samp := t.samp, freeIdx := t.freeIdx } := by
  have effect : gapTimeout f.id s = settleTriple (tripleKey f) (dropFlow f .plane s) := by
    simp [gapTimeout, findFlow_alone hf, hlost, hst, hcut]
  obtain ⟨gone, counted, frame⟩ := dropFlow_alone (c := .plane) hf hi ho fun t => by
    simp [countCause, Cause.atInput, ho]
  refine ⟨_, ?_, gone, counted, frame⟩
  rw [← effect]
  exact onFabric_runs (gapTimeout f.id) s hs (by rw [effect, frame]; exact hs.1.2)

end Sys2Proof.Machine
end

section
/-! SUPPORT. A source of the module-degraded class (R463, R466), and the commands on planes (R121, R143, R144). -/

namespace Sys2Proof.Machine

/-- A source that rises sets its bit, is counted, and puts its action before Hound (R463). -/
theorem raise_rises {i : Nat} {s : State} (hq : quietSource s i = false) (hb : stickyBit s i = false) (hs : Quiet s) :
    ∃ k, raise i s = { asserted i s with hnd := { (asserted i s).hnd with todo := [⟨i, effSev s i, k⟩] } } := by
  obtain ⟨hsealed, htodo⟩ := hs
  have hhnd : (asserted i s).hnd.todo = [] := by rw [(asserted_countsOnly i s).hnd, htodo]
  have sticky : ∀ v, (s.wr F.HND_STICKY_STICKY v (i / 32)).sealed' = false := fun v => (sealed_wr_sticky ..).trans hsealed
  have hraise : raise i s = { asserted i s with hnd := { (asserted i s).hnd with todo :=
      (asserted i s).hnd.todo ++ [⟨i, effSev s i, namedKennel (s.wr F.HND_STICKY_STICKY
        (setBit (s.rd F.HND_STICKY_STICKY (i / 32)) (i % 32)) (i / 32)) i⟩] } } := by
    simp only [raise, hq, hb, sticky, asserted]
    rfl
  exact ⟨_, by rw [hraise, hhnd, List.nil_append]⟩

/-- A source of the module-degraded class without an action of its unit sets its bit and is counted when it rises, and
marks the module degraded (R466). -/
theorem settle_raise_degraded {i : Nat} {s : State} (hq : quietSource s i = false) (hb : stickyBit s i = false)
    (hv : effSev s i = 4) (hu : ∀ t, unitAction i t = t) (hi : i ≠ 724) (hs : Quiet s) :
    settle (raise i s) = (asserted i s).wr F.HND_STS_DEGRADED 1 := by
  have hhnd : (asserted i s).hnd.todo = [] := by rw [(asserted_countsOnly i s).hnd, hs.2]
  obtain ⟨k, hraise⟩ := raise_rises hq hb hs
  have acts : actTogether [⟨i, effSev s i, k⟩] (asserted i s) = (asserted i s).wr F.HND_STS_DEGRADED 1 := by
    simp [actTogether, sealedBy, houndAct, degraded, hv, hu, hi]
  have cleared : { asserted i s with hnd := { (asserted i s).hnd with todo := [] } } = asserted i s := by
    rw [← hhnd]
  rw [hraise]
  simp [settle, houndRun, cleared, acts, hhnd]

/-- An assertion writes its sticky bit and its counters alone. -/
theorem asserted_rd_ne {i j : Nat} {f : Fld} (s : State) (hb : fkey f j ≠ fkey F.HND_STICKY_STICKY (i / 32))
    (hc : fkey f j ≠ fkey F.HND_EVT_CNT_COUNT (effSev s i)) (hl : fkey f j ≠ fkey F.CTR_SLOST_CNT_COUNT 0) :
    (asserted i s).rd f j = s.rd f j := by
  rw [asserted, count_rd_ne _ _ hc hl, State.rd_wr_ne _ _ hb]

/-- A unit of the fabric die does what is left to Hound to settle (R463, R482). -/
theorem fabricUnit_settle {i b : Nat} (f : State → State) {s : State} (hs : Runs s) (hi : i < b) :
    fabricUnit i b f s = .next (settle (f s)) := by
  obtain ⟨⟨hsealed, -⟩, hfab, -⟩ := hs
  simp [fabricUnit, hi, onFabric, live, hsealed, cond', hfab, fin]

theorem fabricUnit_runs {i b : Nat} (f : State → State) {s : State} (hs : Runs s) (hi : i < b)
    (h : (f s).hnd.todo = []) : fabricUnit i b f s = .next (f s) := by
  rw [fabricUnit_settle f hs hi, settle_nil _ h]

/-- The state in which plane `k` has left service for its fault, and its cells are lost or moved. -/
def planeGone (k : Nat) (s : State) : State :=
  let one : BitVec 4 := BitVec.ofNat 4 (2 ^ k)
  let s := { s with xbr := { s.xbr with up := s.xbr.up &&& ~~~one, drain := s.xbr.drain &&& ~~~one } }
  let s := s.wr F.XBR_STS_PLANEFLT (setBit (s.rd F.XBR_STS_PLANEFLT) k)
  { s with xbr := { s.xbr with
      flows := s.xbr.flows.map fun f => { f with cells := f.cells.map (movePlane k (planesFor s)) } } }

theorem planeGone_rd_ne {f : Fld} {i : Nat} (k : Nat) (s : State) (h : fkey f i ≠ fkey F.XBR_STS_PLANEFLT 0) :
    (planeGone k s).rd f i = s.rd f i := State.rd_wr_ne s _ h

theorem planeGone_fault {k : Nat} (s : State) (hk : k < 4) : bit ((planeGone k s).rd F.XBR_STS_PLANEFLT) k = true := by
  have stored : (planeGone k s).rd F.XBR_STS_PLANEFLT = setBit (s.rd F.XBR_STS_PLANEFLT) k % 2 ^ 4 :=
    State.rd_wr_same ..
  rw [stored, bit_eq_testBit, Nat.testBit_mod_two_pow]
  simp [setBit, hk]

/-- Another plane stays in service. -/
theorem up_without_ne_zero : ∀ k < 4, ∀ up : BitVec 4, up.getLsbD k = true → up ≠ BitVec.ofNat 4 (2 ^ k) →
    up &&& ~~~(BitVec.ofNat 4 (2 ^ k)) ≠ 0 := by decide

theorem raise_xbr (i : Nat) (s : State) : (raise i s).xbr = s.xbr := by
  have count : ∀ (t : State) (f : Fld) (i : Nat), (t.count f i).xbr = t.xbr := by
    intro t f i; rw [count_frame t f i 1]
  unfold raise
  split
  · rfl
  · dsimp only
    split <;> exact count ..

/-- A plane that is not the last in service leaves it, and its source rises. -/
theorem planeFault_eq {k : Nat} {s : State} (hk : k < 4) (hup : s.xbr.up.getLsbD k = true)
    (hlast : s.xbr.up ≠ BitVec.ofNat 4 (2 ^ k)) : planeFault k s = raise (708 + k) (planeGone k s) := by
  have stays : (raise (708 + k) (planeGone k s)).xbr.up ≠ 0 := by
    rw [raise_xbr]
    exact up_without_ne_zero k hk _ hup hlast
  have effect : planeFault k s = if (raise (708 + k) (planeGone k s)).xbr.up = 0
      then raise 741 (dropRequests (raise (708 + k) (planeGone k s))) else raise (708 + k) (planeGone k s) := by
    unfold planeFault
    rw [if_neg (by simp [hup])]
    rfl
  rw [effect, if_neg stays]

/-- R143, R144: a plane's fault. -/
theorem planeFault_spec {k : Nat} {s : State} (hk : k < 4) (hs : Runs s) (hup : s.xbr.up.getLsbD k = true)
    (hlast : s.xbr.up ≠ BitVec.ofNat 4 (2 ^ k)) (hsev : s.sev (708 + k) = 4) (hb : stickyBit s (708 + k) = false) :
    ∃ t, exec (.planeFault k) s = .next t ∧ t.xbr.up = s.xbr.up &&& ~~~(BitVec.ofNat 4 (2 ^ k)) ∧
      bit (t.rd F.XBR_STS_PLANEFLT) k = true ∧ stickyBit t (708 + k) = true ∧ t.rd F.HND_STS_DEGRADED = 1 ∧
      t = { s with csr := t.csr, xbr := t.xbr, samp := t.samp, freeIdx := t.freeIdx } := by
  have sev : (planeGone k s).sev (708 + k) = 4 := by
    rw [State.sev, planeGone_rd_ne, ← State.sev, hsev]
    simp only [fkey, sevField_reg, Reg.base, Reg.bytes, Reg.wide, F.XBR_STS_PLANEFLT]
    omega
  have eff : effSev (planeGone k s) (708 + k) = 4 := by simp [effSev, sev]
  have clear : stickyBit (planeGone k s) (708 + k) = false := by
    rw [stickyBit, planeGone_rd_ne, ← stickyBit, hb]
    simp only [fkey, Reg.base, Reg.bytes, Reg.wide, F.XBR_STS_PLANEFLT, F.HND_STICKY_STICKY]
    omega
  have quiet : Quiet (planeGone k s) := ⟨(State.rdB_wr_ne s _ (by decide)).trans hs.1.1, hs.1.2⟩
  have frame := asserted_countsOnly (708 + k) (planeGone k s)
  have settled : settle (planeFault k s) = (asserted (708 + k) (planeGone k s)).wr F.HND_STS_DEGRADED 1 := by
    rw [planeFault_eq hk hup hlast]
    refine settle_raise_degraded ?_ clear eff (fun t => ?_) (by omega) quiet
    · simp [quietSource]
      omega
    · rw [unitAction, if_neg (by omega), if_neg (by omega)]
  refine ⟨_, ((fabricUnit_settle (planeFault k) hs hk).trans (congrArg _ settled)), ?_, ?_, ?_, ?_, ?_⟩
  · rw [State.wr_xbr, frame]; rfl
  · rw [State.rd_wr_ne _ _ (by decide), asserted_rd_ne, planeGone_fault s hk]
    all_goals
      simp only [fkey, Reg.base, Reg.bytes, Reg.wide, F.XBR_STS_PLANEFLT, F.HND_STICKY_STICKY, F.HND_EVT_CNT_COUNT,
        F.CTR_SLOST_CNT_COUNT]
      omega
  · rw [stickyBit, State.rd_wr_ne, ← stickyBit, asserted_stickyBit (by omega) (Nat.le_trans (Nat.le_of_eq eff) (by decide))]
    simp only [fkey, Reg.base, Reg.bytes, Reg.wide, F.HND_STS_DEGRADED, F.HND_STICKY_STICKY]
    omega
  · exact State.rd_wr_same ..
  · unfold CountsOnly at frame
    rw [frame]
    rfl

theorem planeFault_absent {k : Nat} {s : State} (hk : k < 4) (hs : Runs s) (hup : s.xbr.up.getLsbD k = false) :
    exec (.planeFault k) s = .next s := by
  have none : planeFault k s = s := by simp [planeFault, hup]
  exact (fabricUnit_runs (planeFault k) hs hk (by rw [none]; exact hs.1.2)).trans (congrArg _ none)

/-- R144: a drained plane leaves service, unless it is the last one. -/
theorem planeDrainEnd_spec {k : Nat} {s : State} (hk : k < 4) (hs : Runs s) : exec (.planeDrainEnd k) s = .next (
    if s.xbr.drain.getLsbD k = true ∧ planeEmpty s k = true ∧ s.xbr.up ≠ BitVec.ofNat 4 (2 ^ k) then
      { s with xbr := { s.xbr with up := s.xbr.up &&& ~~~(BitVec.ofNat 4 (2 ^ k)),
                                   drain := s.xbr.drain &&& ~~~(BitVec.ofNat 4 (2 ^ k)) } }
    else s) := by
  have quiet : (planeDrainEnd k s).hnd.todo = [] := by
    unfold planeDrainEnd
    split <;> exact hs.1.2
  rw [show exec (.planeDrainEnd k) s = _ from fabricUnit_runs (planeDrainEnd k) hs hk quiet]
  simp [planeDrainEnd, and_assoc]

/-- R143, R144: a write of PLANEEN enables the planes in service that it names and drains the others, and is ignored where
it would leave none or none is in service. -/
theorem planeen_spec {s : State} (hs : Runs s) (m : BitVec 4) :
    let flt := BitVec.ofNat 4 (s.rd F.XBR_STS_PLANEFLT)
    exec (.planeen m) s = .next (
      if m &&& ~~~flt = 0 ∨ s.xbr.up = 0 then s
      else { s.wr F.XBR_CTL_PLANEEN m.toNat with
        xbr := { s.xbr with up := s.xbr.up ||| (m &&& ~~~flt), drain := s.xbr.up &&& ~~~m } }) := by
  intro flt
  have ignored : s.xbr.up = 0 ∨ m = 0 ∨ m &&& ~~~flt = 0 ↔ m &&& ~~~flt = 0 ∨ s.xbr.up = 0 := by
    have none_named : m = 0 → m &&& ~~~flt = 0 := by rintro rfl; exact BitVec.zero_and
    exact ⟨fun h => h.elim .inr fun h => .inl (h.elim none_named id), fun h => h.elim (.inr ∘ .inr) .inl⟩
  have quiet : (planeEnable m s).hnd.todo = [] := by
    unfold planeEnable
    dsimp only
    split <;> exact hs.1.2
  rw [show exec (.planeen m) s = _ from onFabric_runs (planeEnable m) s hs quiet]
  simp only [planeEnable, ← ignored]
  rfl

/-- R121: ROUNDS holds what was written. -/
theorem rounds_spec {s : State} (hs : Runs s) (v : BitVec 2) :
    exec (.rounds v) s = .next (s.wr F.XBR_CTL_ROUNDS v.toNat) :=
  onFabric_runs (fun s => s.wr F.XBR_CTL_ROUNDS v.toNat) s hs hs.1.2

end Sys2Proof.Machine
end

section
/-! SUPPORT. A packet cut short that has not started and has a lost cell, of which the statement on late packets and
planes fails (R143). -/

namespace Sys2Proof.Machine

/-- Both dies are out of reset. -/
def bothDiesRun : State := { State.reset with pwr := { State.reset.pwr with fabReset := false, cmpReset := false } }

theorem bothDiesRun_runs : Runs bothDiesRun := ⟨⟨rfl, rfl⟩, rfl, rfl⟩

/-- A packet from port 0 to port 1 with its one cell lost and its rest cut short, of which nothing has left. -/
def cutUnstarted : Flow :=
  { id := 0, inp := 0, out := 1, vc := 0, evc := 0, hdr := Packet.ofHeader [], total := 28, bytes := [],
    cells := [⟨0, 0, .lost⟩], admitted := true, cutShort := true }

def holdsCutUnstarted : State := { bothDiesRun with xbr := { bothDiesRun.xbr with flows := [cutUnstarted] } }

/-- A packet that has been cut short is not discarded: a lost cell leaves its triple to be released on. -/
theorem gapTimeout_cutShort {s : State} {f : Flow} {id : Nat} (h : findFlow s id = some f) (hcut : f.cutShort = true)
    (hlost : (f.cells.any fun c => c.st == .lost) = true) : gapTimeout id s = settleTriple (tripleKey f) s := by
  simp [gapTimeout, h, hcut, hlost]

/-- Refutes O12: its clause on a packet with a lost cell that has not started does not say that the packet is not cut
short, and one that is stays in the switch core.  (Only started packets are cut, so no run of the module gets there:
with `f.cutShort = false` the clause holds, `gapTimeout_waiting`.) -/
theorem not_latePacketsAndPlanes : ¬ Obligations.LatePacketsAndPlanes := by
  unfold Obligations.LatePacketsAndPlanes
  rintro ⟨late, -⟩
  obtain ⟨-, -, -, alone⟩ := late holdsCutUnstarted cutUnstarted bothDiesRun_runs
  obtain ⟨-, lost⟩ := alone rfl (by decide) (by decide) rfl
  obtain ⟨t, hexec, hgone, -⟩ := lost rfl
  have stays : (gapTimeout cutUnstarted.id holdsCutUnstarted).xbr.flows = [cutUnstarted] := by
    rw [gapTimeout_cutShort (f := cutUnstarted) rfl rfl rfl]
    rfl
  have runs : exec (.resequenceGapTimeout cutUnstarted.id) holdsCutUnstarted =
      .next (gapTimeout cutUnstarted.id holdsCutUnstarted) :=
    onFabric_runs (gapTimeout cutUnstarted.id) holdsCutUnstarted bothDiesRun_runs rfl
  obtain rfl : gapTimeout cutUnstarted.id holdsCutUnstarted = t := by
    simpa using runs.symm.trans hexec
  rw [stays] at hgone
  cases hgone

end Sys2Proof.Machine
end

section
/-! SUPPORT. What a call loads through a locked sequence where none is open (R412, R438). -/

namespace Sys2Proof.Tbl

theorem erase_erase {α : Type} (t : Tbl α) (k : Nat) : erase (erase t k) k = erase t k := by
  induction t with
  | nil => rfl
  | cons e t ih =>
    obtain ⟨j, v⟩ := e
    by_cases h : j = k <;> simp [erase, h, ih]

theorem erase_insert {α : Type} (t : Tbl α) (k : Nat) (v : α) : erase (insert t k v) k = erase t k := by
  induction t with
  | nil => simp [insert, erase]
  | cons e t ih =>
    obtain ⟨j, w⟩ := e
    by_cases h : k < j <;> simp [insert, erase, h, ih]

/-- Of two writes of one entry the later one stays. -/
theorem put_put {α : Type} [DecidableEq α] (t : Tbl α) (k : Nat) (v w d : α) :
    put (put t k v d) k w d = put t k w d := by
  have erased : erase (put t k v d) k = erase t k := by
    unfold put set
    split
    · exact erase_erase t k
    · rw [erase_insert, erase_erase]
  show (if w = d then erase (put t k v d) k else insert (erase (put t k v d) k) k w) = put t k w d
  rw [erased]
  rfl

end Sys2Proof.Tbl

namespace Sys2Proof.Machine

theorem State.wr_wr (s : State) (f : Fld) (v w i : Nat) : (s.wr f v i).wr f w i = s.wr f w i := by
  simp only [State.wr, Tbl.put_put]

/-- R438: where no sequence is open, the operand of a call takes effect alone, and no sequence is open after it. -/
theorem locked_alone {x : SeqOp} {s : State} (h : s.klp.seqAt = none) (hx : ∀ t, seqApply t x = seqStore t x) :
    locked x s = seqStore ({ s with klp := { s.klp with seqOps := [] } }.wr F.KLP_SEQ_OPEN 0) x := by
  have opened : seqAdd x (seqOpen s) =
      { s with klp := { s.klp with seqAt := some s.clock, seqOps := [x] } }.wr F.KLP_SEQ_OPEN 1 := by
    rw [seqOpen, if_neg (by simp [h])]
    rfl
  have closed : seqClose ({ s with klp := { s.klp with seqAt := some s.clock, seqOps := [x] } }.wr F.KLP_SEQ_OPEN 1) =
      { s with klp := { s.klp with seqOps := [] } }.wr F.KLP_SEQ_OPEN 0 := by
    refine (State.wr_wr { s with klp := { s.klp with seqAt := none, seqOps := [] } } F.KLP_SEQ_OPEN 1 0 0).trans ?_
    rw [← h]
  have fresh : ¬ s.clock + oneMs ≤ s.clock := by simp [oneMs]
  rw [locked, opened, ← hx, ← closed]
  exact if_neg fresh

theorem locked_lifecycle {s : State} (h : s.klp.seqAt = none) (n : Nat) : locked (.lifecycle n) s =
    { s with klp := { s.klp with seqOps := [], lcsNext := some n } }.wr F.KLP_SEQ_OPEN 0 :=
  locked_alone h fun _ => rfl

theorem locked_svn {s : State} (h : s.klp.seqAt = none) (b f : Nat) : locked (.svn b f) s =
    { s with klp := { s.klp with seqOps := [], svnBoot := b, svnFw := f } }.wr F.KLP_SEQ_OPEN 0 :=
  locked_alone h fun _ => rfl

end Sys2Proof.Machine
end

section
/-! SUPPORT. A floor raised while a locked sequence with MON_LOCK is open, and the statement on debug and the monitor's
settings, which fails of it (R412, R430, R438). -/

namespace Sys2Proof.Machine

/-- Kelpie restarted and its monitor not locked yet: MON_LOCK waits in an open sequence, and the crypto island is in its
error state.  Hall port 72 came up meanwhile, and waits for its key exchange. -/
def lockPending : State :=
  let klp := { State.reset.klp with
    mode := .monitor, policyIn := true, seqAt := some 0, seqOps := [.monLock 16], links := [(72, { initiator := true })] }
  let s := { State.reset with cryptoErr := true, klp := klp }
  (s.setPort 72 { st := .active }).wr F.MON_LINKSEC_STATE 1 72

/-- The operands of the open sequence take effect with the floors: the monitor is locked, and the exchange of port 72
fails, which asserts source 504. -/
theorem locked_svn_lockPending_asserts :
    (okWith 0 (locked (.svn 0 0) lockPending)).hnd.todo.map (·.src) = [504] := by decide +kernel

/-- Hound takes the action that the exchange's failure calls for before the call's step ends (R466). -/
theorem settle_locked_svn_lockPending :
    (settle (okWith 0 (locked (.svn 0 0) lockPending))).hnd.todo = [] := by decide +kernel

/-- R191: a call that none of its tests refuses has its effect. -/
theorem call_accepted {s : State} {l : List (Bool × Nat)} (hs : servesCalls s = true) (h : ∀ r ∈ l, r.1 = false)
    (v : Nat) (f : State → State) : call l v f s = okWith v (f s) := by
  have passes : (l.find? fun r => r.1) = none := List.find?_eq_none.mpr fun r hr => by simp [h r hr]
  simp [call, hs, passes]

/-- R412: floors that only rise and stay at or below what runs are fused, through a locked sequence. -/
theorem svnfloor_raises {b f : Nat} {s : State} (hs : servesCalls s = true) (hb : b < 2 ^ 32) (hf : f < 2 ^ 32)
    (hlo : s.klp.svnBoot ≤ b ∧ s.klp.svnFw ≤ f) (hhi : b ≤ s.klp.bootSvn ∧ f ≤ s.klp.fwSvn) :
    svnfloor b f s = okWith 0 (locked (.svn b f) s) := by
  have inRange : (decide (2 ^ 32 ≤ b) || decide (2 ^ 32 ≤ f)) = false := by
    rw [decide_eq_false (Nat.not_le.mpr hb), decide_eq_false (Nat.not_le.mpr hf), Bool.or_false]
  have allowed : (decide (s.klp.bootSvn < b) || decide (s.klp.fwSvn < f) || decide (b < s.klp.svnBoot) ||
      decide (f < s.klp.svnFw)) = false := by simp [hlo, hhi]
  exact call_accepted hs (by simp only [bad, prot, inRange, allowed, List.forall_mem_cons]; simp) 0 _

/-- R412, R438: SVNFLOOR where no locked sequence is open. -/
theorem exec_svnfloor_raises {b f : W64} {s : State} (hs : Quiet s) (hserved : servesCalls s = true)
    (hseq : s.klp.seqAt = none) (hb : b.toNat < 2 ^ 32) (hf : f.toNat < 2 ^ 32)
    (hlo : s.klp.svnBoot ≤ b.toNat ∧ s.klp.svnFw ≤ f.toNat) (hhi : b.toNat ≤ s.klp.bootSvn ∧ f.toNat ≤ s.klp.fwSvn) :
    exec (.svnfloor b f) s = .next (okWith 0 (locked (.svn b.toNat f.toNat) s)) := by
  have effect := svnfloor_raises hserved hb hf hlo hhi
  refine (live_quiet (svnfloor b.toNat f.toNat) s hs.1 ?_).trans (congrArg _ effect)
  rw [effect, locked_svn hseq]
  exact hs.2

/-- A step of a running module is the command's effect once Hound has settled it. -/
theorem live_eq {s : State} (f : State → State) (hs : s.sealed' = false) : live f s = .next (settle (f s)) := by
  simp [live, hs, fin]

/-- Refutes O41: its clause on SVNFLOOR does not say that no locked sequence is open.  Where one is open with MON_LOCK in
it, the call's own GO locks the monitor too; the key exchanges that this starts can fail and assert a source, whose
action the step also takes, so the state after the call is not the one that the clause names.  (With
`s.klp.seqAt = none` the clause holds, `exec_svnfloor_raises`.) -/
theorem not_debugAndMonitor : ¬ Obligations.DebugAndMonitor := by
  unfold Obligations.DebugAndMonitor
  rintro ⟨calls, -⟩
  have quiet : Quiet lockPending := ⟨rfl, rfl⟩
  have served : servesCalls lockPending = true := rfl
  obtain ⟨-, -, -, -, -, floors⟩ := calls lockPending quiet
  obtain ⟨raised, -⟩ := floors 0 0 served (by decide) (by decide)
  have named : exec (.svnfloor 0 0) lockPending = .next (okWith 0 (locked (.svn 0 0) lockPending)) :=
    raised (Nat.zero_le _) (Nat.zero_le _) (Nat.zero_le _) (Nat.zero_le _)
  have step : exec (.svnfloor 0 0) lockPending = .next (settle (svnfloor 0 0 lockPending)) := live_eq _ quiet.1
  rw [svnfloor_raises (b := 0) (f := 0) served (by decide) (by decide) ⟨Nat.le_refl _, Nat.le_refl _⟩
    ⟨Nat.le_refl _, Nat.le_refl _⟩] at step
  have same := Host.Outcome.next.inj (step.symm.trans named)
  have waits := locked_svn_lockPending_asserts
  have none_waits := settle_locked_svn_lockPending
  rw [same] at none_waits
  rw [none_waits] at waits
  cases waits

end Sys2Proof.Machine
end
